-- ==== Sys2Proof/Word.lean ====
section
/-! DEFINITION. Words, bytes, granules with their rinds, and the sparse map type the state uses. -/

namespace Sys2Proof

abbrev Word := BitVec 64
abbrev Byte := BitVec 8

/-- `n` granules of 64 data bits, each with its 8-bit rind (R61, Table 3-1): a scalar is `Reg 1`, a predicate `Reg 4`, a
vector register, a latch or a 256-byte row `Reg 32`, an accumulator row `Reg 64`. -/
structure Reg (n : Nat) where
  d : BitVec (64 * n)
  r : BitVec (8 * n)
deriving DecidableEq, Repr

/-- One granule and its rind (R61, R62). -/
structure Gran where
  d : Word
  r : Byte
deriving DecidableEq, Repr

/-- The rind of a granule of zeros (Table 3-3). -/
def zeroRind : Byte := 0x5D

/-- `n` copies of one rind byte. -/
def rindRep (n : Nat) (b : Byte) : BitVec (8 * n) := BitVec.ofNat _ (b.toNat * ((2 ^ (8 * n) - 1) / 255))

/-- Zeros with good rinds. -/
def Reg.zero (n : Nat) : Reg n := ⟨0, rindRep n zeroRind⟩

/-- A finite map from numbers, its keys strictly rising and no entry equal to the default of the map. -/
abbrev SMap (α : Type) := List (Nat × α)

/-- `w` bits of `x` from bit `lo`, as a number. -/
def bits (x lo w : Nat) : Nat := (x >>> lo) % 2 ^ w

def bit (x i : Nat) : Bool := x.testBit i

/-- The two's complement value of the low `w` bits of `x`. -/
def sext (w x : Nat) : Int :=
  let y := x % 2 ^ w
  if w = 0 then 0 else if 2 ^ (w - 1) ≤ y then (y : Int) - 2 ^ w else y

/-- An integer modulo `2 ^ w`. -/
def wrapI (w : Nat) (x : Int) : Nat := (x % (2 ^ w : Int)).toNat

def ceilDiv (a b : Nat) : Nat := (a + b - 1) / b

end Sys2Proof
end

