-- ==== Sys2Proof/Syntax.lean ====
section
/-! DEFINITION. The operations and events of the part: one constructor per row of the opcode table, with the operand fields
of its slot (chapter 05) or the data its event carries. -/

namespace Sys2Proof

/-- A tile of the basin (R12). -/
abbrev Tid := Fin 32

/-- S slot fields (Table 5-3). -/
structure SF where
  imm32 : BitVec 32
  neg : Bool
  pq : BitVec 5
  b : BitVec 6
  a : BitVec 6
  d : BitVec 6
deriving DecidableEq, Repr

/-- V slot fields (Table 5-5); `v1` tells slot V1 from V0. -/
structure VF where
  v1 : Bool
  imm16 : BitVec 16
  z : Bool
  n : Bool
  sub : BitVec 3
  sat : Bool
  rnd : BitVec 2
  type : BitVec 5
  pred : BitVec 5
  c : BitVec 9
  b : BitVec 9
  a : BitVec 9
  d : BitVec 9
deriving DecidableEq, Repr

/-- M slot fields (Table 5-6). -/
structure MF where
  start : BitVec 20
  sat : Bool
  sgnB : Bool
  sgnA : Bool
  zrow0 : BitVec 7
  pitch : BitVec 8
  rows : BitVec 9
  abase : BitVec 6
  w : BitVec 2
  z : BitVec 3
deriving DecidableEq, Repr

/-- L slot fields (Table 5-7). -/
structure LF where
  res : Bool
  n : Bool
  z : Bool
  tagchk : Bool
  tag : BitVec 8
  pred : BitVec 5
  x : BitVec 6
  type : BitVec 5
  imm15 : BitVec 15
  base : BitVec 6
  d : BitVec 9
deriving DecidableEq, Repr

/-- T slot fields (Table 5-8); an atomic reads `hi`, `sc`, `imm11` and `data` by the right-hand column. -/
structure TF where
  hi : BitVec 3
  sc : BitVec 3
  pred : BitVec 5
  type : BitVec 5
  imm11 : BitVec 11
  base : BitVec 6
  data : BitVec 9
deriving DecidableEq, Repr

/-- C slot fields (Table 5-9). -/
structure CF where
  imm20 : BitVec 20
  x : BitVec 7
  c : BitVec 6
  b : BitVec 6
  a : BitVec 6
  d : BitVec 6
  neg : Bool
  pred : BitVec 5
deriving DecidableEq, Repr

/-- Y slot fields (Table 5-10): `arg` is bits 31:12. -/
structure YF where
  arg : BitVec 20
  neg : Bool
  pred : BitVec 5
deriving DecidableEq, Repr

/-- The group and number by which member 0 matches a collective (R363). -/
structure CollId where
  lo : Nat
  stride : Nat
  n : Nat
  num : Nat
deriving DecidableEq, Repr

/-- What a partial flit of a collective belongs to (R371): the collective, the chunk, the path of the fold, the step, and the piece.
How a partial names its context is not given: the flit carries this beside its header (log entry 20). `wide` is the second half of FP32 elements
into which BF16 is widened (R355, R368). -/
structure PartId where
  coll : CollId
  chunk : Nat
  path : Nat
  stage : Nat
  piece : Nat
  wide : Reg 32
deriving DecidableEq, Repr

/-- A flit (Tables 12-1 and 12-2), decrypted. `tile` is the origin tile that the operation carries (R317, R455), for which
the header has bits only in control flits. `whole` is the offset and the length of the operation that a request flit is cut from, which step 5 of
R311 checks: the header has no field for it (log entry 23); none is the flit's own span. -/
structure Flit where
  kind : BitVec 3
  op : BitVec 5
  type : BitVec 5
  src : BitVec 13
  dst : BitVec 13
  win : BitVec 8
  count : BitVec 8
  offset : BitVec 36
  tag : BitVec 16
  opn : BitVec 14
  last : Bool
  lseq : BitVec 6
  tile : Tid
  data : Reg 32
  part : Option PartId
  whole : Option (Nat × Nat)
deriving DecidableEq, Repr

/-- A page-table walk (R437): the domain, the virtual address and the requester of R411 (4 L, 5 T, 6 C, 8 fetch, 11, 12). -/
structure Walk where
  tile : Tid
  pdom : BitVec 16
  va : Word
  req : Nat
deriving DecidableEq, Repr

/-- A launch notice (R363, R373): the member that launched and its record, whose shared fields member 0 compares. -/
structure Launch where
  id : CollId
  member : Nat
  record : BitVec 512
deriving DecidableEq, Repr

/-- What power-up finds (Table 17-3, R469, R471): the outcome of each verification and of the training of the HBM4E stacks, the SHA-512 of the
host firmware, the blob and the die's management firmware, and the configuration blob's fields: `blockAt` and `apertureAt` are host-die
addresses by REACHRANK. -/
structure BootInput where
  hostOk : Bool
  blobOk : Bool
  dieOk : Bool
  trainOk : Bool
  hostFw : BitVec 512
  blob : BitVec 512
  dieFw : BitVec 512
  trustRoot : List (BitVec 8)
  blockAt : SMap Nat
  apertureAt : SMap Nat
  ceiling : Nat
  basinId : BitVec 8
  rank : BitVec 16
  hostRank : BitVec 13
  linkEnable : BitVec 9
  linkIds : List Nat
  nPackages : Nat
  nLinks : Nat
  pkg : Nat
  pkgOfRank : List (Nat × Nat)
deriving DecidableEq, Repr

/-- The data that an event brings, beside which event it is: the fields that an event's constructor names are the ones it
reads. (A constructor of `Instr` that is an event has no argument: its data stand in the state when it takes place.) -/
structure EvArg where
  t : Tid
  n : Nat
  m : Nat
  port : Fin 9
  flag : Bool
  flag2 : Bool
  flit : Flit
  walk : Walk
  coll : CollId
  launch : Launch
  boot : BootInput
  w : Word
  low : BitVec 4
  code : BitVec 5
  tiles : BitVec 32
  nonce : BitVec 256
  record : BitVec 1536
  bytes : List Byte
  table : List (BitVec 32)
  streams : SMap Word
deriving DecidableEq, Repr

def Flit.void : Flit :=
  { kind := 0, op := 0, type := 0, src := 0, dst := 0, win := 0, count := 0, offset := 0, tag := 0, opn := 0, last := false, lseq := 0,
    tile := 0, data := .zero 32, part := Option.none, whole := Option.none }

def BootInput.none : BootInput :=
  { hostOk := false, blobOk := false, dieOk := false, trainOk := false, hostFw := 0, blob := 0, dieFw := 0, trustRoot := [], blockAt := [],
    apertureAt := [], ceiling := 0, basinId := 0, rank := 0, hostRank := 0, linkEnable := 0, linkIds := [],
    nPackages := 0, nLinks := 0, pkg := 0, pkgOfRank := [] }

/-- No data. -/
def EvArg.none : EvArg :=
  { t := 0, n := 0, m := 0, port := 0, flag := false, flag2 := false, flit := .void, walk := ⟨0, 0, 0, 0⟩, coll := ⟨0, 0, 0, 0⟩,
    launch := ⟨⟨0, 0, 0, 0⟩, 0, 0⟩, boot := .none, w := 0, low := 0, code := 0, tiles := 0, nonce := 0, record := 0, bytes := [],
    table := [], streams := [] }

/-- The operations and events, one per row of the opcode table: the slot instructions with their fields, then the events. -/
inductive Instr where
  /-- NOP (R110): A slot with opcode 0 and every bit 0 does nothing. -/
  | nop (k : Fin 8)
  /-- ADD (R155): Adds two scalars modulo 2^64. -/
  | add (f : SF)
  /-- SUB (R155): Subtracts two scalars modulo 2^64. -/
  | sub (f : SF)
  /-- MUL (R155): Writes the low 64 bits of the product. -/
  | mul (f : SF)
  /-- MULHI (R155): Writes the high 64 bits of the signed product. -/
  | mulhi (f : SF)
  /-- MULHN (R155): Writes the high 64 bits of the unsigned product. -/
  | mulhn (f : SF)
  /-- DIVI (R157): Signed division truncated toward zero. -/
  | divi (f : SF)
  /-- DIVN (R157): Unsigned division. -/
  | divn (f : SF)
  /-- REMI (R157): Signed remainder with the sign of the dividend. -/
  | remi (f : SF)
  /-- REMN (R157): Unsigned remainder. -/
  | remn (f : SF)
  /-- AND (R155): Bitwise and of two scalars. -/
  | and (f : SF)
  /-- OR (R155): Bitwise or of two scalars. -/
  | or (f : SF)
  /-- XOR (R155): Bitwise xor of two scalars. -/
  | xor (f : SF)
  /-- ANDN (R155): a and not b. -/
  | andn (f : SF)
  /-- SHL (R156): Shifts left, giving 0 for amounts of 64 or more. -/
  | shl (f : SF)
  /-- SHR (R156): Logical right shift. -/
  | shr (f : SF)
  /-- SRA (R156): Arithmetic right shift. -/
  | sra (f : SF)
  /-- ROL (R156): Rotates left by b mod 64. -/
  | rol (f : SF)
  /-- MINI (R155): Signed minimum. -/
  | mini (f : SF)
  /-- MAXI (R155): Signed maximum. -/
  | maxi (f : SF)
  /-- MINN (R155): Unsigned minimum. -/
  | minn (f : SF)
  /-- MAXN (R155): Unsigned maximum. -/
  | maxn (f : SF)
  /-- ADDS (R155): Saturating signed add. -/
  | adds (f : SF)
  /-- SUBS (R155): Saturating signed subtract. -/
  | subs (f : SF)
  /-- BFX (R158): Extracts a bit field, zero-extended. -/
  | bfx (f : SF)
  /-- BFI (R158): Inserts a bit field into d. -/
  | bfi (f : SF)
  /-- CMP (R159): Writes every bit of a predicate with a signed or unsigned comparison result. -/
  | cmp (f : SF)
  /-- SEL (R159): Selects a or b by bit 0 of the selector predicate. -/
  | sel (f : SF)
  /-- ADD_IMMEDIATE (R112): Immediate form of ADD with sign-extended imm32 as b. -/
  | addImmediate (f : SF)
  /-- SUB_IMMEDIATE (R112): Immediate form of SUB. -/
  | subImmediate (f : SF)
  /-- MUL_IMMEDIATE (R112): Immediate form of MUL. -/
  | mulImmediate (f : SF)
  /-- MULHI_IMMEDIATE (R112): Immediate form of MULHI. -/
  | mulhiImmediate (f : SF)
  /-- MULHN_IMMEDIATE (R112): Immediate form of MULHN. -/
  | mulhnImmediate (f : SF)
  /-- DIVI_IMMEDIATE (R112): Immediate form of DIVI. -/
  | diviImmediate (f : SF)
  /-- DIVN_IMMEDIATE (R112): Immediate form of DIVN. -/
  | divnImmediate (f : SF)
  /-- REMI_IMMEDIATE (R112): Immediate form of REMI. -/
  | remiImmediate (f : SF)
  /-- REMN_IMMEDIATE (R112): Immediate form of REMN. -/
  | remnImmediate (f : SF)
  /-- AND_IMMEDIATE (R112): Immediate form of AND. -/
  | andImmediate (f : SF)
  /-- OR_IMMEDIATE (R112): Immediate form of OR. -/
  | orImmediate (f : SF)
  /-- XOR_IMMEDIATE (R112): Immediate form of XOR. -/
  | xorImmediate (f : SF)
  /-- ANDN_IMMEDIATE (R112): Immediate form of ANDN. -/
  | andnImmediate (f : SF)
  /-- SHL_IMMEDIATE (R112): Immediate form of SHL. -/
  | shlImmediate (f : SF)
  /-- SHR_IMMEDIATE (R112): Immediate form of SHR. -/
  | shrImmediate (f : SF)
  /-- SRA_IMMEDIATE (R112): Immediate form of SRA. -/
  | sraImmediate (f : SF)
  /-- ROL_IMMEDIATE (R112): Immediate form of ROL. -/
  | rolImmediate (f : SF)
  /-- MINI_IMMEDIATE (R112): Immediate form of MINI. -/
  | miniImmediate (f : SF)
  /-- MAXI_IMMEDIATE (R112): Immediate form of MAXI. -/
  | maxiImmediate (f : SF)
  /-- MINN_IMMEDIATE (R112): Immediate form of MINN. -/
  | minnImmediate (f : SF)
  /-- MAXN_IMMEDIATE (R112): Immediate form of MAXN. -/
  | maxnImmediate (f : SF)
  /-- ADDS_IMMEDIATE (R112): Immediate form of ADDS. -/
  | addsImmediate (f : SF)
  /-- SUBS_IMMEDIATE (R112): Immediate form of SUBS. -/
  | subsImmediate (f : SF)
  /-- BFX_IMMEDIATE (R112): Immediate form of BFX. -/
  | bfxImmediate (f : SF)
  /-- BFI_IMMEDIATE (R112): Immediate form of BFI. -/
  | bfiImmediate (f : SF)
  /-- CMP_IMMEDIATE (R159): Immediate form of CMP, comparing with the sign-extended imm32. -/
  | cmpImmediate (f : SF)
  /-- SEL_IMMEDIATE (R159): Immediate form of SEL. -/
  | selImmediate (f : SF)
  /-- MOVI (R160): Writes the sign-extended imm32. -/
  | movi (f : SF)
  /-- MOVHI (R160): Replaces the upper 32 bits of d with imm32. -/
  | movhi (f : SF)
  /-- CLZ (R160): Counts leading zero bits. -/
  | clz (f : SF)
  /-- CTZ (R160): Counts trailing zero bits. -/
  | ctz (f : SF)
  /-- POPC (R160): Counts one bits. -/
  | popc (f : SF)
  /-- BREV (R160): Reverses the bit order. -/
  | brev (f : SF)
  /-- SEXT (R160): Sign-extends from bit k. -/
  | sext (f : SF)
  /-- PAND (R161): Bitwise and of predicates. -/
  | pand (f : SF)
  /-- POR (R161): Bitwise or of predicates. -/
  | por (f : SF)
  /-- PXOR (R161): Bitwise xor of predicates. -/
  | pxor (f : SF)
  /-- PANDN (R161): a and not b over predicates. -/
  | pandn (f : SF)
  /-- PNOT (R161): Inverts a predicate. -/
  | pnot (f : SF)
  /-- PCNT (R161): Counts set predicate bits into a scalar. -/
  | pcnt (f : SF)
  /-- PFIRST (R161): Index of the lowest set predicate bit. -/
  | pfirst (f : SF)
  /-- PLAST (R161): Index of the highest set predicate bit. -/
  | plast (f : SF)
  /-- PFROM (R161): Builds a predicate from an element bit mask. -/
  | pfrom (f : SF)
  /-- PLEN (R161): Sets the predicate bits below a count. -/
  | plen (f : SF)
  /-- PTOS (R161): Copies one predicate granule to a scalar. -/
  | ptos (f : SF)
  /-- MFSR (R162): Reads a special register into a scalar at issue + 2. -/
  | mfsr (f : SF)
  /-- MTSR (R162): Writes a scalar into a special register at issue + 1 after checks. -/
  | mtsr (f : SF)
  /-- RINJ (R81): Corrupts or poisons chosen granules of a register or scratchpad row. -/
  | rinj (f : SF)
  /-- VADD (R220): Element-wise add. -/
  | vadd (f : VF)
  /-- VSUB (R220): Element-wise subtract. -/
  | vsub (f : VF)
  /-- VMUL (R220): Element-wise multiply. -/
  | vmul (f : VF)
  /-- VFMA (R220): Fused a·b + c. -/
  | vfma (f : VF)
  /-- VFMS (R220): Fused a·b − c. -/
  | vfms (f : VF)
  /-- VFNMA (R220): Fused −(a·b) + c. -/
  | vfnma (f : VF)
  /-- VMIN (R221): Element-wise minimum propagating NaN. -/
  | vmin (f : VF)
  /-- VMAX (R221): Element-wise maximum propagating NaN. -/
  | vmax (f : VF)
  /-- VMINN (R221): Element-wise minimum preferring numbers. -/
  | vminn (f : VF)
  /-- VMAXN (R221): Element-wise maximum preferring numbers. -/
  | vmaxn (f : VF)
  /-- VABS (R220): Element-wise absolute value. -/
  | vabs (f : VF)
  /-- VNEG (R220): Element-wise negation. -/
  | vneg (f : VF)
  /-- VABD (R220): Element-wise absolute difference. -/
  | vabd (f : VF)
  /-- VADDS (R220): Saturating integer add. -/
  | vadds (f : VF)
  /-- VSUBS (R220): Saturating integer subtract. -/
  | vsubs (f : VF)
  /-- VMULH (R220): High half of the integer product. -/
  | vmulh (f : VF)
  /-- VDOT4 (R222): Four-way 8-bit dot product accumulated into 32-bit elements. -/
  | vdot4 (f : VF)
  /-- VAVG (R220): Rounded-up integer average. -/
  | vavg (f : VF)
  /-- VCLAMP (R221): Clamps a between b and c. -/
  | vclamp (f : VF)
  /-- VAND (R223): Bitwise and. -/
  | vand (f : VF)
  /-- VOR (R223): Bitwise or. -/
  | vor (f : VF)
  /-- VXOR (R223): Bitwise xor. -/
  | vxor (f : VF)
  /-- VANDN (R223): a and not b. -/
  | vandn (f : VF)
  /-- VNOT (R223): Bitwise not. -/
  | vnot (f : VF)
  /-- VSHL (R224): Element-wise left shift. -/
  | vshl (f : VF)
  /-- VSHR (R224): Element-wise logical right shift. -/
  | vshr (f : VF)
  /-- VSRA (R224): Element-wise arithmetic right shift. -/
  | vsra (f : VF)
  /-- VROL (R224): Element-wise rotate left. -/
  | vrol (f : VF)
  /-- VPOPC (R225): Counts set bits per element. -/
  | vpopc (f : VF)
  /-- VCLZ (R225): Counts leading zeros per element. -/
  | vclz (f : VF)
  /-- VCMP (R226): Compares elements into a predicate. -/
  | vcmp (f : VF)
  /-- VCLASS (R227): Tests float elements against a class mask into a predicate. -/
  | vclass (f : VF)
  /-- VSEL (R228): Selects elements of a or b by the predicate. -/
  | vsel (f : VF)
  /-- VMOV (R229): Copies or broadcasts into a vector register. -/
  | vmov (f : VF)
  /-- VMOVI (R229): Writes an immediate to every active element. -/
  | vmovi (f : VF)
  /-- VEXT (R230): Extracts one element into a scalar. -/
  | vext (f : VF)
  /-- VINS (R230): Inserts a scalar into one element. -/
  | vins (f : VF)
  /-- VCVT (R231): Converts elements between types, one part at a time. -/
  | vcvt (f : VF)
  /-- VQNT (R233): Quantises float elements into QG codes, optionally listing outliers in scratchpad. -/
  | vqnt (f : VF)
  /-- VDQNT (R235): Dequantises QG codes to floats. -/
  | vdqnt (f : VF)
  /-- VPACK (R232): Narrows two registers into one. -/
  | vpack (f : VF)
  /-- VUNPK (R232): Widens one half of a register. -/
  | vunpk (f : VF)
  /-- VPERM (R236): Permutes elements from two sources by an index vector. -/
  | vperm (f : VF)
  /-- VSHUF (R236): Shuffles elements by a fixed pattern. -/
  | vshuf (f : VF)
  /-- VSLIDE (R236): Slides elements across two registers. -/
  | vslide (f : VF)
  /-- VBCAST (R236): Broadcasts one element. -/
  | vbcast (f : VF)
  /-- VCOMP (R237): Packs active elements to the front. -/
  | vcomp (f : VF)
  /-- VEXPD (R237): Expands elements into active positions. -/
  | vexpd (f : VF)
  /-- VRED (R239): Reduces lanes by a fixed pairwise tree into element 0. -/
  | vred (f : VF)
  /-- VSCAN (R240): Inclusive prefix by the Brent–Kung schedule with optional carry. -/
  | vscan (f : VF)
  /-- VSEGSCAN (R240): Segmented prefix scan. -/
  | vsegscan (f : VF)
  /-- VREC (R241): First-order FP32 recurrence over 64 lanes. -/
  | vrec (f : VF)
  /-- VMACW (R243): Multiplies 16-bit elements and accumulates into an accumulator row. -/
  | vmacw (f : VF)
  /-- ZMOVN (R244): Narrows an accumulator row into 16-bit elements. -/
  | zmovn (f : VF)
  /-- ZMOVW (R245): Copies half an accumulator row to or from a vector register. -/
  | zmovw (f : VF)
  /-- VRCP (R247): Correctly rounded reciprocal. -/
  | vrcp (f : VF)
  /-- VRSQ (R247): Correctly rounded reciprocal square root. -/
  | vrsq (f : VF)
  /-- VSQRT (R247): Correctly rounded square root. -/
  | vsqrt (f : VF)
  /-- VDIV (R247): Correctly rounded division. -/
  | vdiv (f : VF)
  /-- VEXP2 (R247): Correctly rounded 2^x. -/
  | vexp2 (f : VF)
  /-- VLOG2 (R247): Correctly rounded log2 x. -/
  | vlog2 (f : VF)
  /-- VEXP (R247): Correctly rounded e^x. -/
  | vexp (f : VF)
  /-- VTANH (R247): Correctly rounded tanh x. -/
  | vtanh (f : VF)
  /-- VSIGM (R247): Correctly rounded logistic sigmoid. -/
  | vsigm (f : VF)
  /-- VSINT (R247): Correctly rounded sin 2πx. -/
  | vsint (f : VF)
  /-- VCOST (R247): Correctly rounded cos 2πx. -/
  | vcost (f : VF)
  /-- VRCHK (R79): Tests the 32 granules of a vector operand into a predicate. -/
  | vrchk (f : VF)
  /-- MLDB (R253): Loads a weight image into a weight slot, K rows whole. -/
  | mldb (f : MF)
  /-- MLDBT (R253): Loads a transposed weight image into a weight slot. -/
  | mldbt (f : MF)
  /-- MMA (R258): Streams A rows through the array and accumulates into accumulator rows. -/
  | mma (f : MF)
  /-- MMAZ (R258): As MMA but starting each row from zero. -/
  | mmaz (f : MF)
  /-- MMAC (R260): Convolution step gathering A rows from an NHWC input. -/
  | mmac (f : MF)
  /-- MZERO (R261): Zeroes accumulator rows. -/
  | mzero (f : MF)
  /-- MZSET (R261): Sets accumulator rows to a scalar value. -/
  | mzset (f : MF)
  /-- MROWSUM (R262): Writes the row sums of A into RS. -/
  | mrowsum (f : MF)
  /-- MZPC (R263): Applies the zero-point correction to integer accumulator rows. -/
  | mzpc (f : MF)
  /-- MDRAIN (R264): Drains accumulator rows to scratchpad, requantising or converting. -/
  | mdrain (f : MF)
  /-- MZLD (R267): Loads accumulator rows from scratchpad. -/
  | mzld (f : MF)
  /-- MXSAVE (R426): Saves the held array state to scratchpad in a handler. -/
  | mxsave (f : MF)
  /-- MXREST (R426): Restores the held array state from scratchpad in a handler. -/
  | mxrest (f : MF)
  /-- VLD (R193): Loads a scratchpad row into a vector register, decoding by bank format. -/
  | vld (f : LF)
  /-- VLDS (R194): Strided scratchpad load. -/
  | vlds (f : LF)
  /-- VLDG (R194): Gather load by an index vector. -/
  | vldg (f : LF)
  /-- VLDB (R193): Loads one element and broadcasts it. -/
  | vldb (f : LF)
  /-- LDS (R195): Loads one scratchpad element into a scalar. -/
  | lds (f : LF)
  /-- GLD (R204): Loads a scalar from basin memory through L1. -/
  | gld (f : LF)
  /-- GLDV (R204): Loads 256 bytes from basin memory into a vector register. -/
  | gldv (f : LF)
  /-- PLD (R195): Loads 32 bytes into a predicate. -/
  | pld (f : LF)
  /-- PPOP (R401): Pops the oldest pipe entry or reports the pipe's end. -/
  | ppop (f : LF)
  /-- LDTAG (R196): Reads a bank row's sequence tag into a scalar. -/
  | ldtag (f : LF)
  /-- GPREF (R205): Prefetches a line into L1. -/
  | gpref (f : LF)
  /-- VST (R198): Stores a vector register to one scratchpad row. -/
  | vst (f : TF)
  /-- VSTS (R198): Strided scratchpad store. -/
  | vsts (f : TF)
  /-- VSTX (R198): Scatter store by an index vector. -/
  | vstx (f : TF)
  /-- STS (R199): Stores the low bytes of a scalar to scratchpad. -/
  | sts (f : TF)
  /-- GST (R206): Stores a scalar to basin memory, into L1 or written through by mode. -/
  | gst (f : TF)
  /-- GSTV (R206): Stores 256 bytes to basin memory. -/
  | gstv (f : TF)
  /-- PST (R199): Stores a predicate's 32 bytes to scratchpad. -/
  | pst (f : TF)
  /-- AADD (R210): Atomic integer add. -/
  | aadd (f : TF)
  /-- AADDF (R210): Atomic float add. -/
  | aaddf (f : TF)
  /-- AMIN (R210): Atomic minimum. -/
  | amin (f : TF)
  /-- AMAX (R210): Atomic maximum. -/
  | amax (f : TF)
  /-- AAND (R210): Atomic and. -/
  | aand (f : TF)
  /-- AOR (R210): Atomic or. -/
  | aor (f : TF)
  /-- AXOR (R210): Atomic xor. -/
  | axor (f : TF)
  /-- ASWP (R210): Atomic swap. -/
  | aswp (f : TF)
  /-- ACAS (R210): Atomic compare and swap. -/
  | acas (f : TF)
  /-- PPUSH (R399): Pushes a 256-byte entry into a pipe. -/
  | ppush (f : TF)
  /-- PEOS (R399): Sends a producer's end mark to a pipe. -/
  | peos (f : TF)
  /-- STTAG (R200): Writes a bank row's sequence tag. -/
  | sttag (f : TF)
  /-- GFLUSH (R207): Writes back and optionally invalidates a line or all of L1. -/
  | gflush (f : TF)
  /-- CLOOP (R291): Stages one level of a copy nest. -/
  | cloop (f : CF)
  /-- CBASE (R292): Stages the bases, count and mode of a copy nest. -/
  | cbase (f : CF)
  /-- CGO (R293): Starts or resumes a copy nest, plain or in tensor mode. -/
  | cgo (f : CF)
  /-- CSTOP (R294): Stops emission of a copy engine. -/
  | cstop (f : CF)
  /-- CQUERY (R295): Reads copy engine status into a scalar. -/
  | cquery (f : CF)
  /-- TBIND (R304): Binds a tensor layout record to the basin. -/
  | tbind (f : CF)
  /-- TUNBIND (R305): Drops a reference to a tensor binding. -/
  | tunbind (f : CF)
  /-- TFLUSH (R305): Writes back or drops a bound tensor's L2 tiles. -/
  | tflush (f : CF)
  /-- WCREATE (R326): Creates a window entry from a descriptor. -/
  | wcreate (f : CF)
  /-- WFREE (R327): Closes and frees a window entry. -/
  | wfree (f : CF)
  /-- WFENCE (R316): Arrives at a collective fence epoch of a window. -/
  | wfence (f : CF)
  /-- WPOST (R314): Exposes a post-mode window and sends post notices. -/
  | wpost (f : CF)
  /-- WSTART (R314): Opens an access record toward a posted window. -/
  | wstart (f : CF)
  /-- WCOMPL (R314): Closes an access record and sends its completion when visible. -/
  | wcompl (f : CF)
  /-- WDONE (R314): Waits in its handle for every origin of the exposure to complete. -/
  | wdone (f : CF)
  /-- WLOCK (R317): Requests a shared or exclusive lock on a passive window. -/
  | wlock (f : CF)
  /-- WUNLOCK (R317): Releases a lock once its operations are visible. -/
  | wunlock (f : CF)
  /-- WPUT (R328): Puts bytes into a remote window. -/
  | wput (f : CF)
  /-- WGET (R328): Gets bytes from a remote window. -/
  | wget (f : CF)
  /-- WACC (R328): Accumulates into a remote window. -/
  | wacc (f : CF)
  /-- WAMO (R329): Applies one remote atomic. -/
  | wamo (f : CF)
  /-- WFLUSH (R330): Waits until earlier remote operations reach the accepted or visible level. -/
  | wflush (f : CF)
  /-- WTEST (R331): Tests a local window's state into a predicate. -/
  | wtest (f : CF)
  /-- HINIT (R332): Clears a settled handle. -/
  | hinit (f : CF)
  /-- HTEST (R332): Tests a handle's settlement into a predicate. -/
  | htest (f : CF)
  /-- HREAD (R332): Reads a handle field into a scalar. -/
  | hread (f : CF)
  /-- COLL (R378): Launches a collective described by a collective record. -/
  | coll (f : CF)
  /-- CINC (R384): Adds to a sequence counter. -/
  | cinc (f : CF)
  /-- CREAD (R384): Reads a sequence counter. -/
  | cread (f : CF)
  /-- CSET (R384): Sets a sequence counter. -/
  | cset (f : CF)
  /-- TSPAWN (R406): Spawns a task or gang from task records. -/
  | tspawn (f : CF)
  /-- PBIND (R397): Binds, frees or queries a pipe. -/
  | pbind (f : CF)
  /-- TEFFECT (R404): Reads, sets or clears the task's effect flag. -/
  | teffect (f : CF)
  /-- CASKDUP (R458): Makes a relocated copy of a sealed cask. -/
  | caskdup (f : CF)
  /-- CASKDISC (R459): Discards a cask. -/
  | caskdisc (f : CF)
  /-- CASKQ (R460): Inspects a cask header. -/
  | caskq (f : CF)
  /-- BR (R166): Branches to a bundle offset when bit 0 of the predicate holds. -/
  | br (f : YF)
  /-- BRP (R166): Branches when any bit of the predicate is set. -/
  | brp (f : YF)
  /-- BRS (R166): Branches by a short offset when a scalar meets a condition. -/
  | brs (f : YF)
  /-- JR (R167): Jumps to the address in a scalar. -/
  | jr (f : YF)
  /-- CALL (R167): Calls a bundle offset, writing the link to s62. -/
  | call (f : YF)
  /-- CALLR (R167): Calls the address in a scalar, writing the link to s62. -/
  | callr (f : YF)
  /-- RET (R167): Returns to the address in s62. -/
  | ret (f : YF)
  /-- LOOP (R169): Opens a zero-overhead loop with a count from a scalar. -/
  | loop (f : YF)
  /-- LOOPI (R169): Opens a zero-overhead loop with an immediate count. -/
  | loopi (f : YF)
  /-- SYNC (R173): Stops the tile until the participants arrive and then restarts them together. -/
  | sync (f : YF)
  /-- WAITC (R385): Waits until a counter reaches a threshold, then acquires. -/
  | waitc (f : YF)
  /-- WAITH (R333): Waits until a handle is settled at a level, then acquires, optionally trapping on failure. -/
  | waith (f : YF)
  /-- FENCE (R46): Performs a release, an acquire or both at a scope. -/
  | fence (f : YF)
  /-- YIELD (R452): Marks an effective yield point, optionally ceding the tile. -/
  | yield (f : YF)
  /-- SUSP (R448): Suspends the running task into a cask. -/
  | susp (f : YF)
  /-- SUSPG (R450): Suspends a whole gang into a gang cask. -/
  | suspg (f : YF)
  /-- RSM (R453): Resumes a cask onto the caller's tile, retiring the caller. -/
  | rsm (f : YF)
  /-- TRAP (R420): Acts in full and then raises class X with its code. -/
  | trap (f : YF)
  /-- ERET (R421): Returns from a trap handler, reissuing or skipping the trapped bundle. -/
  | eret (f : YF)
  /-- HALT (R407): Stops issue and lets the task retire when its work has finished. -/
  | halt (f : YF)
  /-- BKPT (R429): Acts in full and then stops the tile for debug. -/
  | bkpt (f : YF)
  /-- TILE_CYCLE (R413): At each tile cycle the tile applies every write due in that cycle and then takes at most one trap, chosen by the stated order. Data: t in `arg.t`. -/
  | tileCycle
  /-- FREEZE_END (R23): A frozen tile resumes issue when the data, counter, handle, pipe entry or space it waited for becomes available. Data: t in `arg.t`. -/
  | freezeEnd
  /-- L1_FILL (R201): A 64-byte sector read from the L2 arrives and is written into L1 except for dirty bytes, setting V for its words. Data: t in `arg.t`, sector in `arg.n`. -/
  | l1Fill
  /-- OWNERSHIP_GRANT (R202): The L2 grants ownership registration of a word to a tile, moving the word from PEND to OWN. Data: t in `arg.t`, word in `arg.n`. -/
  | ownershipGrant
  /-- REVOCATION (R202): The L2 revokes a tile's ownership of a word, takes its dirty bytes and invalidates the tile's copy. Data: t in `arg.t`, word in `arg.n`. -/
  | revocation
  /-- GLOBAL_ATOMIC_RETURN (R211): The old value of a global atomic returns from the L2 into its return scalar or snapshot entry. Data: t in `arg.t`, id in `arg.n`. -/
  | globalAtomicReturn
  /-- TRANSLATION_WALK_END (R437): A page-table walk ends and fills the shared TLB and micro-TLB with a translation or a fault entry. Data: w in `arg.walk`. -/
  | translationWalkEnd
  /-- FETCH_LINE_ARRIVAL (R433): A missing bundle line arrives in the fetch buffer, ending the freeze before that bundle. Data: t in `arg.t`, line in `arg.n`. -/
  | fetchLineArrival
  /-- COPY_EMISSION (R280): A copy engine emits the next copy of its nest at its pace cycle, with per-copy checks and translation requests. Data: t in `arg.t`, e in `arg.flag`. -/
  | copyEmission
  /-- LATE_ROW_WRITE (R282): A path-1 destination row whose data arrives after its formula cycle is written, clearing its late mark and pending count. Data: t in `arg.t`, id in `arg.n`, row in `arg.m`. -/
  | lateRowWrite
  /-- WRITE_QUEUE_ROW_WRITE (R289): A destination row held in the copy write queue is written at the first free cycle of its bank's write port. Data: t in `arg.t`, e in `arg.flag`. -/
  | writeQueueRowWrite
  /-- DELAYED_SOURCE_READ (R289): A copy source row that lost its read port is read at the first free cycle. Data: t in `arg.t`, e in `arg.flag`. -/
  | delayedSourceRead
  /-- PUT_REQUEST (R311): A put request flit arrives at the target port and is checked against the window table. Data: f in `arg.flit`. -/
  | putRequest
  /-- GET_REQUEST (R311): A get request flit arrives at the target port and is checked against the window table. Data: f in `arg.flit`. -/
  | getRequest
  /-- ACCUMULATE_REQUEST (R318): An accumulate request flit arrives at the target port and is checked against the window table. Data: f in `arg.flit`. -/
  | accumulateRequest
  /-- TAGGED_ACCUMULATE (R319): A tagged accumulate flit arrives and is deduplicated by its (window, origin rank, tag) key. Data: f in `arg.flit`. -/
  | taggedAccumulate
  /-- ATOMIC_REQUEST (R329): A remote atomic request flit arrives at the target port and is checked against the window table. Data: f in `arg.flit`. -/
  | atomicRequest
  /-- FUTURE_FILL (R329): A swap with future fill arrives, swaps the element and adds 1 to the named target counter. Data: f in `arg.flit`. -/
  | futureFill
  /-- REMOTE_APPLY (R318): An admitted flit applies its elements at the target L2 16 cycles after arrival. Data: f in `arg.flit`. -/
  | remoteApply
  /-- GET_DATA (R328): A get data reply arrives and its rows are written at the origin landing. Data: f in `arg.flit`. -/
  | getData
  /-- ATOMIC_OLD_VALUE (R329): An atomic old-value reply arrives and is written into bytes 8-15 of the operand block. Data: f in `arg.flit`. -/
  | atomicOldValue
  /-- NOTICES (R338): A notices reply arrives and each notice record updates the handle of its operation. Data: f in `arg.flit`. -/
  | notices
  /-- ACKNOWLEDGEMENT_ONLY (R349): An acknowledgement-only reply arrives carrying the next expected lseq and resend flag. Data: f in `arg.flit`. -/
  | acknowledgementOnly
  /-- POST (R314): A post notice arrives at an origin port and opens the matching access record, releasing chambered operations. Data: f in `arg.flit`. -/
  | post
  /-- COMPLETION (R314): A completion notice arrives at the target and sets the origin's bit in the window's bitmap. Data: f in `arg.flit`. -/
  | completion
  /-- FENCE_ARRIVAL (R316): A fence arrival reaches the target port and is counted for the window's current epoch. Data: f in `arg.flit`. -/
  | fenceArrival
  /-- FENCE_DONE (R316): A fence-done notice arrives at an origin and makes its WFENCE visible. Data: f in `arg.flit`. -/
  | fenceDone
  /-- LOCK_REQUEST (R317): A shared or exclusive lock request arrives and enters the window's lock FIFO or fails when it is full. Data: f in `arg.flit`. -/
  | lockRequest
  /-- GRANT (R317): A grant notice arrives at the origin and settles the WLOCK at the visible level. Data: f in `arg.flit`. -/
  | grant
  /-- RELEASE (R317): A lock release arrives at the target port, frees the lock and lets waiting requests be granted. Data: f in `arg.flit`. -/
  | release
  /-- COMPLETION_NOTICE_SEND (R314): A held WCOMPL completion notice departs once every earlier operation of the interval is visible. Data: opn in `arg.n`. -/
  | completionNoticeSend
  /-- FENCE_ARRIVAL_SEND (R316): A participant's fence arrival departs once its earlier operations to the window are visible. Data: opn in `arg.n`. -/
  | fenceArrivalSend
  /-- RELEASE_SEND (R317): A WUNLOCK release departs once the operations issued under the lock are visible. Data: opn in `arg.n`. -/
  | releaseSend
  /-- CHAMBER_QUEUE_TIMEOUT (R315): An access record STARTED for 16,777,216 cycles is closed and its WSTART and chambered operations fail with code 10. Data: rank in `arg.n`, win in `arg.m`. -/
  | chamberQueueTimeout
  /-- WINDOW_ENTRY_FREED (R320): After the last admitted flit performs, WFREE unpins the pages, frees the entry and writes its status. Data: win in `arg.m`. -/
  | windowEntryFreed
  /-- FABRIC_SLOT (R343): At the start of each 4-cycle slot each port sends the flit that its departure table entry selects. Data: port in `arg.port`. -/
  | fabricSlot
  /-- STANDING_FLIT_ARRIVAL (R349): A standing flit arrives and is accepted or discarded by tag, lseq and queue room. Data: port in `arg.port`, tagOk in `arg.flag`, f in `arg.flit`. -/
  | standingFlitArrival
  /-- SCHEDULED_FLIT_ARRIVAL (R352): In a slot with akind 1 the port takes the expected stream flit or delivers a void flit. Data: port in `arg.port`, f in `arg.flit, with flag = arrived`. -/
  | scheduledFlitArrival
  /-- SYNC_RESULT (R353): A combined sync flit arrives and releases the reach SYNC participants at slot start plus roff, or leaves them waiting. Data: port in `arg.port`, stream in `arg.n`, f in `arg.flit`. -/
  | syncResult
  /-- EPOCH (R339): An epoch management flit arrives and loads FTIME with its value plus the hop latency. Data: port in `arg.port`, f in `arg.flit`. -/
  | epoch
  /-- REFERENCE_LOCK_LOSS (R339): A die that loses lock to the reach reference raises class M on bound tiles and stops sending on its links. -/
  | referenceLockLoss
  /-- LANE_LOCK (R340): All four lanes lock and deskew, moving the link from TRAIN to ALIGN. Data: port in `arg.port`. -/
  | laneLock
  /-- TRAINING_TIMEOUT (R340): A link not locked within 2^24 cycles of TRAIN enters FAILED. Data: port in `arg.port`. -/
  | trainingTimeout
  /-- ALIGNMENT (R340): Alignment completes with the receive delay padded to the fixed hop latency, moving the link to AUTH, or fails. Data: port in `arg.port`, measured in `arg.n`. -/
  | alignment
  /-- KEY_EXCHANGE (R341): A key-exchange flit arrives; when both certificates verify the keys are derived and the link becomes KEYED. Data: port in `arg.port`, certOk in `arg.flag`, sigOk in `arg.flag2`. -/
  | keyExchange
  /-- TABLE_ACTIVATION (R343): At activation FTIME T the shadow departure table becomes active and KEYED links become ACTIVE. Data: port in `arg.port`. -/
  | tableActivation
  /-- LANE_LOCK_LOSS (R340): Loss of lane lock moves an ACTIVE link to FAILED. Data: port in `arg.port`. -/
  | laneLockLoss
  /-- LINK_FAILURE_TIMEOUT (R358): At failure plus 1,024 cycles the origin port fails with code 9 every unaccepted operation sent over the failed link. Data: port in `arg.port`. -/
  | linkFailureTimeout
  /-- REKEY_START (R342): At flit counter e·2^48 + 2^47 the key exchange for epoch e + 1 starts in idle slots. Data: port in `arg.port`. -/
  | rekeyStart
  /-- REKEY_COMMIT (R342): At the epoch boundary rekey commit switches both directions to the new keys, or the link fails if the rekey is not complete. Data: port in `arg.port`. -/
  | rekeyCommit
  /-- LAUNCH_NOTICE (R373): A collective launch notice arrives at member 0's engine and is matched by group and number. Data: n in `arg.launch`. -/
  | launchNotice
  /-- RESERVATION_REQUEST (R373): A reservation request arrives at a member, whose manager grants it when all its resources can be taken at once. Data: c in `arg.coll`. -/
  | reservationRequest
  /-- RESERVATION_GRANT (R373): A member's grant reaches member 0, which requests the next member or sends go. Data: member in `arg.n`, c in `arg.coll`. -/
  | reservationGrant
  /-- GO (R373): Go arrives at a member, which starts staging and counts ACC. Data: c in `arg.coll`. -/
  | go
  /-- CHUNK_STAGING (R365): A ready chunk of a standing collective is staged from the L2 into the staging pool. Data: c in `arg.coll`. -/
  | chunkStaging
  /-- STREAM_STAGING (R365): At T0 − 64 a stream collective stages every chunk, unready ones as poisoned zeros. Data: c in `arg.coll`. -/
  | streamStaging
  /-- TOWPATH_PARTIAL (R371): A partial flit arrives at a towpath context and is forwarded, added or written through. Data: f in `arg.flit`. -/
  | towpathPartial
  /-- ROOT_SLOT_COPY (R18): An ARMED root slot's record is copied into a task-table entry that frees, and the slot becomes TAKEN. -/
  | rootSlotCopy
  /-- TASK_READY (R387): A WAITING task becomes READY in the cycle after its waits are met and no pending writer overlaps its read boxes. Data: i in `arg.n`. -/
  | taskReady
  /-- TASK_START (R390): The task engine chooses a ready task or gang and starts it on free tiles 32 cycles later. Data: i in `arg.n`. -/
  | taskStart
  /-- PREEMPTION (R428): At the next effective yield point the tile suspends into a cask in CASKAREA. Data: t in `arg.t`. -/
  | preemption
  /-- REACH_JOB_START (R392): At FTIME T_J every member of a bound reach-gang part issues its entry bundle. Data: j in `arg.n`. -/
  | reachJobStart
  /-- PART_NOT_READY (R392): At T_J − 32 a part that is not READY or lacks tiles fails with reason 6 and is reported. Data: j in `arg.n`. -/
  | partNotReady
  /-- TASK_RETIRE (R407): A halted task retires once its engines, handles and outward effects have finished, releasing, counting done and freeing the tile. Data: t in `arg.t`. -/
  | taskRetire
  /-- REDIRECT_SWITCH (R389): When a renamed task and every earlier overlapping task have retired, the redirect map switches to its shadow tile. Data: i in `arg.n`. -/
  | redirectSwitch
  /-- SYNC_ARRIVAL (R173): A tile waiting at SYNC arrives once its results, matrix commands and release are complete. Data: t in `arg.t`. -/
  | syncArrival
  /-- SYNC_RESTART (R174): The participants restart at the level's fixed cycle after the last arrival and form a timing domain or go free. Data: tiles in `arg.tiles`, timed in `arg.flag`. -/
  | syncRestart
  /-- CLASS_M_EVENT (R424): A class M event is taken within 64 bundles of its cause and ends the task. Data: t in `arg.t`, low in `arg.low`, info in `arg.w`. -/
  | classMEvent
  /-- POWER_MEASUREMENT (R472): Every 1,024 FTIME cycles the host die measures package power and throttles unbound gangs above the ceiling. Data: above in `arg.flag`. -/
  | powerMeasurement
  /-- THROTTLE_END (R27): A throttle ends and the gang's sequencers and engines resume with held results landing at their tile cycles. Data: gang in `arg.n`. -/
  | throttleEnd
  /-- EMERGENCY_POWER_STOP (R472): Power above the ceiling for 24,000 cycles with nothing to throttle makes bound tiles raise class M and their reach jobs end. -/
  | emergencyPowerStop
  /-- SUSPENSION_DRAIN_END (R448): The cask unit finds copies, stores, loads and local handles drained and performs the release before writing the cask. Data: t in `arg.t`. -/
  | suspensionDrainEnd
  /-- CASK_WRITTEN (R448): Section 5 and the header perform, making the cask SEALED or ANCHORED and the task SUSPENDED. Data: t in `arg.t`. -/
  | caskWritten
  /-- CASK_NOTICE_LANDING (R444): A notice for a suspended tile lands in the cask's handle block 16 cycles after arrival and lowers outst. Data: opn in `arg.n`, ok in `arg.flag`, code in `arg.code`. -/
  | caskNoticeLanding
  /-- RSM_CLAIM (R453): The cask unit reads and claims the header, checks it and waits while it is ANCHORED. Data: t in `arg.t`. -/
  | rsmClaim
  /-- RESTORE_COMPLETE (R455): The restore finishes, the resumed task issues at tile cycle c and the cask becomes SPENT. Data: t in `arg.t`. -/
  | restoreComplete
  /-- CASKDUP_COPY_DONE (R458): The relocated cask copy's header performs and the status is written. Data: id in `arg.n`. -/
  | caskdupCopyDone
  /-- POWER_UP (R468): Power-up runs the secure boot sequence of Table 17-3. Data: b in `arg.boot`. -/
  | powerUp
  /-- ATTESTATION (R471): On request a die returns a signed report of nonce, firmware hashes, boot step and certificate. Data: nonce in `arg.nonce`. -/
  | attestation
  /-- APERTURE_READ (R466): The host die reads basin HBM through the basin aperture, checking rinds. Data: pa in `arg.n`, n in `arg.m`. -/
  | apertureRead
  /-- APERTURE_WRITE (R466): The host die writes basin HBM through the basin aperture with fresh rinds and is acknowledged when performed. Data: pa in `arg.n`, data in `arg.bytes`. -/
  | apertureWrite
  /-- ROOTREC (R18): A host write of the root task record into an EMPTY root slot; ignored and reported otherwise. Data: record in `arg.record`. -/
  | rootrec
  /-- ROOTARM (R18): A host write arms the root slot, which checks the record and refuses or queues it. -/
  | rootarm
  /-- RPOOL (R462): A host write sets the rename pool size unless some task holds shadow tiles. Data: v in `arg.w`. -/
  | rpool
  /-- EQBASE (R462): A host write sets the event queue base and resets EQHEAD and EQTAIL. Data: v in `arg.w`. -/
  | eqbase
  /-- EQSIZE (R462): A host write sets the event queue size and resets EQHEAD and EQTAIL. Data: v in `arg.w`. -/
  | eqsize
  /-- RJSTART (R462): A host write sets the start FTIME of a reach-job entry, ignored while armed. Data: j in `arg.n`, v in `arg.w`. -/
  | rjstart
  /-- RJCTL_ARM (R462): A host write of ARM = 1 arms a reach-job entry, refused if its start is not valid. Data: j in `arg.n`. -/
  | rjctlArm
  /-- RJCTL_DISARM (R462): A host write of ARM = 0 disarms a reach-job entry without affecting bound tasks. Data: j in `arg.n`. -/
  | rjctlDisarm
  /-- HOST_REGISTER_WRITE (R462): A host write to a host-port register without behaviour of its own stores the value. Data: off in `arg.n`, v in `arg.w`. -/
  | hostRegisterWrite
  /-- INVALIDATE_PAGE (R463): Host command 1 invalidates the translation of one page of one PDOM. -/
  | invalidatePage
  /-- INVALIDATE_DOMAIN (R463): Host command 2 invalidates every translation of one PDOM. -/
  | invalidateDomain
  /-- INVALIDATE_ALL (R463): Host command 3 invalidates every translation of the basin. -/
  | invalidateAll
  /-- DEBUG_STOP (R463): Host command 4 stops a tile for the host as a debug stop does. -/
  | debugStop
  /-- DEBUG_RESUME (R463): Host command 5 resumes a tile stopped for the host. -/
  | debugResume
  /-- READ_STATE (R464): Host command 6 reads one granule of a stopped tile's state into CARG1. -/
  | readState
  /-- WRITE_STATE (R464): Host command 7 writes one granule of a stopped tile's state with a fresh rind. -/
  | writeState
  /-- FREE_FAILED_TASK (R463): Host command 8 frees a FAILED task-table entry. -/
  | freeFailedTask
  /-- LINK_BRING_UP (R463): Host command 9 requests bring-up of an enabled link, moving it from OFF or FAILED to TRAIN. -/
  | linkBringUp
  /-- LOAD_SHADOW_DEPARTURE_TABLE (R345): Host command 10 loads a port's shadow departure table with activation FTIME T, or refuses it. Data: table in `arg.table`, streams in `arg.streams`. -/
  | loadShadowDepartureTable
  /-- SET_COUNTER (R463): Host command 11 sets a sequence counter with a fresh rind as a port write. -/
  | setCounter
  /-- READ_COUNTER (R463): Host command 12 returns a sequence counter's value and rind. -/
  | readCounter
  /-- END_REACH_JOB (R392): Host command 13 fails every task bound to the entry with reason 6 and sets ENDED. -/
  | endReachJob
  /-- HOST_COMMAND_DONE (R463): A busy host command completes and CMDST becomes done or refused. -/
  | hostCommandDone
  /-- CMD_OTHER_CODE (R463): A host write to CMD of a code that Table 17-2 does not list is refused at once. Data: code in `arg.w`. -/
  | cmdOtherCode
deriving DecidableEq, Repr

end Sys2Proof
end

