-- ==== Sys2Proof/Machine/EncErr.lean ====
section
/-! DEFINITION. The named ways in which an encoding is not an instruction (R128, R129), and how one is reported (R130). -/

namespace Sys2Proof

/-- Class E causes (Table 5-13), and those of a cask check (chapter 16) which have low bits 0xC to 0xF. -/
inductive EncCause where
  | notInstruction | header | reservedField | operandKind | typeCode | v1Only | latchDest | limits | slotCombination | privileged
  | record
deriving DecidableEq, Repr

def EncCause.low : EncCause → Nat
  | .notInstruction => 1 | .header => 2 | .reservedField => 3 | .operandKind => 4 | .typeCode => 5 | .v1Only => 6
  | .latchDest => 7 | .limits => 8 | .slotCombination => 9 | .privileged => 10 | .record => 11

/-- One condition of R128 that holds: its cause and the bits of its field. Slots are numbered as in Table 5-14. -/
structure EncErr where
  cause : EncCause
  slot : Nat
  lo : Nat
  hi : Nat
deriving DecidableEq, Repr

/-- Table 5-14 for a condition in bundle bits (where = 0). -/
def EncErr.info (e : EncErr) : BitVec 64 := BitVec.ofNat 64 (e.slot * 2 ^ 6 + e.lo * 2 ^ 10 + e.hi * 2 ^ 21)

/-- First bundle bit of each slot (Table 5-1), slots numbered as in Table 5-14. -/
def slotBase : Nat → Nat
  | 0 => 16 | 1 => 80 | 2 => 160 | 3 => 240 | 4 => 304 | 5 => 368 | 6 => 416 | 7 => 480 | _ => 0

/-- Width of each slot (Table 5-1). -/
def slotWidth : Nat → Nat
  | 0 => 64 | 1 => 80 | 2 => 80 | 3 => 64 | 4 => 64 | 5 => 48 | 6 => 64 | 7 => 32 | _ => 16

/-- Width of each slot's opcode field. -/
def opWidth : Nat → Nat
  | 0 => 8 | 1 => 10 | 2 => 10 | 6 => 7 | _ => 6

/-- A condition in slot bits `lo` to `hi` of slot `k`. -/
def encErr (k : Nat) (c : EncCause) (lo hi : Nat) : EncErr := ⟨c, k, slotBase k + lo, slotBase k + hi⟩

def errIf (b : Bool) (e : EncErr) : List EncErr := if b then [e] else []

/-- A reserved or unused field that must be 0 (R111). -/
def zeroField (k : Nat) (x lo hi : Nat) : List EncErr := errIf (x != 0) (encErr k .reservedField lo hi)

/-- An operand field that must hold at most `m` (R128, fourth item). -/
def atMost (k : Nat) (x m lo hi : Nat) : List EncErr := errIf (decide (m < x)) (encErr k .operandKind lo hi)

/-- The condition reported when several hold: the field with the lowest bundle bit (R130). -/
def EncErr.first : List EncErr → Option EncErr
  | [] => none
  | e :: es =>
    match EncErr.first es with
    | none => some e
    | some f => if f.lo < e.lo then some f else some e

end Sys2Proof
end

