-- ==== Sys2Proof/Machine/CheckV.lean ====
section
/-! DEFINITION. Encoding checks of the V slots (R114, R121, R215, Table 8-2) and of the M slot (R115, chapter 09). -/

namespace Sys2Proof.Check

/-- Kinds of a 9-bit operand field: vector source, vector destination, predicate destination, a scalar 328-391, unused. -/
inductive VKind where
  | src | dst | pdst | scalar | none
deriving DecidableEq, Repr

def vSlot (f : VF) : Nat := if f.v1 then 2 else 1

def vOperand (k : Nat) (kind : VKind) (x lo hi : Nat) : List EncErr :=
  match kind with
  | .src => errIf (!(x ≤ 323 || (328 ≤ x && x ≤ 391))) (encErr k .operandKind lo hi)
  | .dst =>
    if x ≤ 319 then [] else if x ≤ 323 then [encErr k .latchDest lo hi] else [encErr k .operandKind lo hi]
  | .pdst => atMost k x 31 lo hi
  | .scalar => errIf (!(328 ≤ x && x ≤ 391)) (encErr k .operandKind lo hi)
  | .none => zeroField k x lo hi

/-- Type classes of R219. -/
def tyF (t : Nat) : Bool := t == 8 || t == 9 || t == 10
def tyI (t : Nat) : Bool := t ≤ 7
def tyP (t : Nat) : Bool := t ≤ 10
def tyX (t : Nat) : Bool := t ≤ 12

/-- Element width in bits of a type code (Tables 4-1 and 4-2). -/
def tyWidth (t : Nat) : Nat :=
  match t with
  | 0 | 1 => 8
  | 2 | 3 | 8 | 9 => 16
  | 4 | 5 | 10 => 32
  | 6 | 7 => 64
  | _ => 4

def vKinds (d a b c : VKind) (f : VF) : List EncErr :=
  vOperand (vSlot f) d f.d.toNat 10 18 ++ vOperand (vSlot f) a f.a.toNat 19 27 ++ vOperand (vSlot f) b f.b.toNat 28 36 ++
    vOperand (vSlot f) c f.c.toNat 37 45

def vType (ok : Nat → Bool) (f : VF) : List EncErr := errIf (!ok f.type.toNat) (encErr (vSlot f) .typeCode 51 55)

def vRnd (ok : Bool) (f : VF) : List EncErr := errIf (!ok && f.rnd != 0) (encErr (vSlot f) .reservedField 56 57)
def vSat (ok : Bool) (f : VF) : List EncErr := errIf (!ok && f.sat) (encErr (vSlot f) .reservedField 58 58)

/-- Of sub, only the low `n` bits are used. -/
def vSub (n : Nat) (f : VF) : List EncErr := zeroField (vSlot f) (f.sub.toNat >>> n) (59 + n) 61
def vNoZ (f : VF) : List EncErr := errIf f.z (encErr (vSlot f) .reservedField 63 63)

/-- imm16 bits from `lo` up are 0. -/
def vImm (lo : Nat) (f : VF) : List EncErr := zeroField (vSlot f) (f.imm16.toNat >>> lo) (64 + lo) 79

/-- The plain forms: no sub, no imm16. -/
def vPlain (ty : Nat → Bool) (d a b c : VKind) (sat rnd : Bool) (f : VF) : List EncErr :=
  vKinds d a b c f ++ vType ty f ++ vRnd rnd f ++ vSat sat f ++ vSub 0 f ++ vImm 0 f

def tyIF (t : Nat) : Bool := tyI t || tyF t
def isF (f : VF) : Bool := tyF f.type.toNat

/-- `VADD`, `VSUB`, `VMUL`, `VABD`: rnd for float types only. -/
def vArith (f : VF) : List EncErr := vPlain tyIF .dst .src .src .none false (isF f) f
def vFma (f : VF) : List EncErr := vPlain tyF .dst .src .src .src false true f
def vMinMax (f : VF) : List EncErr := vPlain tyIF .dst .src .src .none false false f
def vAbsNeg (f : VF) : List EncErr := vPlain tyIF .dst .src .none .none (!isF f) false f
def vInt2 (f : VF) : List EncErr := vPlain tyI .dst .src .src .none false false f
def vClamp (f : VF) : List EncErr := vPlain tyIF .dst .src .src .src false false f
def vLogic (f : VF) : List EncErr := vPlain tyX .dst .src .src .none false false f
def vLogic1 (f : VF) : List EncErr := vPlain tyX .dst .src .none .none false false f
def vInt1 (f : VF) : List EncErr := vPlain tyI .dst .src .none .none false false f

def vDot4 (f : VF) : List EncErr :=
  vKinds .dst .src .src .src f ++ vType (· ≤ 1) f ++ vRnd false f ++ vSub 1 f ++ vImm 0 f

def vCmp (f : VF) : List EncErr :=
  vKinds .pdst .src .src .none f ++ vType tyIF f ++ vRnd false f ++ vSat false f ++
    errIf (f.sub == 7 || (f.sub == 6 && !isF f)) (encErr (vSlot f) .operandKind 59 61) ++ vImm 0 f

def vClass (f : VF) : List EncErr :=
  vKinds .pdst .src .none .none f ++ vType tyF f ++ vRnd false f ++ vSat false f ++ vSub 0 f ++ vImm 10 f

def vSel (f : VF) : List EncErr := vLogic f ++ vNoZ f

def vMovi (f : VF) : List EncErr :=
  vKinds .dst .none .none .none f ++ vType tyX f ++ vRnd false f ++ vSat false f ++ vSub 0 f

/-- `VEXT`, `VINS` (R230). -/
def vExtIns (d a : VKind) (f : VF) : List EncErr :=
  vKinds d a (if f.sub.getLsbD 0 then .scalar else .none) .none f ++ vType tyP f ++ vRnd false f ++ vSat false f ++ vSub 1 f ++
    vNoZ f ++
    (if f.sub.getLsbD 0 then vImm 0 f
     else errIf (decide (2048 / tyWidth f.type.toNat ≤ bits f.imm16.toNat 0 9)) (encErr (vSlot f) .limits 64 72) ++ vImm 9 f)

def vSrcType (f : VF) : Nat := bits f.imm16.toNat 0 5
def vPart (f : VF) : Nat := bits f.imm16.toNat 5 3
def vGroup (f : VF) : Nat := bits f.imm16.toNat 8 2

/-- `VCVT` (R231). -/
def vCvt (f : VF) : List EncErr :=
  let wd := tyWidth f.type.toNat
  let ws := tyWidth (vSrcType f)
  vKinds .dst .src .none .none f ++ vType tyX f ++ vRnd (isF f || tyF (vSrcType f)) f ++ vSat (!isF f) f ++ vSub 0 f ++
    errIf (!tyX (vSrcType f)) (encErr (vSlot f) .typeCode 64 68) ++
    errIf (decide (max ws wd / min ws wd ≤ vPart f)) (encErr (vSlot f) .limits 69 71) ++ vImm 8 f

/-- The limits that `VQNT` and `VDQNT` share: `w` is the float width, `q` the code type. -/
def vQuant (w q : Nat) (f : VF) : List EncErr :=
  errIf (decide (w / tyWidth q ≤ vPart f)) (encErr (vSlot f) .limits 69 71) ++
    errIf (vGroup f == 0) (encErr (vSlot f) .limits 72 73) ++ vImm 10 f

def tyCode (t : Nat) : Bool := t == 1 || t == 12

/-- `VQNT` (R233). -/
def vQnt (f : VF) : List EncErr :=
  vKinds .dst .src .src (if f.sub.getLsbD 0 then .scalar else .none) f ++
    errIf (f.sub.getLsbD 0 && (f.c == 328 || f.c == 390 || f.c == 391)) (encErr (vSlot f) .operandKind 37 45) ++
    vType tyCode f ++ vSat false f ++ vSub 1 f ++ errIf (!tyF (vSrcType f)) (encErr (vSlot f) .typeCode 64 68) ++
    vQuant (tyWidth (vSrcType f)) f.type.toNat f

/-- `VDQNT` (R235). -/
def vDqnt (f : VF) : List EncErr :=
  vKinds .dst .src .src .none f ++ vType tyF f ++ vSat false f ++ vSub 0 f ++
    errIf (!tyCode (vSrcType f)) (encErr (vSlot f) .typeCode 64 68) ++ vQuant (tyWidth f.type.toNat) (vSrcType f) f

/-- imm16 of `VPACK` and `VUNPK`: R114 names the source type there, and Table 8-2 gives the field no contents. The source type follows from T,
so both writings are taken (log entry 9). -/
def vSource (code : Nat) (f : VF) : List EncErr := if f.imm16.toNat = code then [] else vImm 0 f

def vPack (f : VF) : List EncErr :=
  vKinds .dst .src .src .none f ++ vType (· ≤ 5) f ++ vRnd false f ++ vSat true f ++ vSub 0 f ++ vSource (f.type.toNat + 2) f

def vUnpk (f : VF) : List EncErr :=
  vKinds .dst .src .none .none f ++ vType (fun t => 2 ≤ t && t ≤ 7) f ++ vRnd false f ++ vSat false f ++ vSub 1 f ++ vSource (f.type.toNat - 2) f

def vPerm (f : VF) : List EncErr := vPlain tyP .dst .src .src .src false false f

/-- `VSHUF` (R236): `.rev` uses no b. -/
def vShuf (f : VF) : List EncErr :=
  vKinds .dst .src (if f.sub == 4 then .none else .src) .none f ++ vType tyP f ++ vRnd false f ++ vSat false f ++
    atMost (vSlot f) f.sub.toNat 5 59 61 ++ vImm 0 f

def vSlide (f : VF) : List EncErr :=
  vKinds .dst .src .src .none f ++ vType tyP f ++ vRnd false f ++ vSat false f ++ vSub 0 f ++
    errIf (decide (2048 / tyWidth f.type.toNat < bits f.imm16.toNat 0 10)) (encErr (vSlot f) .limits 64 73) ++ vImm 10 f

def vBcast (f : VF) : List EncErr :=
  vKinds .dst .src .none .none f ++ vType tyP f ++ vRnd false f ++ vSat false f ++ vSub 0 f ++
    errIf (decide (2048 / tyWidth f.type.toNat ≤ bits f.imm16.toNat 0 9)) (encErr (vSlot f) .limits 64 72) ++ vImm 9 f

def vCompExpd (f : VF) : List EncErr := vPlain tyP .dst .src .none .none false false f

/-- The operator of a reduction or scan (R238). -/
def vOper (f : VF) : List EncErr :=
  vType tyIF f ++ vRnd (isF f) f ++ vSat (!isF f && f.sub == 0) f ++
    errIf (isF f && (f.sub == 3 || f.sub == 4 || f.sub == 5)) (encErr (vSlot f) .operandKind 59 61)

def vRed (f : VF) : List EncErr := vKinds .dst .src .none .none f ++ vOper f ++ vNoZ f ++ vImm 0 f

def vCarry (f : VF) : VKind := if f.imm16.getLsbD 0 then .src else .none

def vScan (f : VF) : List EncErr := vKinds .dst .src .none (vCarry f) f ++ vOper f ++ vImm 1 f
def vSegscan (f : VF) : List EncErr := vKinds .dst .src .src (vCarry f) f ++ vOper f ++ vImm 1 f

def vRec (f : VF) : List EncErr :=
  vKinds .dst .src .src (vCarry f) f ++ vType (· == 10) f ++ vSat false f ++ vSub 0 f ++ vImm 1 f

def ty16 (t : Nat) : Bool := t == 8 || t == 9 || t == 2 || t == 3

def vMacw (f : VF) : List EncErr :=
  vKinds .none .src .src .none f ++ vType ty16 f ++ vRnd (isF f) f ++ vSat (!isF f) f ++ vSub 0 f ++ vImm 10 f

def zMovn (f : VF) : List EncErr :=
  vKinds .dst .none .none .none f ++ vType ty16 f ++ vSat (!isF f) f ++ vSub 0 f ++
    (if isF f then vImm 10 f else vImm 15 f)

def zMovw (f : VF) : List EncErr :=
  (if f.sub.getLsbD 0 then vKinds .none .src .none .none f else vKinds .dst .none .none .none f) ++
    vType (fun t => t == 10 || t == 4 || t == 5) f ++ vRnd false f ++ vSat false f ++ vSub 2 f ++ vImm 10 f

/-- `VSQRT`: every type and mode (R247). -/
def vSfu1Any (f : VF) : List EncErr := vPlain tyF .dst .src .none .none false true f
def vSfu2Any (f : VF) : List EncErr := vPlain tyF .dst .src .src .none false true f

/-- The other special functions: rnd is 0 for `.f32` (R247). -/
def vSfu1 (f : VF) : List EncErr := vPlain tyF .dst .src .none .none false (f.type != 10) f

/-- `VRCHK` (Table 3-7). -/
def vRchk (f : VF) : List EncErr :=
  let k := vSlot f
  vOperand k .pdst f.d.toNat 10 18 ++ atMost k f.a.toNat 323 19 27 ++ zeroField k f.b.toNat 28 36 ++
    zeroField k f.c.toNat 37 45 ++ zeroField k f.type.toNat 51 55 ++ vRnd false f ++ vSat false f ++
    errIf (f.z || f.n || decide (2 < f.sub.toNat)) (encErr k .operandKind 59 63) ++ vImm 0 f

end Sys2Proof.Check
end

