-- ==== Sys2Proof/Machine/CheckM.lean ====
section
/-! DEFINITION. Encoding checks of the M slot (R115, R251, R264, R425), the L slot (R116, R192, R400), the T slot (R117, R197,
R209, R399) and the C slot (R118, R290, R325, R457 and the tables of chapters 13 and 14). -/

namespace Sys2Proof.Check

/-! ## M slot -/

/-- Rows 1-128 and zrow0 + rows at most 128 (R115). -/
def mRows (f : MF) : List EncErr :=
  errIf (f.rows == 0 || decide (128 < f.rows.toNat) || decide (128 < f.zrow0.toNat + f.rows.toNat)) (encErr 3 .limits 17 25)

def mZ (f : MF) : List EncErr := zeroField 3 f.z.toNat 6 8
def mW (f : MF) : List EncErr := zeroField 3 f.w.toNat 9 10
def mBase (f : MF) : List EncErr := zeroField 3 f.abase.toNat 11 16
def mPitch (f : MF) : List EncErr := zeroField 3 f.pitch.toNat 26 33
def mRow0 (f : MF) : List EncErr := zeroField 3 f.zrow0.toNat 34 40
def mSgnA (f : MF) : List EncErr := zeroField 3 f.sgnA.toNat 41 41
def mSgnB (f : MF) : List EncErr := zeroField 3 f.sgnB.toNat 42 42
def mSat (f : MF) : List EncErr := zeroField 3 f.sat.toNat 43 43

/-- `MLDB`, `MLDBT`: pairs 1-64. -/
def mLdb (f : MF) : List EncErr :=
  mZ f ++ errIf (f.rows == 0 || decide (64 < f.rows.toNat)) (encErr 3 .limits 17 25) ++ mRow0 f ++ mSgnA f ++ mSat f

def mMma (f : MF) : List EncErr := mRows f
def mZero (f : MF) : List EncErr := mRows f ++ mW f ++ mBase f ++ mPitch f ++ mSgnA f ++ mSgnB f ++ mSat f
def mZset (f : MF) : List EncErr := mRows f ++ mW f ++ mPitch f ++ mSgnA f ++ mSgnB f ++ mSat f
def mRowsum (f : MF) : List EncErr := mRows f ++ mZ f ++ mSgnB f ++ mSat f
def mZpc (f : MF) : List EncErr := mRows f
def mDrain (f : MF) : List EncErr := mRows f ++ mSat f ++ (if f.sgnB then mW f else [])
def mZld (f : MF) : List EncErr := mRows f ++ mW f ++ mSgnA f ++ mSgnB f ++ mSat f

/-- `MXSAVE`, `MXREST` use abase only (R425). -/
def mMx (f : MF) : List EncErr :=
  mZ f ++ mW f ++ zeroField 3 f.rows.toNat 17 25 ++ mPitch f ++ mRow0 f ++ mSgnA f ++ mSgnB f ++ mSat f ++
    zeroField 3 f.start.toNat 44 63

/-! ## L slot -/

def lRes (f : LF) : List EncErr := zeroField 4 f.res.toNat 63 63
def lType (ok : Nat → Bool) (f : LF) : List EncErr := errIf (!ok f.type.toNat) (encErr 4 .typeCode 36 40)
def lNoType (f : LF) : List EncErr := zeroField 4 f.type.toNat 36 40
def lNoZ (f : LF) : List EncErr := zeroField 4 f.z.toNat 61 61

/-- When tagchk is 0 the tag field is 0 (R116). -/
def lTag (f : LF) : List EncErr := errIf (!f.tagchk && f.tag != 0) (encErr 4 .reservedField 52 59)
def lNoTag (f : LF) : List EncErr := zeroField 4 f.tag.toNat 52 59 ++ zeroField 4 f.tagchk.toNat 60 60
def lDst (k : VKind) (f : LF) : List EncErr := vOperand 4 k f.d.toNat 6 14

def lVld (f : LF) : List EncErr := lDst .dst f ++ lType tyX f ++ lTag f ++ lRes f

/-- The index operand of `VLDG`: bits 60:52. -/
def ldgIndex (f : LF) : Nat := f.tag.toNat + f.tagchk.toNat * 256

/-- Types of 16, 32 or 64 bits. -/
def tyWide (t : Nat) : Bool := 2 ≤ t && t ≤ 10

def lVldg (f : LF) : List EncErr :=
  lDst .dst f ++ lType tyWide f ++ atMost 4 f.x.toNat 3 41 46 ++ atMost 4 (ldgIndex f) 323 52 60 ++ lRes f

def lLds (f : LF) : List EncErr := lDst .scalar f ++ lType tyP f ++ lTag f ++ lNoZ f ++ lRes f
def lGld (f : LF) : List EncErr := lDst .scalar f ++ lType tyP f ++ lNoTag f ++ lNoZ f ++ lRes f
def lGldv (f : LF) : List EncErr := lDst .dst f ++ lType tyX f ++ lNoTag f ++ lRes f
def lPld (f : LF) : List EncErr := lDst .pdst f ++ lNoType f ++ lTag f ++ lNoZ f ++ lRes f
def lLdtag (f : LF) : List EncErr := lDst .scalar f ++ lNoType f ++ lNoTag f ++ lNoZ f ++ lRes f
def lGpref (f : LF) : List EncErr := lDst .none f ++ lNoType f ++ lNoTag f ++ lNoZ f ++ lRes f

/-- `PPOP` (R400): a vector register or a scalar; x names the end predicate. -/
def lPpop (f : LF) : List EncErr :=
  (if 328 ≤ f.d.toNat then lDst .scalar f else lDst .dst f) ++ zeroField 4 f.imm15.toNat 21 35 ++ lNoType f ++
    atMost 4 f.x.toNat 31 41 46 ++ lNoTag f ++ lNoZ f ++ lRes f

/-! ## T slot -/

def tHigh (f : TF) : List EncErr := zeroField 5 f.sc.toNat 42 44 ++ zeroField 5 f.hi.toNat 45 47
def tType (ok : Nat → Bool) (f : TF) : List EncErr := errIf (!ok f.type.toNat) (encErr 5 .typeCode 32 36)
def tNoType (f : TF) : List EncErr := zeroField 5 f.type.toNat 32 36

/-- A vector source: registers and latches only (Table 7-5). -/
def tVec (f : TF) : List EncErr := atMost 5 f.data.toNat 323 6 14
def tScalar (f : TF) : List EncErr := vOperand 5 .scalar f.data.toNat 6 14

def tVst (f : TF) : List EncErr := tVec f ++ tType tyX f ++ tHigh f
def tVsts (f : TF) : List EncErr := tVec f ++ zeroField 5 (bits f.imm11.toNat 6 5) 27 31 ++ tType tyX f ++ tHigh f

/-- The index operand of `VSTX`: bits 29:21. -/
def tVstx (f : TF) : List EncErr := tVec f ++ atMost 5 (bits f.imm11.toNat 0 9) 323 21 29 ++ tType tyWide f ++ tHigh f
def tSts (f : TF) : List EncErr := tScalar f ++ tType tyP f ++ tHigh f
def tGstv (f : TF) : List EncErr := tVec f ++ tType tyX f ++ tHigh f
def tPst (f : TF) : List EncErr := atMost 5 f.data.toNat 31 6 14 ++ tNoType f ++ tHigh f
def tSttag (f : TF) : List EncErr := tScalar f ++ tNoType f ++ tHigh f
def tGflush (f : TF) : List EncErr := zeroField 5 (bits f.data.toNat 2 7) 8 14 ++ tNoType f ++ tHigh f

/-- Scope 0-4, and the types of R209. -/
def tAtomic (ok : Nat → Bool) (f : TF) : List EncErr := tType ok f ++ atMost 5 f.sc.toNat 4 42 44
def ty3264 (t : Nat) : Bool := 4 ≤ t && t ≤ 7

/-- `PPUSH`: a vector register, a latch or a scalar (R399). -/
def tPpush (f : TF) : List EncErr :=
  vOperand 5 .src f.data.toNat 6 14 ++ zeroField 5 f.imm11.toNat 21 31 ++ tNoType f ++ tHigh f
def tPeos (f : TF) : List EncErr :=
  zeroField 5 f.data.toNat 6 14 ++ zeroField 5 f.imm11.toNat 21 31 ++ tNoType f ++ tHigh f

/-! ## C slot: which fields an instruction uses -/

def cD (f : CF) : List EncErr := zeroField 6 f.d.toNat 13 18
def cA (f : CF) : List EncErr := zeroField 6 f.a.toNat 19 24
def cB (f : CF) : List EncErr := zeroField 6 f.b.toNat 25 30
def cC (f : CF) : List EncErr := zeroField 6 f.c.toNat 31 36
/-- x bits from `n` up are 0. -/
def cX (n : Nat) (f : CF) : List EncErr := zeroField 6 (f.x.toNat >>> n) (37 + n) 43
/-- imm20 bits from `n` up are 0. -/
def cImm (n : Nat) (f : CF) : List EncErr := zeroField 6 (f.imm20.toNat >>> n) (44 + n) 63
/-- A handle: bit 18 is 0 (R118). -/
def cHandle (f : CF) : List EncErr := zeroField 6 (bits f.d.toNat 5 1) 18 18

def cloopLevel (f : CF) : Nat := bits f.x.toNat 1 3

/-- `CLOOP` (Table 10-4). -/
def cCloop (f : CF) : List EncErr := cD f ++ atMost 6 (cloopLevel f) 5 38 40 ++ cX 4 f ++ cImm 0 f

def cbaseTm (f : CF) : Nat := bits f.x.toNat 1 2
def cbaseCvt (f : CF) : Bool := bit f.x.toNat 3
def cbasePath (f : CF) : Nat := bits f.imm20.toNat 0 2
def cbaseOp (f : CF) : Nat := bits f.imm20.toNat 2 3
def cbaseType (f : CF) : Nat := bits f.imm20.toNat 5 5
def cbaseTag (f : CF) : Nat := bits f.imm20.toNat 10 8

/-- The types that a path-3 operator admits (R285). -/
def path3Type (op t : Nat) : Bool :=
  match op with
  | 0 => ty3264 t || t == 10 || t == 8
  | 1 | 2 => ty3264 t || t == 10 || t == 8
  | 3 | 4 => t ≤ 7
  | _ => true

/-- `CBASE` (R292). -/
def cCbase (f : CF) : List EncErr :=
  cD f ++ atMost 6 (cbaseTm f) 2 38 39 ++
    errIf (cbaseTm f != 0 && cbaseTm f != 3 && 2 ≤ cbasePath f) (encErr 6 .reservedField 38 39) ++
    errIf (cbaseCvt f && (cbasePath f != 0 || cbaseType f != 0)) (encErr 6 .reservedField 40 40) ++ cX 4 f ++
    errIf (decide (4 < cbaseOp f)) (encErr 6 .operandKind 46 48) ++
    errIf (cbaseOp f != 0 && cbaseOp f ≤ 4 && cbasePath f != 3) (encErr 6 .reservedField 46 48) ++
    errIf (!tyX (cbaseType f) || (cbasePath f == 3 && !path3Type (cbaseOp f) (cbaseType f))) (encErr 6 .typeCode 49 53) ++
    errIf (cbaseTm f == 0 && cbaseTag f != 0) (encErr 6 .reservedField 54 61) ++ cImm 18 f

def cgoRes (f : CF) : Bool := bit f.x.toNat 1
def cgoTensor (f : CF) : Bool := bit f.x.toNat 2
def cgoOp (f : CF) : Nat := bits f.x.toNat 3 4

/-- `CGO` (R293, R299): the tensor fields are used in tensor mode only. -/
def cCgo (f : CF) : List EncErr :=
  if cgoRes f then
    cD f ++ cA f ++ cB f ++ cC f ++ errIf (cgoTensor f) (encErr 6 .reservedField 39 39) ++
      errIf (cgoOp f != 0) (encErr 6 .reservedField 40 43)
  else if cgoTensor f then atMost 6 (cgoOp f) 6 40 43
  else cD f ++ cA f ++ cB f ++ cC f ++ zeroField 6 (cgoOp f) 40 43

def cCstop (f : CF) : List EncErr := cD f ++ cA f ++ cB f ++ cC f ++ cX 1 f ++ cImm 0 f

def cquerySel (f : CF) : Nat := bits f.x.toNat 1 3
def cqueryLevel (f : CF) : Nat := bits f.x.toNat 4 3

/-- `CQUERY` (R295): a level for `.idx` only. -/
def cCquery (f : CF) : List EncErr :=
  cA f ++ cB f ++ cC f ++ atMost 6 (cquerySel f) 4 38 40 ++
    (if cquerySel f == 3 then atMost 6 (cqueryLevel f) 5 41 43 else zeroField 6 (cqueryLevel f) 41 43) ++ cImm 0 f

/-- `TBIND` (R304): vR in imm20 bits 8:0, 0-317. -/
def cTbind (f : CF) : List EncErr :=
  cA f ++ cB f ++ cC f ++ cX 0 f ++ atMost 6 (bits f.imm20.toNat 0 9) 317 44 52 ++ cImm 9 f
def cTunbind (f : CF) : List EncErr := cB f ++ cC f ++ cX 0 f ++ cImm 0 f
def tflushMode (f : CF) : Nat := bits f.x.toNat 1 2
/-- `TFLUSH` (R305): mode in x bits 2:1. -/
def cTflush (f : CF) : List EncErr :=
  cD f ++ cB f ++ cC f ++ zeroField 6 (bits f.x.toNat 0 1) 37 37 ++ atMost 6 (tflushMode f) 2 38 39 ++ cX 3 f ++ cImm 0 f

/-- `WCREATE` (Table 11-7): vR in imm20 bits 8:0, 0-319. -/
def cWcreate (f : CF) : List EncErr :=
  cA f ++ cB f ++ cC f ++ cX 0 f ++ atMost 6 (bits f.imm20.toNat 0 9) 319 44 52 ++ cImm 9 f
/-- a and d: `WFREE`, `PBIND`-like and cask forms. -/
def cDA (f : CF) : List EncErr := cB f ++ cC f ++ cX 0 f ++ cImm 0 f
/-- A handle and a window or target word, with `n` bits of x. -/
def cHA (n : Nat) (f : CF) : List EncErr := cHandle f ++ cB f ++ cC f ++ cX n f ++ cImm 0 f
def remLen (f : CF) : Nat := bits f.imm20.toNat 0 15
def remType (f : CF) : Nat := bits f.imm20.toNat 15 5
/-- Length 1-16,384 (R328). -/
def cLen (f : CF) : List EncErr := errIf (remLen f == 0 || decide (16384 < remLen f)) (encErr 6 .limits 44 58)
def cRType (ok : Bool) : List EncErr := errIf (!ok) (encErr 6 .typeCode 59 63)
/-- `WPUT`, `WGET`. -/
def cWput (f : CF) : List EncErr := cHandle f ++ cX 1 f ++ cLen f ++ cRType (tyX (remType f))
def waccOp (f : CF) : Nat := bits f.x.toNat 1 3
/-- The types that a `WACC` operator admits (Table 11-4). -/
def waccType (op t : Nat) : Bool :=
  match op with
  | 0 | 1 | 2 => ty3264 t || t == 10 || t == 8
  | 3 | 4 | 5 => t ≤ 7
  | 6 => t ≤ 10
  | _ => true
def cWacc (f : CF) : List EncErr :=
  cHandle f ++ atMost 6 (waccOp f) 6 38 40 ++ cX 5 f ++ cLen f ++
    cRType (tyX (remType f) && waccType (waccOp f) (remType f))
/-- `WAMO` (R329). -/
def cWamo (f : CF) : List EncErr :=
  cHandle f ++ zeroField 6 (bits f.x.toNat 0 1) 37 37 ++
    errIf (bit f.x.toNat 4 && waccOp f != 6) (encErr 6 .reservedField 41 41) ++ cX 5 f ++
    zeroField 6 (remLen f) 44 58 ++ cRType (ty3264 (remType f) || (remType f == 10 && waccOp f ≤ 2))
/-- `WFLUSH`: a is 0 with `.all`. -/
def cWflush (f : CF) : List EncErr :=
  cD f ++ (if bit f.x.toNat 1 then cA f else []) ++ cB f ++ cC f ++ cX 2 f ++ cImm 0 f
/-- `WTEST`: pD in c, condition in x bits 2:0. -/
def cWtest (f : CF) : List EncErr :=
  cD f ++ cB f ++ atMost 6 f.c.toNat 31 31 36 ++ atMost 6 (bits f.x.toNat 0 3) 4 37 39 ++ cX 3 f ++ cImm 0 f
def cHinit (f : CF) : List EncErr := cHandle f ++ cA f ++ cB f ++ cC f ++ cX 0 f ++ cImm 0 f
def cHtest (f : CF) : List EncErr := cHandle f ++ cA f ++ cB f ++ atMost 6 f.c.toNat 31 31 36 ++ cX 2 f ++ cImm 0 f
def cHread (f : CF) : List EncErr :=
  cHandle f ++ cA f ++ cB f ++ atMost 6 (bits f.x.toNat 0 3) 6 37 39 ++ cX 3 f ++ cImm 0 f
/-- `COLL` (Table 13-4): a handle, the record address, `.rel` and a start offset. -/
def cColl (f : CF) : List EncErr := cHandle f ++ cB f ++ cC f ++ cX 1 f
/-- `CINC` (Table 14-4). -/
def cCinc (f : CF) : List EncErr := cD f ++ cC f ++ cX 1 f ++ cImm 0 f
def cCset (f : CF) : List EncErr := cD f ++ cC f ++ cX 0 f ++ cImm 0 f
/-- `TSPAWN` (R405). -/
def cTspawn (f : CF) : List EncErr := cB f ++ cC f ++ cX 1 f ++ cImm 0 f
def modeX (f : CF) : Nat := bits f.x.toNat 0 2
/-- `PBIND` (R397). -/
def cPbind (f : CF) : List EncErr := cB f ++ cC f ++ atMost 6 (modeX f) 2 37 38 ++ cX 2 f ++ cImm 0 f
/-- `TEFFECT` (R404): d is 0 but in `.rd`. -/
def cTeffect (f : CF) : List EncErr :=
  (if modeX f == 1 || modeX f == 2 then cD f else []) ++ cA f ++ cB f ++ cC f ++ atMost 6 (modeX f) 2 37 38 ++ cX 2 f ++
    cImm 0 f
/-- `CASKDUP` (Table 16-6). -/
def cCaskdup (f : CF) : List EncErr := cC f ++ cX 0 f ++ cImm 0 f

end Sys2Proof.Check
end

