-- ==== Sys2Proof/Machine/CheckS.lean ====
section
/-! DEFINITION. Encoding checks of the S slot and the Y slot. -/

namespace Sys2Proof.Check

/-! ## S slot (R112, R113, Tables 5-3 and 5-4). Kinds of operand: `s` any scalar, `p` a predicate, `u` unused. -/

inductive SKind where
  | s | p | u
deriving DecidableEq, Repr

def sOperand (k : SKind) (x lo hi : Nat) : List EncErr :=
  match k with
  | .s => []
  | .p => atMost 0 x 31 lo hi
  | .u => zeroField 0 x lo hi

def sKinds (d a b : SKind) (f : SF) : List EncErr :=
  sOperand d f.d.toNat 8 13 ++ sOperand a f.a.toNat 14 19 ++ sOperand b f.b.toNat 20 25

/-- Register form: imm32 is 0. -/
def sReg (d a b : SKind) (f : SF) : List EncErr := sKinds d a b f ++ zeroField 0 f.imm32.toNat 32 63

/-- Immediate form: the b field is 0. -/
def sImm (d a : SKind) (f : SF) : List EncErr := sKinds d a .u f

/-- `CMP`: pq holds a condition code 0-9 and neg is 0 (R112). -/
def sCc (f : SF) : List EncErr := atMost 0 f.pq.toNat 9 26 30 ++ zeroField 0 f.neg.toNat 31 31

/-- The assigned special-register numbers (Table 6-1). -/
def sregAssigned (n : Nat) : Bool :=
  n ≤ 0x015 || (0x018 ≤ n && n ≤ 0x01E) || (0x020 ≤ n && n ≤ 0x02C) || (0x040 ≤ n && n ≤ 0x07F)

/-- Registers whose Write column is "None" (Table 6-1). -/
def sregReadOnly (n : Nat) : Bool := 0x006 ≤ n && n ≤ 0x00D

/-- Registers whose Write column is "Sup." (Table 6-1). -/
def sregWriteSup (n : Nat) : Bool :=
  (0x001 ≤ n && n ≤ 0x005) || n == 0x00E || n == 0x00F || n == 0x010 || n == 0x012 || (0x018 ≤ n && n ≤ 0x01E)

/-- Registers whose Read column is "Sup." (Table 6-1). -/
def sregReadSup (n : Nat) : Bool := 0x018 ≤ n && n ≤ 0x01B

def sregNum (f : SF) : Nat := bits f.imm32.toNat 0 12

def sMfsr (f : SF) : List EncErr :=
  sKinds .s .u .u f ++ errIf (!sregAssigned (sregNum f)) (encErr 0 .operandKind 32 43) ++
    zeroField 0 (bits f.imm32.toNat 12 20) 44 63

def sMtsr (f : SF) : List EncErr :=
  sKinds .u .s .u f ++ errIf (!sregAssigned (sregNum f) || sregReadOnly (sregNum f)) (encErr 0 .operandKind 32 43) ++
    zeroField 0 (bits f.imm32.toNat 12 20) 44 63

/-- `SEXT`: imm32 bits 31:6 are 0. -/
def sSext (f : SF) : List EncErr := sKinds .s .s .u f ++ zeroField 0 (bits f.imm32.toNat 6 26) 38 63

def rinjAct (f : SF) : Nat := bits f.imm32.toNat 12 2
def rinjClass (f : SF) : Nat := bits f.imm32.toNat 9 3
def rinjTarget (f : SF) : Nat := bits f.imm32.toNat 0 9

/-- `RINJ` (Table 3-8). DESIGN CHOICE: where d, b or the target must be 0 and is not, and where the table says only class E, the cause is 0x4
(an operand of the wrong kind) and not 0x3 (an unused field) (log entry 28). -/
def sRinj (f : SF) : List EncErr :=
  errIf (rinjClass f != 3 && f.d != 0) (encErr 0 .operandKind 8 13) ++
  errIf (rinjAct f == 2 && f.b != 0) (encErr 0 .operandKind 20 25) ++
  errIf (match rinjClass f with
    | 0 => decide (319 < rinjTarget f)
    | 1 => decide (63 < rinjTarget f)
    | 2 => decide (31 < rinjTarget f)
    | 3 => rinjTarget f != 0
    | _ => false) (encErr 0 .operandKind 32 40) ++
  atMost 0 (rinjClass f) 3 41 43 ++ atMost 0 (rinjAct f) 2 44 45 ++ zeroField 0 (bits f.imm32.toNat 14 18) 46 63

/-! ## Y slot (Table 5-10) -/

def YF.imm20 (f : YF) : Int := sext 20 f.arg.toNat
def YF.a (f : YF) : Nat := bits f.arg.toNat 0 6
def YF.b (f : YF) : Nat := bits f.arg.toNat 6 6
def YF.x (f : YF) : Nat := bits f.arg.toNat 12 8

/-- The immediate form: every bit of imm20 is an offset. -/
def yImm (_ : YF) : List EncErr := []

/-- `BRS`: conditions 0-5 (R166). -/
def yBrs (f : YF) : List EncErr := atMost 7 (YF.b f) 5 18 23

/-- Only a is used. -/
def yA (f : YF) : List EncErr := zeroField 7 (YF.b f) 18 23 ++ zeroField 7 (YF.x f) 24 31

/-- a and b are used, x is 0 (`WAITC`). -/
def yAB (f : YF) : List EncErr := zeroField 7 (YF.x f) 24 31

/-- No field but pred and neg. -/
def yNone (f : YF) : List EncErr := zeroField 7 (YF.a f) 12 17 ++ zeroField 7 (YF.b f) 18 23 ++ zeroField 7 (YF.x f) 24 31

/-- A body of 2 to 255 bundles (R168). -/
def yBody (f : YF) : List EncErr := errIf (decide (YF.x f < 2)) (encErr 7 .limits 24 31)

def yLoop (f : YF) : List EncErr := zeroField 7 (YF.b f) 18 23 ++ yBody f

def syncLevel (f : YF) : Nat := bits f.arg.toNat 18 2
def syncTimed (f : YF) : Bool := bit f.arg.toNat 17

/-- `SYNC` (R171): a is used by `.gang` and `.reach` only. -/
def ySync (f : YF) : List EncErr :=
  (if syncLevel f < 2 then zeroField 7 (YF.a f) 12 17 else []) ++ zeroField 7 (YF.b f) 18 23 ++
    zeroField 7 (bits f.arg.toNat 12 5) 24 28

def waithHandle (f : YF) : Nat := bits f.arg.toNat 15 5
def waithLevel (f : YF) : Nat := bits f.arg.toNat 13 2
def waithTrap (f : YF) : Bool := bit f.arg.toNat 12

/-- `WAITH` (R333). -/
def yWaith (f : YF) : List EncErr := zeroField 7 (bits f.arg.toNat 0 12) 12 23 ++ atMost 7 (waithLevel f) 2 25 26

def fenceKind (f : YF) : Nat := bits f.arg.toNat 0 2
def fenceScope (f : YF) : Nat := bits f.arg.toNat 2 3
def fenceC (f : YF) : Bool := bit f.arg.toNat 5

/-- `FENCE` (Table 2-3). -/
def yFence (f : YF) : List EncErr :=
  errIf (fenceKind f == 0) (encErr 7 .operandKind 12 13) ++ atMost 7 (fenceScope f) 4 14 16 ++
    zeroField 7 (bits f.arg.toNat 6 14) 18 31

/-- `YIELD` (Table 16-4). -/
def yYield (f : YF) : List EncErr :=
  zeroField 7 (YF.a f) 12 17 ++ zeroField 7 (YF.b f) 18 23 ++ zeroField 7 (bits f.arg.toNat 13 7) 25 31

/-- `SUSP` (Table 16-4). -/
def ySusp (f : YF) : List EncErr := zeroField 7 (bits f.arg.toNat 14 6) 26 31

/-- `SUSPG` (Table 16-4). -/
def ySuspg (f : YF) : List EncErr := zeroField 7 (bits f.arg.toNat 13 7) 25 31

/-- `TRAP` (R420). -/
def yTrap (f : YF) : List EncErr := zeroField 7 (YF.b f) 18 23 ++ zeroField 7 (bits f.arg.toNat 16 4) 28 31

/-- `BKPT` (R429). -/
def yBkpt (f : YF) : List EncErr := zeroField 7 (YF.a f) 12 17 ++ zeroField 7 (YF.b f) 18 23

end Sys2Proof.Check
end

