-- ==== Sys2Proof/Machine/Encoding.lean ====
section
/-! DEFINITION. The encoding checks of every instruction (R128); an event has no encoding. -/

namespace Sys2Proof

open Check in
/-- The conditions of R128 that hold of an instruction by itself. -/
def encErrs (i : Instr) : List EncErr :=
  match i with
  | .nop _ => []
  | .add f => sReg .s .s .s f
  | .sub f => sReg .s .s .s f
  | .mul f => sReg .s .s .s f
  | .mulhi f => sReg .s .s .s f
  | .mulhn f => sReg .s .s .s f
  | .divi f => sReg .s .s .s f
  | .divn f => sReg .s .s .s f
  | .remi f => sReg .s .s .s f
  | .remn f => sReg .s .s .s f
  | .and f => sReg .s .s .s f
  | .or f => sReg .s .s .s f
  | .xor f => sReg .s .s .s f
  | .andn f => sReg .s .s .s f
  | .shl f => sReg .s .s .s f
  | .shr f => sReg .s .s .s f
  | .sra f => sReg .s .s .s f
  | .rol f => sReg .s .s .s f
  | .mini f => sReg .s .s .s f
  | .maxi f => sReg .s .s .s f
  | .minn f => sReg .s .s .s f
  | .maxn f => sReg .s .s .s f
  | .adds f => sReg .s .s .s f
  | .subs f => sReg .s .s .s f
  | .bfx f => sReg .s .s .s f
  | .bfi f => sReg .s .s .s f
  | .cmp f => sReg .p .s .s f ++ sCc f
  | .sel f => sReg .s .s .s f
  | .addImmediate f => sImm .s .s f
  | .subImmediate f => sImm .s .s f
  | .mulImmediate f => sImm .s .s f
  | .mulhiImmediate f => sImm .s .s f
  | .mulhnImmediate f => sImm .s .s f
  | .diviImmediate f => sImm .s .s f
  | .divnImmediate f => sImm .s .s f
  | .remiImmediate f => sImm .s .s f
  | .remnImmediate f => sImm .s .s f
  | .andImmediate f => sImm .s .s f
  | .orImmediate f => sImm .s .s f
  | .xorImmediate f => sImm .s .s f
  | .andnImmediate f => sImm .s .s f
  | .shlImmediate f => sImm .s .s f
  | .shrImmediate f => sImm .s .s f
  | .sraImmediate f => sImm .s .s f
  | .rolImmediate f => sImm .s .s f
  | .miniImmediate f => sImm .s .s f
  | .maxiImmediate f => sImm .s .s f
  | .minnImmediate f => sImm .s .s f
  | .maxnImmediate f => sImm .s .s f
  | .addsImmediate f => sImm .s .s f
  | .subsImmediate f => sImm .s .s f
  | .bfxImmediate f => sImm .s .s f
  | .bfiImmediate f => sImm .s .s f
  | .cmpImmediate f => sImm .p .s f ++ sCc f
  | .selImmediate f => sImm .s .s f
  | .movi f => sImm .s .u f
  | .movhi f => sImm .s .u f
  | .clz f => sReg .s .s .u f
  | .ctz f => sReg .s .s .u f
  | .popc f => sReg .s .s .u f
  | .brev f => sReg .s .s .u f
  | .sext f => sSext f
  | .pand f => sReg .p .p .p f
  | .por f => sReg .p .p .p f
  | .pxor f => sReg .p .p .p f
  | .pandn f => sReg .p .p .p f
  | .pnot f => sReg .p .p .u f
  | .pcnt f => sReg .s .p .u f
  | .pfirst f => sReg .s .p .u f
  | .plast f => sReg .s .p .u f
  | .pfrom f => sReg .p .s .s f
  | .plen f => sReg .p .s .u f
  | .ptos f => sReg .s .p .s f
  | .mfsr f => sMfsr f
  | .mtsr f => sMtsr f
  | .rinj f => sRinj f
  | .vadd f => vArith f
  | .vsub f => vArith f
  | .vmul f => vArith f
  | .vfma f => vFma f
  | .vfms f => vFma f
  | .vfnma f => vFma f
  | .vmin f => vMinMax f
  | .vmax f => vMinMax f
  | .vminn f => vMinMax f
  | .vmaxn f => vMinMax f
  | .vabs f => vAbsNeg f
  | .vneg f => vAbsNeg f
  | .vabd f => vArith f
  | .vadds f => vInt2 f
  | .vsubs f => vInt2 f
  | .vmulh f => vInt2 f
  | .vdot4 f => vDot4 f
  | .vavg f => vInt2 f
  | .vclamp f => vClamp f
  | .vand f => vLogic f
  | .vor f => vLogic f
  | .vxor f => vLogic f
  | .vandn f => vLogic f
  | .vnot f => vLogic1 f
  | .vshl f => vInt2 f
  | .vshr f => vInt2 f
  | .vsra f => vInt2 f
  | .vrol f => vInt2 f
  | .vpopc f => vInt1 f
  | .vclz f => vInt1 f
  | .vcmp f => vCmp f
  | .vclass f => vClass f
  | .vsel f => vSel f
  | .vmov f => vLogic1 f
  | .vmovi f => vMovi f
  | .vext f => vExtIns .scalar .src f
  | .vins f => vExtIns .dst .scalar f
  | .vcvt f => vCvt f
  | .vqnt f => vQnt f
  | .vdqnt f => vDqnt f
  | .vpack f => vPack f
  | .vunpk f => vUnpk f
  | .vperm f => vPerm f
  | .vshuf f => vShuf f
  | .vslide f => vSlide f
  | .vbcast f => vBcast f
  | .vcomp f => vCompExpd f
  | .vexpd f => vCompExpd f
  | .vred f => vRed f
  | .vscan f => vScan f
  | .vsegscan f => vSegscan f
  | .vrec f => vRec f
  | .vmacw f => vMacw f
  | .zmovn f => zMovn f
  | .zmovw f => zMovw f
  | .vrcp f => vSfu1 f
  | .vrsq f => vSfu1 f
  | .vsqrt f => vSfu1Any f
  | .vdiv f => vSfu2Any f
  | .vexp2 f => vSfu1 f
  | .vlog2 f => vSfu1 f
  | .vexp f => vSfu1 f
  | .vtanh f => vSfu1 f
  | .vsigm f => vSfu1 f
  | .vsint f => vSfu1 f
  | .vcost f => vSfu1 f
  | .vrchk f => vRchk f
  | .mldb f => mLdb f
  | .mldbt f => mLdb f
  | .mma f => mMma f
  | .mmaz f => mMma f
  | .mmac f => mMma f
  | .mzero f => mZero f
  | .mzset f => mZset f
  | .mrowsum f => mRowsum f
  | .mzpc f => mZpc f
  | .mdrain f => mDrain f
  | .mzld f => mZld f
  | .mxsave f => mMx f
  | .mxrest f => mMx f
  | .vld f => lVld f
  | .vlds f => lVld f
  | .vldg f => lVldg f
  | .vldb f => lVld f
  | .lds f => lLds f
  | .gld f => lGld f
  | .gldv f => lGldv f
  | .pld f => lPld f
  | .ppop f => lPpop f
  | .ldtag f => lLdtag f
  | .gpref f => lGpref f
  | .vst f => tVst f
  | .vsts f => tVsts f
  | .vstx f => tVstx f
  | .sts f => tSts f
  | .gst f => tSts f
  | .gstv f => tGstv f
  | .pst f => tPst f
  | .aadd f => tAtomic ty3264 f
  | .aaddf f => tAtomic (fun t => t == 10 || t == 8) f
  | .amin f => tAtomic (fun t => ty3264 t || t == 10) f
  | .amax f => tAtomic (fun t => ty3264 t || t == 10) f
  | .aand f => tAtomic ty3264 f
  | .aor f => tAtomic ty3264 f
  | .axor f => tAtomic ty3264 f
  | .aswp f => tAtomic ty3264 f
  | .acas f => tAtomic ty3264 f
  | .ppush f => tPpush f
  | .peos f => tPeos f
  | .sttag f => tSttag f
  | .gflush f => tGflush f
  | .cloop f => cCloop f
  | .cbase f => cCbase f
  | .cgo f => cCgo f
  | .cstop f => cCstop f
  | .cquery f => cCquery f
  | .tbind f => cTbind f
  | .tunbind f => cTunbind f
  | .tflush f => cTflush f
  | .wcreate f => cWcreate f
  | .wfree f => cDA f
  | .wfence f => cHA 2 f
  | .wpost f => cHA 0 f
  | .wstart f => cHA 0 f
  | .wcompl f => cHA 0 f
  | .wdone f => cHA 0 f
  | .wlock f => cHA 1 f
  | .wunlock f => cHA 0 f
  | .wput f => cWput f
  | .wget f => cWput f
  | .wacc f => cWacc f
  | .wamo f => cWamo f
  | .wflush f => cWflush f
  | .wtest f => cWtest f
  | .hinit f => cHinit f
  | .htest f => cHtest f
  | .hread f => cHread f
  | .coll f => cColl f
  | .cinc f => cCinc f
  | .cread f => cDA f
  | .cset f => cCset f
  | .tspawn f => cTspawn f
  | .pbind f => cPbind f
  | .teffect f => cTeffect f
  | .caskdup f => cCaskdup f
  | .caskdisc f => cDA f
  | .caskq f => cDA f
  | .br f => yImm f
  | .brp f => yImm f
  | .brs f => yBrs f
  | .jr f => yA f
  | .call f => yImm f
  | .callr f => yA f
  | .ret f => yNone f
  | .loop f => yLoop f
  | .loopi f => yBody f
  | .sync f => ySync f
  | .waitc f => yAB f
  | .waith f => yWaith f
  | .fence f => yFence f
  | .yield f => yYield f
  | .susp f => ySusp f
  | .suspg f => ySuspg f
  | .rsm f => yA f
  | .trap f => yTrap f
  | .eret f => yNone f
  | .halt f => yNone f
  | .bkpt f => yBkpt f
  | .tileCycle => []
  | .freezeEnd => []
  | .l1Fill => []
  | .ownershipGrant => []
  | .revocation => []
  | .globalAtomicReturn => []
  | .translationWalkEnd => []
  | .fetchLineArrival => []
  | .copyEmission => []
  | .lateRowWrite => []
  | .writeQueueRowWrite => []
  | .delayedSourceRead => []
  | .putRequest => []
  | .getRequest => []
  | .accumulateRequest => []
  | .taggedAccumulate => []
  | .atomicRequest => []
  | .futureFill => []
  | .remoteApply => []
  | .getData => []
  | .atomicOldValue => []
  | .notices => []
  | .acknowledgementOnly => []
  | .post => []
  | .completion => []
  | .fenceArrival => []
  | .fenceDone => []
  | .lockRequest => []
  | .grant => []
  | .release => []
  | .completionNoticeSend => []
  | .fenceArrivalSend => []
  | .releaseSend => []
  | .chamberQueueTimeout => []
  | .windowEntryFreed => []
  | .fabricSlot => []
  | .standingFlitArrival => []
  | .scheduledFlitArrival => []
  | .syncResult => []
  | .epoch => []
  | .referenceLockLoss => []
  | .laneLock => []
  | .trainingTimeout => []
  | .alignment => []
  | .keyExchange => []
  | .tableActivation => []
  | .laneLockLoss => []
  | .linkFailureTimeout => []
  | .rekeyStart => []
  | .rekeyCommit => []
  | .launchNotice => []
  | .reservationRequest => []
  | .reservationGrant => []
  | .go => []
  | .chunkStaging => []
  | .streamStaging => []
  | .towpathPartial => []
  | .rootSlotCopy => []
  | .taskReady => []
  | .taskStart => []
  | .preemption => []
  | .reachJobStart => []
  | .partNotReady => []
  | .taskRetire => []
  | .redirectSwitch => []
  | .syncArrival => []
  | .syncRestart => []
  | .classMEvent => []
  | .powerMeasurement => []
  | .throttleEnd => []
  | .emergencyPowerStop => []
  | .suspensionDrainEnd => []
  | .caskWritten => []
  | .caskNoticeLanding => []
  | .rsmClaim => []
  | .restoreComplete => []
  | .caskdupCopyDone => []
  | .powerUp => []
  | .attestation => []
  | .apertureRead => []
  | .apertureWrite => []
  | .rootrec => []
  | .rootarm => []
  | .rpool => []
  | .eqbase => []
  | .eqsize => []
  | .rjstart => []
  | .rjctlArm => []
  | .rjctlDisarm => []
  | .hostRegisterWrite => []
  | .invalidatePage => []
  | .invalidateDomain => []
  | .invalidateAll => []
  | .debugStop => []
  | .debugResume => []
  | .readState => []
  | .writeState => []
  | .freeFailedTask => []
  | .linkBringUp => []
  | .loadShadowDepartureTable => []
  | .setCounter => []
  | .readCounter => []
  | .endReachJob => []
  | .hostCommandDone => []
  | .cmdOtherCode => []

end Sys2Proof
end

