-- ==== Sys2Proof/WellFormed.lean ====
section
/-! DEFINITION. When an instruction is one that the encoding admits. -/

namespace Sys2Proof

/-- A V1-only instruction stands in V1 (R128). -/
def Instr.v1Ok : Instr → Bool
  | .vrcp f | .vrsq f | .vsqrt f | .vdiv f | .vexp2 f | .vlog2 f | .vexp f | .vtanh f | .vsigm f | .vsint f | .vcost f => f.v1
  | _ => true

/-- No condition of R128 holds of the instruction by itself. -/
def Instr.wf (i : Instr) : Bool := (encErrs i).isEmpty && i.v1Ok

end Sys2Proof
end

