-- ==== Sys2Proof/Decode.lean ====
section
/-! DEFINITION. From bits to instructions, and back (Tables 5-1 to 5-12): slots, whole bundles, the rejections by name. -/

namespace Sys2Proof

/-! ## Fields of each slot -/

def SF.ofNat (w : Nat) : SF :=
  { d := BitVec.ofNat 6 (bits w 8 6), a := BitVec.ofNat 6 (bits w 14 6), b := BitVec.ofNat 6 (bits w 20 6),
    pq := BitVec.ofNat 5 (bits w 26 5), neg := bit w 31, imm32 := BitVec.ofNat 32 (bits w 32 32) }

def SF.word (op : Nat) (f : SF) : Nat :=
  op + f.d.toNat * 2 ^ 8 + f.a.toNat * 2 ^ 14 + f.b.toNat * 2 ^ 20 + f.pq.toNat * 2 ^ 26 +
    f.neg.toNat * 2 ^ 31 + f.imm32.toNat * 2 ^ 32

def VF.ofNat (v1 : Bool) (w : Nat) : VF :=
  { v1 := v1, d := BitVec.ofNat 9 (bits w 10 9), a := BitVec.ofNat 9 (bits w 19 9), b := BitVec.ofNat 9 (bits w 28 9),
    c := BitVec.ofNat 9 (bits w 37 9), pred := BitVec.ofNat 5 (bits w 46 5), type := BitVec.ofNat 5 (bits w 51 5),
    rnd := BitVec.ofNat 2 (bits w 56 2), sat := bit w 58, sub := BitVec.ofNat 3 (bits w 59 3),
    n := bit w 62, z := bit w 63, imm16 := BitVec.ofNat 16 (bits w 64 16) }

def VF.word (op : Nat) (f : VF) : Nat :=
  op + f.d.toNat * 2 ^ 10 + f.a.toNat * 2 ^ 19 + f.b.toNat * 2 ^ 28 + f.c.toNat * 2 ^ 37 +
    f.pred.toNat * 2 ^ 46 + f.type.toNat * 2 ^ 51 + f.rnd.toNat * 2 ^ 56 + f.sat.toNat * 2 ^ 58 + f.sub.toNat * 2 ^ 59 +
    f.n.toNat * 2 ^ 62 + f.z.toNat * 2 ^ 63 + f.imm16.toNat * 2 ^ 64

def MF.ofNat (w : Nat) : MF :=
  { z := BitVec.ofNat 3 (bits w 6 3), w := BitVec.ofNat 2 (bits w 9 2), abase := BitVec.ofNat 6 (bits w 11 6),
    rows := BitVec.ofNat 9 (bits w 17 9), pitch := BitVec.ofNat 8 (bits w 26 8), zrow0 := BitVec.ofNat 7 (bits w 34 7),
    sgnA := bit w 41, sgnB := bit w 42, sat := bit w 43,
    start := BitVec.ofNat 20 (bits w 44 20) }

def MF.word (op : Nat) (f : MF) : Nat :=
  op + f.z.toNat * 2 ^ 6 + f.w.toNat * 2 ^ 9 + f.abase.toNat * 2 ^ 11 + f.rows.toNat * 2 ^ 17 +
    f.pitch.toNat * 2 ^ 26 + f.zrow0.toNat * 2 ^ 34 + f.sgnA.toNat * 2 ^ 41 + f.sgnB.toNat * 2 ^ 42 + f.sat.toNat * 2 ^ 43 +
    f.start.toNat * 2 ^ 44

def LF.ofNat (w : Nat) : LF :=
  { d := BitVec.ofNat 9 (bits w 6 9), base := BitVec.ofNat 6 (bits w 15 6), imm15 := BitVec.ofNat 15 (bits w 21 15),
    type := BitVec.ofNat 5 (bits w 36 5), x := BitVec.ofNat 6 (bits w 41 6), pred := BitVec.ofNat 5 (bits w 47 5),
    tag := BitVec.ofNat 8 (bits w 52 8), tagchk := bit w 60, z := bit w 61,
    n := bit w 62, res := bit w 63 }

def LF.word (op : Nat) (f : LF) : Nat :=
  op + f.d.toNat * 2 ^ 6 + f.base.toNat * 2 ^ 15 + f.imm15.toNat * 2 ^ 21 + f.type.toNat * 2 ^ 36 +
    f.x.toNat * 2 ^ 41 + f.pred.toNat * 2 ^ 47 + f.tag.toNat * 2 ^ 52 + f.tagchk.toNat * 2 ^ 60 + f.z.toNat * 2 ^ 61 +
    f.n.toNat * 2 ^ 62 + f.res.toNat * 2 ^ 63

def TF.ofNat (w : Nat) : TF :=
  { data := BitVec.ofNat 9 (bits w 6 9), base := BitVec.ofNat 6 (bits w 15 6), imm11 := BitVec.ofNat 11 (bits w 21 11),
    type := BitVec.ofNat 5 (bits w 32 5), pred := BitVec.ofNat 5 (bits w 37 5), sc := BitVec.ofNat 3 (bits w 42 3),
    hi := BitVec.ofNat 3 (bits w 45 3) }

def TF.word (op : Nat) (f : TF) : Nat :=
  op + f.data.toNat * 2 ^ 6 + f.base.toNat * 2 ^ 15 + f.imm11.toNat * 2 ^ 21 + f.type.toNat * 2 ^ 32 +
    f.pred.toNat * 2 ^ 37 + f.sc.toNat * 2 ^ 42 + f.hi.toNat * 2 ^ 45

def CF.ofNat (w : Nat) : CF :=
  { pred := BitVec.ofNat 5 (bits w 7 5), neg := bit w 12, d := BitVec.ofNat 6 (bits w 13 6),
    a := BitVec.ofNat 6 (bits w 19 6), b := BitVec.ofNat 6 (bits w 25 6), c := BitVec.ofNat 6 (bits w 31 6),
    x := BitVec.ofNat 7 (bits w 37 7), imm20 := BitVec.ofNat 20 (bits w 44 20) }

def CF.word (op : Nat) (f : CF) : Nat :=
  op + f.pred.toNat * 2 ^ 7 + f.neg.toNat * 2 ^ 12 + f.d.toNat * 2 ^ 13 + f.a.toNat * 2 ^ 19 +
    f.b.toNat * 2 ^ 25 + f.c.toNat * 2 ^ 31 + f.x.toNat * 2 ^ 37 + f.imm20.toNat * 2 ^ 44

def YF.ofNat (w : Nat) : YF :=
  { pred := BitVec.ofNat 5 (bits w 6 5), neg := bit w 11, arg := BitVec.ofNat 20 (bits w 12 20) }

def YF.word (op : Nat) (f : YF) : Nat :=
  op + f.pred.toNat * 2 ^ 6 + f.neg.toNat * 2 ^ 11 + f.arg.toNat * 2 ^ 12

/-! ## Opcodes (Table 5-12) -/

def opS (op : Nat) (f : SF) : Option Instr :=
  match op with
  | 0x01 => some (.add f)
  | 0x02 => some (.sub f)
  | 0x03 => some (.mul f)
  | 0x04 => some (.mulhi f)
  | 0x05 => some (.mulhn f)
  | 0x06 => some (.divi f)
  | 0x07 => some (.divn f)
  | 0x08 => some (.remi f)
  | 0x09 => some (.remn f)
  | 0x0A => some (.and f)
  | 0x0B => some (.or f)
  | 0x0C => some (.xor f)
  | 0x0D => some (.andn f)
  | 0x0E => some (.shl f)
  | 0x0F => some (.shr f)
  | 0x10 => some (.sra f)
  | 0x11 => some (.rol f)
  | 0x12 => some (.mini f)
  | 0x13 => some (.maxi f)
  | 0x14 => some (.minn f)
  | 0x15 => some (.maxn f)
  | 0x16 => some (.adds f)
  | 0x17 => some (.subs f)
  | 0x18 => some (.bfx f)
  | 0x19 => some (.bfi f)
  | 0x1A => some (.cmp f)
  | 0x1B => some (.sel f)
  | 0x20 => some (.movi f)
  | 0x21 => some (.movhi f)
  | 0x22 => some (.clz f)
  | 0x23 => some (.ctz f)
  | 0x24 => some (.popc f)
  | 0x25 => some (.brev f)
  | 0x26 => some (.sext f)
  | 0x28 => some (.pand f)
  | 0x29 => some (.por f)
  | 0x2A => some (.pxor f)
  | 0x2B => some (.pandn f)
  | 0x2C => some (.pnot f)
  | 0x2D => some (.pcnt f)
  | 0x2E => some (.pfirst f)
  | 0x2F => some (.plast f)
  | 0x30 => some (.pfrom f)
  | 0x31 => some (.plen f)
  | 0x32 => some (.ptos f)
  | 0x38 => some (.mfsr f)
  | 0x39 => some (.mtsr f)
  | 0x3B => some (.rinj f)
  | 0x81 => some (.addImmediate f)
  | 0x82 => some (.subImmediate f)
  | 0x83 => some (.mulImmediate f)
  | 0x84 => some (.mulhiImmediate f)
  | 0x85 => some (.mulhnImmediate f)
  | 0x86 => some (.diviImmediate f)
  | 0x87 => some (.divnImmediate f)
  | 0x88 => some (.remiImmediate f)
  | 0x89 => some (.remnImmediate f)
  | 0x8A => some (.andImmediate f)
  | 0x8B => some (.orImmediate f)
  | 0x8C => some (.xorImmediate f)
  | 0x8D => some (.andnImmediate f)
  | 0x8E => some (.shlImmediate f)
  | 0x8F => some (.shrImmediate f)
  | 0x90 => some (.sraImmediate f)
  | 0x91 => some (.rolImmediate f)
  | 0x92 => some (.miniImmediate f)
  | 0x93 => some (.maxiImmediate f)
  | 0x94 => some (.minnImmediate f)
  | 0x95 => some (.maxnImmediate f)
  | 0x96 => some (.addsImmediate f)
  | 0x97 => some (.subsImmediate f)
  | 0x98 => some (.bfxImmediate f)
  | 0x99 => some (.bfiImmediate f)
  | 0x9A => some (.cmpImmediate f)
  | 0x9B => some (.selImmediate f)
  | _ => none

def opV (op : Nat) (f : VF) : Option Instr :=
  match op with
  | 0x001 => some (.vadd f)
  | 0x002 => some (.vsub f)
  | 0x003 => some (.vmul f)
  | 0x004 => some (.vfma f)
  | 0x005 => some (.vfms f)
  | 0x006 => some (.vfnma f)
  | 0x007 => some (.vmin f)
  | 0x008 => some (.vmax f)
  | 0x009 => some (.vminn f)
  | 0x00A => some (.vmaxn f)
  | 0x00B => some (.vabs f)
  | 0x00C => some (.vneg f)
  | 0x00D => some (.vabd f)
  | 0x00E => some (.vadds f)
  | 0x00F => some (.vsubs f)
  | 0x010 => some (.vmulh f)
  | 0x011 => some (.vdot4 f)
  | 0x012 => some (.vavg f)
  | 0x013 => some (.vclamp f)
  | 0x020 => some (.vand f)
  | 0x021 => some (.vor f)
  | 0x022 => some (.vxor f)
  | 0x023 => some (.vandn f)
  | 0x024 => some (.vnot f)
  | 0x025 => some (.vshl f)
  | 0x026 => some (.vshr f)
  | 0x027 => some (.vsra f)
  | 0x028 => some (.vrol f)
  | 0x029 => some (.vpopc f)
  | 0x02A => some (.vclz f)
  | 0x030 => some (.vcmp f)
  | 0x031 => some (.vclass f)
  | 0x032 => some (.vsel f)
  | 0x040 => some (.vmov f)
  | 0x041 => some (.vmovi f)
  | 0x042 => some (.vext f)
  | 0x043 => some (.vins f)
  | 0x044 => some (.vcvt f)
  | 0x045 => some (.vqnt f)
  | 0x046 => some (.vdqnt f)
  | 0x047 => some (.vpack f)
  | 0x048 => some (.vunpk f)
  | 0x050 => some (.vperm f)
  | 0x051 => some (.vshuf f)
  | 0x052 => some (.vslide f)
  | 0x053 => some (.vbcast f)
  | 0x054 => some (.vcomp f)
  | 0x055 => some (.vexpd f)
  | 0x060 => some (.vred f)
  | 0x061 => some (.vscan f)
  | 0x062 => some (.vsegscan f)
  | 0x063 => some (.vrec f)
  | 0x070 => some (.vmacw f)
  | 0x071 => some (.zmovn f)
  | 0x072 => some (.zmovw f)
  | 0x080 => some (.vrcp f)
  | 0x081 => some (.vrsq f)
  | 0x082 => some (.vsqrt f)
  | 0x083 => some (.vdiv f)
  | 0x084 => some (.vexp2 f)
  | 0x085 => some (.vlog2 f)
  | 0x086 => some (.vexp f)
  | 0x087 => some (.vtanh f)
  | 0x088 => some (.vsigm f)
  | 0x089 => some (.vsint f)
  | 0x08A => some (.vcost f)
  | 0x090 => some (.vrchk f)
  | _ => none

def opM (op : Nat) (f : MF) : Option Instr :=
  match op with
  | 0x01 => some (.mldb f)
  | 0x02 => some (.mma f)
  | 0x03 => some (.mmaz f)
  | 0x04 => some (.mmac f)
  | 0x05 => some (.mzero f)
  | 0x06 => some (.mzset f)
  | 0x07 => some (.mrowsum f)
  | 0x08 => some (.mzpc f)
  | 0x09 => some (.mdrain f)
  | 0x0A => some (.mzld f)
  | 0x0B => some (.mxsave f)
  | 0x0C => some (.mxrest f)
  | 0x0D => some (.mldbt f)
  | _ => none

def opL (op : Nat) (f : LF) : Option Instr :=
  match op with
  | 0x01 => some (.vld f)
  | 0x02 => some (.vlds f)
  | 0x03 => some (.vldg f)
  | 0x04 => some (.vldb f)
  | 0x05 => some (.lds f)
  | 0x06 => some (.gld f)
  | 0x07 => some (.gldv f)
  | 0x08 => some (.pld f)
  | 0x09 => some (.ppop f)
  | 0x0A => some (.ldtag f)
  | 0x0B => some (.gpref f)
  | _ => none

def opT (op : Nat) (f : TF) : Option Instr :=
  match op with
  | 0x01 => some (.vst f)
  | 0x02 => some (.vsts f)
  | 0x03 => some (.vstx f)
  | 0x04 => some (.sts f)
  | 0x05 => some (.gst f)
  | 0x06 => some (.gstv f)
  | 0x07 => some (.pst f)
  | 0x08 => some (.aadd f)
  | 0x09 => some (.aaddf f)
  | 0x0A => some (.amin f)
  | 0x0B => some (.amax f)
  | 0x0C => some (.aand f)
  | 0x0D => some (.aor f)
  | 0x0E => some (.axor f)
  | 0x0F => some (.aswp f)
  | 0x10 => some (.acas f)
  | 0x11 => some (.ppush f)
  | 0x12 => some (.peos f)
  | 0x13 => some (.sttag f)
  | 0x14 => some (.gflush f)
  | _ => none

def opC (op : Nat) (f : CF) : Option Instr :=
  match op with
  | 0x01 => some (.cloop f)
  | 0x02 => some (.cbase f)
  | 0x03 => some (.cgo f)
  | 0x04 => some (.cstop f)
  | 0x05 => some (.cquery f)
  | 0x08 => some (.tbind f)
  | 0x09 => some (.tunbind f)
  | 0x0A => some (.tflush f)
  | 0x10 => some (.wcreate f)
  | 0x11 => some (.wfree f)
  | 0x12 => some (.wfence f)
  | 0x13 => some (.wpost f)
  | 0x14 => some (.wstart f)
  | 0x15 => some (.wcompl f)
  | 0x16 => some (.wdone f)
  | 0x17 => some (.wlock f)
  | 0x18 => some (.wunlock f)
  | 0x19 => some (.wput f)
  | 0x1A => some (.wget f)
  | 0x1B => some (.wacc f)
  | 0x1C => some (.wamo f)
  | 0x1D => some (.wflush f)
  | 0x1E => some (.wtest f)
  | 0x20 => some (.hinit f)
  | 0x21 => some (.htest f)
  | 0x22 => some (.hread f)
  | 0x28 => some (.coll f)
  | 0x29 => some (.cinc f)
  | 0x2A => some (.cread f)
  | 0x2B => some (.cset f)
  | 0x30 => some (.tspawn f)
  | 0x31 => some (.pbind f)
  | 0x32 => some (.teffect f)
  | 0x38 => some (.caskdup f)
  | 0x39 => some (.caskdisc f)
  | 0x3A => some (.caskq f)
  | _ => none

def opY (op : Nat) (f : YF) : Option Instr :=
  match op with
  | 0x01 => some (.br f)
  | 0x02 => some (.brp f)
  | 0x03 => some (.brs f)
  | 0x04 => some (.jr f)
  | 0x05 => some (.call f)
  | 0x06 => some (.callr f)
  | 0x07 => some (.ret f)
  | 0x08 => some (.loop f)
  | 0x09 => some (.loopi f)
  | 0x0A => some (.sync f)
  | 0x0B => some (.waitc f)
  | 0x0C => some (.waith f)
  | 0x0D => some (.fence f)
  | 0x0E => some (.yield f)
  | 0x0F => some (.susp f)
  | 0x10 => some (.suspg f)
  | 0x11 => some (.rsm f)
  | 0x12 => some (.trap f)
  | 0x13 => some (.eret f)
  | 0x14 => some (.halt f)
  | 0x15 => some (.bkpt f)
  | _ => none

/-! ## Decoding a slot -/

/-- The opcodes of the special-function unit (Table 5-12). -/
def v1Only (op : Nat) : Bool := 0x080 ≤ op && op ≤ 0x08A

/-- The instruction of a slot by its opcode, with its fields; `none` for an opcode that is not listed. -/
def slotInstr (k w : Nat) : Option Instr :=
  match k with
  | 0 => opS (bits w 0 8) (SF.ofNat w)
  | 1 => opV (bits w 0 10) (VF.ofNat false w)
  | 2 => opV (bits w 0 10) (VF.ofNat true w)
  | 3 => opM (bits w 0 6) (MF.ofNat w)
  | 4 => opL (bits w 0 6) (LF.ofNat w)
  | 5 => opT (bits w 0 6) (TF.ofNat w)
  | 6 => opC (bits w 0 7) (CF.ofNat w)
  | 7 => opY (bits w 0 6) (YF.ofNat w)
  | _ => none

/-- The fields of a slot above its opcode: lowest bit and width (Tables 5-3 to 5-10). -/
def slotFields (k : Nat) : List (Nat × Nat) :=
  match k with
  | 0 => [(8, 6), (14, 6), (20, 6), (26, 5), (31, 1), (32, 32)]
  | 1 => [(10, 9), (19, 9), (28, 9), (37, 9), (46, 5), (51, 5), (56, 2), (58, 1), (59, 3), (62, 1), (63, 1), (64, 16)]
  | 2 => [(10, 9), (19, 9), (28, 9), (37, 9), (46, 5), (51, 5), (56, 2), (58, 1), (59, 3), (62, 1), (63, 1), (64, 16)]
  | 3 => [(6, 3), (9, 2), (11, 6), (17, 9), (26, 8), (34, 7), (41, 1), (42, 1), (43, 1), (44, 20)]
  | 4 => [(6, 9), (15, 6), (21, 15), (36, 5), (41, 6), (47, 5), (52, 8), (60, 1), (61, 1), (62, 1), (63, 1)]
  | 5 => [(6, 9), (15, 6), (21, 11), (32, 5), (37, 5), (42, 3), (45, 3)]
  | 6 => [(7, 5), (12, 1), (13, 6), (19, 6), (25, 6), (31, 6), (37, 7), (44, 20)]
  | 7 => [(6, 5), (11, 1), (12, 20)]
  | _ => []

/-- Decodes slot `k` whose bits are `w`: the instruction, or the conditions of R128 that its encoding meets. -/
def decodeSlot (k w : Nat) : Except (List EncErr) Instr :=
  if bits w 0 (opWidth k) = 0 then
    if h : k < 8 then
      match (slotFields k).filter (fun p => bits w p.1 p.2 != 0) with
      | [] => .ok (.nop ⟨k, h⟩)
      | ps => .error (ps.map fun p => encErr k .reservedField p.1 (p.1 + p.2 - 1))
    else .error []
  else
    match slotInstr k w with
    | none => .error [encErr k .notInstruction 0 (opWidth k - 1)]
    | some i =>
      if k = 1 ∧ v1Only (bits w 0 10) then .error (encErr k .v1Only 0 9 :: encErrs i)
      else if encErrs i = [] then .ok i else .error (encErrs i)

/-! ## Decoding a bundle -/

/-- Header fields (Table 5-2). -/
structure Header where
  ver : Nat
  brk : Bool
  yld : Bool
  rpt : Nat
deriving DecidableEq, Repr

def Header.ofNat (w : Nat) : Header := { ver := bits w 12 4, brk := bit w 9, yld := bit w 8, rpt := bits w 0 8 }

/-- Header conditions: VER is 1 and bits 11:10 are 0 (Table 5-2). -/
def headerErrs (w : Nat) : List EncErr :=
  errIf (bits w 10 2 != 0) ⟨.header, 8, 10, 11⟩ ++ errIf (bits w 12 4 != 1) ⟨.header, 8, 12, 15⟩

/-- The bits of slot `k` of a bundle (Table 5-1). -/
def slotBits (b k : Nat) : Nat := bits b (slotBase k) (slotWidth k)

/-- The eight slots of a bundle: what decodes. -/
def bundleSlots (b : Nat) : List (Except (List EncErr) Instr) := (List.range 8).map fun k => decodeSlot k (slotBits b k)

/-- An L- or T-slot instruction other than the NOP (R82). -/
def isMemSlot : Nat → Nat → Bool := fun k w => (k == 4 || k == 5) && w != 0

/-- `RINJ` of class 3 together with an L- or T-slot instruction (R82). -/
def comboErrs (b : Nat) : List EncErr :=
  let s := slotBits b 0
  errIf (bits s 0 8 == 0x3B && bits s 41 3 == 3 && (isMemSlot 4 (slotBits b 4) || isMemSlot 5 (slotBits b 5)))
    ⟨.slotCombination, 9, 0, 511⟩

/-- Every condition of R128 that a bundle meets by its bits alone. -/
def bundleErrs (b : Nat) : List EncErr :=
  comboErrs b ++ headerErrs (bits b 0 16) ++
    (bundleSlots b).flatMap fun r => match r with | .ok _ => [] | .error es => es

/-- The instructions of a bundle in slot order. -/
def bundleInstrs (b : Nat) : List Instr :=
  (bundleSlots b).filterMap fun r => match r with | .ok i => some i | .error _ => none

/-! ## Encoding -/

/-- The slot and the word of an instruction; `none` for an event. -/
def encode (i : Instr) : Option (Nat × Nat) :=
  match i with
  | .nop k => some (k.val, 0)
  | .add f => some (0, SF.word 0x01 f)
  | .sub f => some (0, SF.word 0x02 f)
  | .mul f => some (0, SF.word 0x03 f)
  | .mulhi f => some (0, SF.word 0x04 f)
  | .mulhn f => some (0, SF.word 0x05 f)
  | .divi f => some (0, SF.word 0x06 f)
  | .divn f => some (0, SF.word 0x07 f)
  | .remi f => some (0, SF.word 0x08 f)
  | .remn f => some (0, SF.word 0x09 f)
  | .and f => some (0, SF.word 0x0A f)
  | .or f => some (0, SF.word 0x0B f)
  | .xor f => some (0, SF.word 0x0C f)
  | .andn f => some (0, SF.word 0x0D f)
  | .shl f => some (0, SF.word 0x0E f)
  | .shr f => some (0, SF.word 0x0F f)
  | .sra f => some (0, SF.word 0x10 f)
  | .rol f => some (0, SF.word 0x11 f)
  | .mini f => some (0, SF.word 0x12 f)
  | .maxi f => some (0, SF.word 0x13 f)
  | .minn f => some (0, SF.word 0x14 f)
  | .maxn f => some (0, SF.word 0x15 f)
  | .adds f => some (0, SF.word 0x16 f)
  | .subs f => some (0, SF.word 0x17 f)
  | .bfx f => some (0, SF.word 0x18 f)
  | .bfi f => some (0, SF.word 0x19 f)
  | .cmp f => some (0, SF.word 0x1A f)
  | .sel f => some (0, SF.word 0x1B f)
  | .addImmediate f => some (0, SF.word 0x81 f)
  | .subImmediate f => some (0, SF.word 0x82 f)
  | .mulImmediate f => some (0, SF.word 0x83 f)
  | .mulhiImmediate f => some (0, SF.word 0x84 f)
  | .mulhnImmediate f => some (0, SF.word 0x85 f)
  | .diviImmediate f => some (0, SF.word 0x86 f)
  | .divnImmediate f => some (0, SF.word 0x87 f)
  | .remiImmediate f => some (0, SF.word 0x88 f)
  | .remnImmediate f => some (0, SF.word 0x89 f)
  | .andImmediate f => some (0, SF.word 0x8A f)
  | .orImmediate f => some (0, SF.word 0x8B f)
  | .xorImmediate f => some (0, SF.word 0x8C f)
  | .andnImmediate f => some (0, SF.word 0x8D f)
  | .shlImmediate f => some (0, SF.word 0x8E f)
  | .shrImmediate f => some (0, SF.word 0x8F f)
  | .sraImmediate f => some (0, SF.word 0x90 f)
  | .rolImmediate f => some (0, SF.word 0x91 f)
  | .miniImmediate f => some (0, SF.word 0x92 f)
  | .maxiImmediate f => some (0, SF.word 0x93 f)
  | .minnImmediate f => some (0, SF.word 0x94 f)
  | .maxnImmediate f => some (0, SF.word 0x95 f)
  | .addsImmediate f => some (0, SF.word 0x96 f)
  | .subsImmediate f => some (0, SF.word 0x97 f)
  | .bfxImmediate f => some (0, SF.word 0x98 f)
  | .bfiImmediate f => some (0, SF.word 0x99 f)
  | .cmpImmediate f => some (0, SF.word 0x9A f)
  | .selImmediate f => some (0, SF.word 0x9B f)
  | .movi f => some (0, SF.word 0x20 f)
  | .movhi f => some (0, SF.word 0x21 f)
  | .clz f => some (0, SF.word 0x22 f)
  | .ctz f => some (0, SF.word 0x23 f)
  | .popc f => some (0, SF.word 0x24 f)
  | .brev f => some (0, SF.word 0x25 f)
  | .sext f => some (0, SF.word 0x26 f)
  | .pand f => some (0, SF.word 0x28 f)
  | .por f => some (0, SF.word 0x29 f)
  | .pxor f => some (0, SF.word 0x2A f)
  | .pandn f => some (0, SF.word 0x2B f)
  | .pnot f => some (0, SF.word 0x2C f)
  | .pcnt f => some (0, SF.word 0x2D f)
  | .pfirst f => some (0, SF.word 0x2E f)
  | .plast f => some (0, SF.word 0x2F f)
  | .pfrom f => some (0, SF.word 0x30 f)
  | .plen f => some (0, SF.word 0x31 f)
  | .ptos f => some (0, SF.word 0x32 f)
  | .mfsr f => some (0, SF.word 0x38 f)
  | .mtsr f => some (0, SF.word 0x39 f)
  | .rinj f => some (0, SF.word 0x3B f)
  | .vadd f => some (if f.v1 then 2 else 1, VF.word 0x001 f)
  | .vsub f => some (if f.v1 then 2 else 1, VF.word 0x002 f)
  | .vmul f => some (if f.v1 then 2 else 1, VF.word 0x003 f)
  | .vfma f => some (if f.v1 then 2 else 1, VF.word 0x004 f)
  | .vfms f => some (if f.v1 then 2 else 1, VF.word 0x005 f)
  | .vfnma f => some (if f.v1 then 2 else 1, VF.word 0x006 f)
  | .vmin f => some (if f.v1 then 2 else 1, VF.word 0x007 f)
  | .vmax f => some (if f.v1 then 2 else 1, VF.word 0x008 f)
  | .vminn f => some (if f.v1 then 2 else 1, VF.word 0x009 f)
  | .vmaxn f => some (if f.v1 then 2 else 1, VF.word 0x00A f)
  | .vabs f => some (if f.v1 then 2 else 1, VF.word 0x00B f)
  | .vneg f => some (if f.v1 then 2 else 1, VF.word 0x00C f)
  | .vabd f => some (if f.v1 then 2 else 1, VF.word 0x00D f)
  | .vadds f => some (if f.v1 then 2 else 1, VF.word 0x00E f)
  | .vsubs f => some (if f.v1 then 2 else 1, VF.word 0x00F f)
  | .vmulh f => some (if f.v1 then 2 else 1, VF.word 0x010 f)
  | .vdot4 f => some (if f.v1 then 2 else 1, VF.word 0x011 f)
  | .vavg f => some (if f.v1 then 2 else 1, VF.word 0x012 f)
  | .vclamp f => some (if f.v1 then 2 else 1, VF.word 0x013 f)
  | .vand f => some (if f.v1 then 2 else 1, VF.word 0x020 f)
  | .vor f => some (if f.v1 then 2 else 1, VF.word 0x021 f)
  | .vxor f => some (if f.v1 then 2 else 1, VF.word 0x022 f)
  | .vandn f => some (if f.v1 then 2 else 1, VF.word 0x023 f)
  | .vnot f => some (if f.v1 then 2 else 1, VF.word 0x024 f)
  | .vshl f => some (if f.v1 then 2 else 1, VF.word 0x025 f)
  | .vshr f => some (if f.v1 then 2 else 1, VF.word 0x026 f)
  | .vsra f => some (if f.v1 then 2 else 1, VF.word 0x027 f)
  | .vrol f => some (if f.v1 then 2 else 1, VF.word 0x028 f)
  | .vpopc f => some (if f.v1 then 2 else 1, VF.word 0x029 f)
  | .vclz f => some (if f.v1 then 2 else 1, VF.word 0x02A f)
  | .vcmp f => some (if f.v1 then 2 else 1, VF.word 0x030 f)
  | .vclass f => some (if f.v1 then 2 else 1, VF.word 0x031 f)
  | .vsel f => some (if f.v1 then 2 else 1, VF.word 0x032 f)
  | .vmov f => some (if f.v1 then 2 else 1, VF.word 0x040 f)
  | .vmovi f => some (if f.v1 then 2 else 1, VF.word 0x041 f)
  | .vext f => some (if f.v1 then 2 else 1, VF.word 0x042 f)
  | .vins f => some (if f.v1 then 2 else 1, VF.word 0x043 f)
  | .vcvt f => some (if f.v1 then 2 else 1, VF.word 0x044 f)
  | .vqnt f => some (if f.v1 then 2 else 1, VF.word 0x045 f)
  | .vdqnt f => some (if f.v1 then 2 else 1, VF.word 0x046 f)
  | .vpack f => some (if f.v1 then 2 else 1, VF.word 0x047 f)
  | .vunpk f => some (if f.v1 then 2 else 1, VF.word 0x048 f)
  | .vperm f => some (if f.v1 then 2 else 1, VF.word 0x050 f)
  | .vshuf f => some (if f.v1 then 2 else 1, VF.word 0x051 f)
  | .vslide f => some (if f.v1 then 2 else 1, VF.word 0x052 f)
  | .vbcast f => some (if f.v1 then 2 else 1, VF.word 0x053 f)
  | .vcomp f => some (if f.v1 then 2 else 1, VF.word 0x054 f)
  | .vexpd f => some (if f.v1 then 2 else 1, VF.word 0x055 f)
  | .vred f => some (if f.v1 then 2 else 1, VF.word 0x060 f)
  | .vscan f => some (if f.v1 then 2 else 1, VF.word 0x061 f)
  | .vsegscan f => some (if f.v1 then 2 else 1, VF.word 0x062 f)
  | .vrec f => some (if f.v1 then 2 else 1, VF.word 0x063 f)
  | .vmacw f => some (if f.v1 then 2 else 1, VF.word 0x070 f)
  | .zmovn f => some (if f.v1 then 2 else 1, VF.word 0x071 f)
  | .zmovw f => some (if f.v1 then 2 else 1, VF.word 0x072 f)
  | .vrcp f => some (if f.v1 then 2 else 1, VF.word 0x080 f)
  | .vrsq f => some (if f.v1 then 2 else 1, VF.word 0x081 f)
  | .vsqrt f => some (if f.v1 then 2 else 1, VF.word 0x082 f)
  | .vdiv f => some (if f.v1 then 2 else 1, VF.word 0x083 f)
  | .vexp2 f => some (if f.v1 then 2 else 1, VF.word 0x084 f)
  | .vlog2 f => some (if f.v1 then 2 else 1, VF.word 0x085 f)
  | .vexp f => some (if f.v1 then 2 else 1, VF.word 0x086 f)
  | .vtanh f => some (if f.v1 then 2 else 1, VF.word 0x087 f)
  | .vsigm f => some (if f.v1 then 2 else 1, VF.word 0x088 f)
  | .vsint f => some (if f.v1 then 2 else 1, VF.word 0x089 f)
  | .vcost f => some (if f.v1 then 2 else 1, VF.word 0x08A f)
  | .vrchk f => some (if f.v1 then 2 else 1, VF.word 0x090 f)
  | .mldb f => some (3, MF.word 0x01 f)
  | .mldbt f => some (3, MF.word 0x0D f)
  | .mma f => some (3, MF.word 0x02 f)
  | .mmaz f => some (3, MF.word 0x03 f)
  | .mmac f => some (3, MF.word 0x04 f)
  | .mzero f => some (3, MF.word 0x05 f)
  | .mzset f => some (3, MF.word 0x06 f)
  | .mrowsum f => some (3, MF.word 0x07 f)
  | .mzpc f => some (3, MF.word 0x08 f)
  | .mdrain f => some (3, MF.word 0x09 f)
  | .mzld f => some (3, MF.word 0x0A f)
  | .mxsave f => some (3, MF.word 0x0B f)
  | .mxrest f => some (3, MF.word 0x0C f)
  | .vld f => some (4, LF.word 0x01 f)
  | .vlds f => some (4, LF.word 0x02 f)
  | .vldg f => some (4, LF.word 0x03 f)
  | .vldb f => some (4, LF.word 0x04 f)
  | .lds f => some (4, LF.word 0x05 f)
  | .gld f => some (4, LF.word 0x06 f)
  | .gldv f => some (4, LF.word 0x07 f)
  | .pld f => some (4, LF.word 0x08 f)
  | .ppop f => some (4, LF.word 0x09 f)
  | .ldtag f => some (4, LF.word 0x0A f)
  | .gpref f => some (4, LF.word 0x0B f)
  | .vst f => some (5, TF.word 0x01 f)
  | .vsts f => some (5, TF.word 0x02 f)
  | .vstx f => some (5, TF.word 0x03 f)
  | .sts f => some (5, TF.word 0x04 f)
  | .gst f => some (5, TF.word 0x05 f)
  | .gstv f => some (5, TF.word 0x06 f)
  | .pst f => some (5, TF.word 0x07 f)
  | .aadd f => some (5, TF.word 0x08 f)
  | .aaddf f => some (5, TF.word 0x09 f)
  | .amin f => some (5, TF.word 0x0A f)
  | .amax f => some (5, TF.word 0x0B f)
  | .aand f => some (5, TF.word 0x0C f)
  | .aor f => some (5, TF.word 0x0D f)
  | .axor f => some (5, TF.word 0x0E f)
  | .aswp f => some (5, TF.word 0x0F f)
  | .acas f => some (5, TF.word 0x10 f)
  | .ppush f => some (5, TF.word 0x11 f)
  | .peos f => some (5, TF.word 0x12 f)
  | .sttag f => some (5, TF.word 0x13 f)
  | .gflush f => some (5, TF.word 0x14 f)
  | .cloop f => some (6, CF.word 0x01 f)
  | .cbase f => some (6, CF.word 0x02 f)
  | .cgo f => some (6, CF.word 0x03 f)
  | .cstop f => some (6, CF.word 0x04 f)
  | .cquery f => some (6, CF.word 0x05 f)
  | .tbind f => some (6, CF.word 0x08 f)
  | .tunbind f => some (6, CF.word 0x09 f)
  | .tflush f => some (6, CF.word 0x0A f)
  | .wcreate f => some (6, CF.word 0x10 f)
  | .wfree f => some (6, CF.word 0x11 f)
  | .wfence f => some (6, CF.word 0x12 f)
  | .wpost f => some (6, CF.word 0x13 f)
  | .wstart f => some (6, CF.word 0x14 f)
  | .wcompl f => some (6, CF.word 0x15 f)
  | .wdone f => some (6, CF.word 0x16 f)
  | .wlock f => some (6, CF.word 0x17 f)
  | .wunlock f => some (6, CF.word 0x18 f)
  | .wput f => some (6, CF.word 0x19 f)
  | .wget f => some (6, CF.word 0x1A f)
  | .wacc f => some (6, CF.word 0x1B f)
  | .wamo f => some (6, CF.word 0x1C f)
  | .wflush f => some (6, CF.word 0x1D f)
  | .wtest f => some (6, CF.word 0x1E f)
  | .hinit f => some (6, CF.word 0x20 f)
  | .htest f => some (6, CF.word 0x21 f)
  | .hread f => some (6, CF.word 0x22 f)
  | .coll f => some (6, CF.word 0x28 f)
  | .cinc f => some (6, CF.word 0x29 f)
  | .cread f => some (6, CF.word 0x2A f)
  | .cset f => some (6, CF.word 0x2B f)
  | .tspawn f => some (6, CF.word 0x30 f)
  | .pbind f => some (6, CF.word 0x31 f)
  | .teffect f => some (6, CF.word 0x32 f)
  | .caskdup f => some (6, CF.word 0x38 f)
  | .caskdisc f => some (6, CF.word 0x39 f)
  | .caskq f => some (6, CF.word 0x3A f)
  | .br f => some (7, YF.word 0x01 f)
  | .brp f => some (7, YF.word 0x02 f)
  | .brs f => some (7, YF.word 0x03 f)
  | .jr f => some (7, YF.word 0x04 f)
  | .call f => some (7, YF.word 0x05 f)
  | .callr f => some (7, YF.word 0x06 f)
  | .ret f => some (7, YF.word 0x07 f)
  | .loop f => some (7, YF.word 0x08 f)
  | .loopi f => some (7, YF.word 0x09 f)
  | .sync f => some (7, YF.word 0x0A f)
  | .waitc f => some (7, YF.word 0x0B f)
  | .waith f => some (7, YF.word 0x0C f)
  | .fence f => some (7, YF.word 0x0D f)
  | .yield f => some (7, YF.word 0x0E f)
  | .susp f => some (7, YF.word 0x0F f)
  | .suspg f => some (7, YF.word 0x10 f)
  | .rsm f => some (7, YF.word 0x11 f)
  | .trap f => some (7, YF.word 0x12 f)
  | .eret f => some (7, YF.word 0x13 f)
  | .halt f => some (7, YF.word 0x14 f)
  | .bkpt f => some (7, YF.word 0x15 f)
  | .tileCycle => none
  | .freezeEnd => none
  | .l1Fill => none
  | .ownershipGrant => none
  | .revocation => none
  | .globalAtomicReturn => none
  | .translationWalkEnd => none
  | .fetchLineArrival => none
  | .copyEmission => none
  | .lateRowWrite => none
  | .writeQueueRowWrite => none
  | .delayedSourceRead => none
  | .putRequest => none
  | .getRequest => none
  | .accumulateRequest => none
  | .taggedAccumulate => none
  | .atomicRequest => none
  | .futureFill => none
  | .remoteApply => none
  | .getData => none
  | .atomicOldValue => none
  | .notices => none
  | .acknowledgementOnly => none
  | .post => none
  | .completion => none
  | .fenceArrival => none
  | .fenceDone => none
  | .lockRequest => none
  | .grant => none
  | .release => none
  | .completionNoticeSend => none
  | .fenceArrivalSend => none
  | .releaseSend => none
  | .chamberQueueTimeout => none
  | .windowEntryFreed => none
  | .fabricSlot => none
  | .standingFlitArrival => none
  | .scheduledFlitArrival => none
  | .syncResult => none
  | .epoch => none
  | .referenceLockLoss => none
  | .laneLock => none
  | .trainingTimeout => none
  | .alignment => none
  | .keyExchange => none
  | .tableActivation => none
  | .laneLockLoss => none
  | .linkFailureTimeout => none
  | .rekeyStart => none
  | .rekeyCommit => none
  | .launchNotice => none
  | .reservationRequest => none
  | .reservationGrant => none
  | .go => none
  | .chunkStaging => none
  | .streamStaging => none
  | .towpathPartial => none
  | .rootSlotCopy => none
  | .taskReady => none
  | .taskStart => none
  | .preemption => none
  | .reachJobStart => none
  | .partNotReady => none
  | .taskRetire => none
  | .redirectSwitch => none
  | .syncArrival => none
  | .syncRestart => none
  | .classMEvent => none
  | .powerMeasurement => none
  | .throttleEnd => none
  | .emergencyPowerStop => none
  | .suspensionDrainEnd => none
  | .caskWritten => none
  | .caskNoticeLanding => none
  | .rsmClaim => none
  | .restoreComplete => none
  | .caskdupCopyDone => none
  | .powerUp => none
  | .attestation => none
  | .apertureRead => none
  | .apertureWrite => none
  | .rootrec => none
  | .rootarm => none
  | .rpool => none
  | .eqbase => none
  | .eqsize => none
  | .rjstart => none
  | .rjctlArm => none
  | .rjctlDisarm => none
  | .hostRegisterWrite => none
  | .invalidatePage => none
  | .invalidateDomain => none
  | .invalidateAll => none
  | .debugStop => none
  | .debugResume => none
  | .readState => none
  | .writeState => none
  | .freeFailedTask => none
  | .linkBringUp => none
  | .loadShadowDepartureTable => none
  | .setCounter => none
  | .readCounter => none
  | .endReachJob => none
  | .hostCommandDone => none
  | .cmdOtherCode => none

/-- The slot whose opcode-table row has `nbits` bits: 32 for Y, 48 for T, 80 for V0, 64 for S. -/
def slotOfWidth (nbits : Nat) : Option Nat :=
  if nbits = 32 then some 7 else if nbits = 48 then some 5 else if nbits = 80 then some 1 else if nbits = 64 then some 0
  else none

/-- The instruction that the decoder reads from one slot whose bits are `w`. -/
def decodeTableWord (nbits w : Nat) : Option Instr :=
  match slotOfWidth nbits with
  | none => none
  | some k => match decodeSlot k w with | .ok i => some i | .error _ => none

end Sys2Proof
end

