-- ==== Sys2Proof/Config.lean ====
section
/-! DEFINITION. What the spec leaves open and the model does not choose: free values with no body. -/

namespace Sys2Proof.Config

/-- A free number for each draw (the state's `free` counter is the argument): arrival times that are not architectural
(R23, R204, R433, R437), which way the L2 has evicted (R303). Log entry 3. -/
opaque freeNat : Nat → Nat

/-- A free bit for each draw: the choice where the spec allows either of two outcomes (R25, R303). Log entry 3. -/
opaque freeBit : Nat → Bool

/-- A free word for each draw: bytes of an L1 word that has no valid copy (R202), identity keys (R341),
and the rows 1-191 of an array image, which have no published meaning (R425). Log entry 3. -/
opaque freeWord : Nat → BitVec 64

/-- The certificate of the die's identity key and the P-521 signature of its next attestation report (R471): the spec gives no value. Log
entry 3. -/
opaque dieCertificate : List (BitVec 8)
opaque reportSignature : Nat → BitVec 1056

/-- The public key of a private key, and the key exchange of R341 with a peer's public key: P-521 and HKDF-SHA-512 over the peer's random
value, the port's own, the link id and the key epoch. The spec names the functions and gives no values. Log entry 3. -/
opaque publicKey : Nat → Nat
opaque linkKeys : Nat → Nat → BitVec 256 → BitVec 256 → Nat → Nat → BitVec 512

/-- The data of the key-exchange flits of R341: the device certificate with public key and random value, and the signature of the link id, the key
epoch, both public keys and both random values under a private key. The spec gives them no layout. Log entry 3. -/
opaque helloData : Nat → BitVec 256 → BitVec 2048
opaque signData : Nat → Nat → Nat → Nat → Nat → BitVec 256 → BitVec 256 → BitVec 2048

/-- The data of the alignment flits of a link (R340): the spec gives them no contents. Log entry 3. -/
opaque alignData : Nat → BitVec 2048

end Sys2Proof.Config
end

