-- ==== Sys2Proof/Machine/State.lean ====
section
/-! DEFINITION. The state of one basin: its tiles, shared engines, port, memory, host-port block and the fabric ports of its
die, as plain data; the state after reset. -/

namespace Sys2Proof.Machine

/-- Reasons to stop. No instruction or event of the spec stops the machine; the one constructor keeps the type inhabited and is
raised by a host aperture access past the 64 GiB stack, an address that does not exist (R466, R435). Safe. -/
inductive Fault where
  /-- Raised by `execApertureRead` and `execApertureWrite` for a physical address at or above 64 GiB. Safe: it stops. -/
  | noSuchAddress (pa : Nat)
deriving DecidableEq, Repr

/-- Reasons to refuse an instruction. -/
inductive Refusal where
  /-- Raised only by an arm of `exec` whose instruction has no meaning yet. Safe. -/
  | notModelled (mnemonic : String)
deriving DecidableEq, Repr

/-! ## Data memories -/

/-- Bytes with the rind of each aligned granule (R61): `bytes` lists the bytes that are not 0 by address, `rinds` the rinds
that are not `zeroRind` by granule number. Used for basin memory and for scratchpad. -/
structure Store where
  bytes : List Host.Cell
  rinds : SMap Byte
deriving DecidableEq, Repr

/-- A write of some bytes of one granule (R68): `bad` is the badness of the source granule, `r` its rind when all of the
granule is carried. -/
structure GWrite where
  g : Nat
  d : Word
  r : Byte
  bad : Bool
  mask : BitVec 8
deriving DecidableEq, Repr

/-- A 4-bit element that a store places (R198): its byte address and nibble, its value, its element index, and the rind of its source
granule with its badness. -/
structure Nib where
  addr : Nat
  hi : Bool
  v : Nat
  i : Nat
  r : Byte
  bad : Bool
deriving DecidableEq, Repr

/-! ## Traps and results in flight -/

/-- How a trap sets the return state (Table 15-5). -/
inductive TrapAt where
  /-- an issue-time fault, BRK, yield overrun or write collision -/
  | issue
  /-- class T of memory slots at issue + 1: the slots done -/
  | slots (done : Byte)
  /-- an engine-time fault, `TRAP`, `BKPT`, step or class M -/
  | after
deriving DecidableEq, Repr

/-- A fault to take: class and low bits of CAUSE (R409), TRAPINFO, return state, and for `after` and `slots` the bundle. -/
structure TrapReq where
  cls : BitVec 4
  low : BitVec 4
  info : Word
  kind : TrapAt
  pc : Word
  host : Bool := false
deriving DecidableEq, Repr

/-- One register write of a result (R148-R151): `mask` holds the bytes (vector), bits (predicate) or 32-bit elements (accumulator
row) that are written. Accumulator rows and special registers are numbered as in Table 6-4. -/
inductive RWrite where
  | scalar (n : BitVec 6) (v : Reg 1)
  | pred (n : BitVec 5) (v : Reg 4) (mask : BitVec 256)
  | vec (n : Nat) (v : Reg 32) (mask : BitVec 256) (latch : Option (Fin 4))
  | latch (q : Fin 4) (v : Reg 32) (mask : BitVec 256)
  | acc (n : Nat) (v : Reg 64) (mask : BitVec 128)
  | sreg (n : Nat) (v : Word)
deriving DecidableEq, Repr

/-- A result in flight (R150, R416). `due` and `issue` count the tile's result clock, `tc` is the tile cycle of issue; `fp` and `st` are flag bits to set in
FPCTL and STATUS when it lands; `waiting` marks a value not yet returned (R416), and `hold` one whose tile cycle stands still with a frozen tile (R23); `fault` is raised instead of the writes. -/
structure Landing where
  id : Nat
  due : Nat
  issue : Nat
  tc : Nat
  slot : Fin 8
  pc : Word
  writes : List RWrite
  fp : Word
  st : Word
  fault : Option TrapReq
  waiting : Bool
  hold : Bool
deriving DecidableEq, Repr

/-- What a frozen tile waits for (R23), or a `SUSP`, `RSM` or `ERET` stop that is not a freeze. -/
inductive Wait where
  /-- a load or atomic whose value has not come (R204, R211) -/
  | value (id : Nat)
  /-- `WAITC` (R385) -/
  | counter (k : Nat) (thr : Nat)
  /-- `WAITH` (R333) -/
  | handle (h : Fin 32) (lvl : Nat)
  /-- `PPOP` (R401), by pipe index -/
  | popPipe (p : Nat)
  /-- `PPUSH` (R399) -/
  | pushPipe (p : Nat)
  /-- a translation walk (R208) -/
  | walk (pdom : BitVec 16) (va : Word)
  /-- a bundle line not in the fetch buffer (R433) -/
  | fetch (line : Nat)
  /-- the release part of a fence at a scope (R47), with copies when `c` -/
  | release (scope : Nat) (c : Bool)
  /-- `WFLUSH` (R330): a target rank, or all; accepted or visible -/
  | flush (rank : Option Nat) (vis : Bool)
  /-- dirty bytes of a line, or of all of L1, to write back (R207) -/
  | l1wb (line : Option Nat)
  /-- a row with a late mark (R282) -/
  | lateRow (row : Nat)
  /-- a bank-port delay or over-subscription (R186, R187), counted in real cycles -/
  | cycles (n : Nat)
  /-- an access record or chamber entry (R315) -/
  | chamber
  /-- a place among the collectives that wait for reservation (R381) -/
  | collPlace
  /-- an empty matrix queue before `SUSP` (R448) -/
  | mqEmpty
deriving DecidableEq, Repr

/-- What the tile's sequencer is doing. -/
inductive Run where
  | idle                       -- no resident task
  | running
  | entering (at_ : Nat)       -- trap entry: result-clock cycle of the handler's first bundle (R419)
  | returning                  -- `ERET` waits for the handler's results and lines (R421)
  | sync (lvl : BitVec 2) (timed : Bool) (mask : BitVec 32) (arrived : Option Nat)   -- R173: mask or stream, cycle of arrival
  | halted                     -- waiting to retire (R407)
  | leaving                    -- its task retired in this cycle: free from the next on
  | cleaning                   -- its task failed: the release of R203 before the tile is free
  | stopped                    -- stopped for the host (R430)
  | draining                   -- suspension: step 2 of R448
  | writing                    -- suspension: sections being written until W
  | claiming                   -- `RSM`: stopped before the bundle until the claim is decided (R453)
  | restoring                  -- a cask is being restored onto the tile (R455)
deriving DecidableEq, Repr

/-- A slot kept in the operand log until its translation passes (R415). -/
structure LogEntry where
  slot : Nat
  instr : Instr
  sv : SMap (Reg 1)
  pv : SMap (Reg 4)
  vv : SMap (Reg 32)
  qv : SMap (Reg 32)
deriving DecidableEq, Repr

/-! ## L1, translation, fetch -/

/-- A 256-byte L1 line (R201): physical line number, V per 32-bit word, PEND and OWN per word, dirty per byte. -/
structure L1Line where
  tag : Nat
  v : BitVec 64
  pend : BitVec 64
  own : BitVec 64
  dirty : BitVec 256
  data : Reg 32
deriving DecidableEq, Repr

/-- A TLB entry (R437): a translation, or the fault entry of a walk that failed (cause and level). Permissions U X W R. -/
structure TlbEnt where
  pdom : BitVec 16
  page : Nat
  size : Nat
  pa : Nat
  perm : BitVec 4
  fault : Option (BitVec 4 × Nat)
deriving DecidableEq, Repr

/-! ## Matrix engine -/

/-- A weight slot (R250, R253, R254): `ready` is none when EMPTY, else the engine cycle from which it is READY. `mode` as
Table 9-2 (0 BF16, 1 FP16, 2 INT8, 3 INT4); `rows` are the image's 256-byte rows, `recs` the group records of a QG image by
code-row number; `bad` marks an image whose load failed (R255). -/
structure WSlot where
  ready : Option Nat
  img : Nat
  mode : Nat
  kl : Nat
  fmt : Byte
  trans : Bool
  sgnB : Bool
  rows : SMap (Reg 32)
  recs : SMap (Reg 32)
  colsum : Reg 64
deriving DecidableEq, Repr

/-- A queued M-slot command (R252, R268): start cycle `s` in engine clock, the offset it came from, the issue cycle in result clock and in tile cycles, the scalars and special registers,
STATUS.ERC among them (R163), read at issue, the image number it uses, the image latched at `s`, and the rows read or made so far with their flags. -/
structure MCmd where
  id : Nat
  op : BitVec 6
  f : MF
  pc : Word
  issue : Nat
  tc : Nat
  s : Nat
  start : Nat
  base : Reg 1
  cv : List Word
  fpctl : Word
  erc : Bool
  img : Nat
  image : Option WSlot
  fmtA : Nat
  src : SMap (Reg 32)
  src2 : SMap (Reg 32)
  params : List (Reg 32)
  fls : SMap Nat
deriving DecidableEq, Repr

/-! ## Copy engines -/

structure CLevel where
  n : BitVec 32
  ss : Word
  ds : Word
deriving DecidableEq, Repr

/-- The tensor part of a latched configuration (R299, R301, R475). -/
structure TensorCfg where
  op : BitVec 4
  id : BitVec 16
  rb : BitVec 7
  org : List Int
  record : BitVec 768
deriving DecidableEq, Repr

/-- Staged or latched configuration of a copy engine (R276). -/
structure CopyCfg where
  lv : List CLevel
  src : Word
  dst : Word
  m : Word
  path : BitVec 2
  op : BitVec 3
  type : BitVec 5
  cvt : Bool
  tagmode : BitVec 2
  tag : Byte
  tensor : Option TensorCfg
deriving DecidableEq, Repr

inductive CState where
  | idle | armed | running | stopped
deriving DecidableEq, Repr

/-- A copy engine (R276, Table 10-1, Table 10-5). `nest` numbers its last nest, `next` is the engine cycle of the next emission and
`cn` the number of the next copy; `reqCn` and `reqAt` are the next copy whose translation is requested and its emission cycle (R283); `rq`
are source rows waiting to be read (copy, row, scheduled cycle), `rdAt` the cycle of the last read, `lasts` the FTIME of the last destination perform of recent copies (R295), `erc` STATUS.ERC at `CGO`
(R163), `held` the translations that have come for its nest (R283, R438), and `wq` the write queue: destination
rows waiting for a bank port (copy, row). -/
structure CopyEngine where
  staged : CopyCfg
  cfg : CopyCfg
  st : CState
  cause : BitVec 4
  slid : Bool
  tm : Bool
  pc : Word
  issue : Nat
  nest : Nat
  next : Nat
  cn : Nat
  reqCn : Nat
  reqAt : Nat
  lasts : List (Nat × Word)
  erc : Bool
  held : List TlbEnt
  bfmt : SMap Word
  rowmap : List Nat
  rq : List (Nat × Nat × Nat)
  rdAt : Nat
  wq : List (Nat × Nat)
deriving DecidableEq, Repr

/-- A copy that has been emitted and has not finished (R279, R280): its nest, its real emission cycle, the source granules read so
far (by source granule number: scratchpad, or virtual), its scratchpad rows as tile * 8192 + row, those still to write and those late,
and the physical addresses of its 64 KiB pages. `tags` tells whether its rows are stamped, `fin` that its nest's end tags have been. -/
structure CopyRun where
  id : Nat
  nest : Nat
  e : Bool
  cn : Nat
  at_ : Nat
  issue : Nat
  pc : Word
  tm : Bool
  erc : Bool
  sv : Bool
  pdom : BitVec 16
  cfg : CopyCfg
  bfmt : SMap Word
  sa : Nat
  da : Nat
  bytes : Nat
  src : List Nat
  dst : List Nat
  dstLeft : List Nat
  lateRows : List Nat
  pages : SMap Nat
  got : SMap Gran
  tags : Bool
  lastCopy : Bool
  rowmap : List Nat
  fin : Bool
deriving DecidableEq, Repr

/-! ## Handles and the tile -/

/-- A handle record (Table 11-5). -/
structure Handle where
  iss : BitVec 32
  loc : BitVec 32
  acc : BitVec 32
  vis : BitVec 32
  fail : BitVec 32
  fidx : BitVec 32
  ferr : BitVec 5
  psn : Bool
deriving DecidableEq, Repr

/-- A suspension (R448 to R451): cask address, physical bases of its 64 KiB pages, `.mx`, `.trap`, banks, whether pre-emption asked
for it, the address of the gang cask, the size of the cask, the array image of a `.trap` cask, FTIME at the capture, and whether its header has performed. A
page that is not mapped is absent: its base is 1. -/
structure Susp where
  va : Nat
  pages : SMap Nat
  mx : Bool
  trap : Bool
  banks : Word
  pre : Bool
  gang : Option Nat
  size : Nat
  image : List (Reg 32)
  ftime : Word
  done : Bool
deriving DecidableEq, Repr

/-- An `RSM` (R453): its bundle, the cask, the cycle at which it reached issue, what was decided, and where the cask goes: the
entry that runs in it, the domain that translates it. -/
structure Claim where
  pc : Word
  va : Nat
  pa : Nat
  at_ : Nat
  done : Bool
  fault : Option (Nat × TrapReq)
  size : Nat
  level : Nat
  home : Bool
  entry : Nat
  pdom : BitVec 16
deriving DecidableEq, Repr

/-- What the last issue attempt of the tile did: the model's own note for `step`, which runs every slot alone first. -/
inductive Issued where
  | acted
  | trapped (rank : Nat)
  | froze
deriving DecidableEq, Repr

structure Tile where
  task : Option Nat            -- resident task-table index (R14)
  run : Run
  frozen : Option Wait         -- R23
  throttled : Option Nat       -- cycle at which the throttle ends (R27)
  issued : Issued
  s : SMap (Reg 1)             -- scalars (R143)
  p : SMap (Reg 4)             -- predicates
  v : SMap (Reg 32)            -- vector registers (R214)
  q : SMap (Reg 32)            -- bypass latches (R122)
  z : SMap (Reg 64)            -- accumulator rows z*128 + row (R249)
  rs : SMap (Reg 1)            -- row sums, 32 bits each, by row (R249)
  sr : SMap Word               -- special registers by number (Table 6-1)
  tcyc : Word                  -- TCYC (R24)
  fq : List Word               -- F[0], F[1], F[2] (R165)
  branch : Option Word         -- target of a transfer taken by the bundle being issued
  rpt : Nat                    -- RPT cycles owed (R149)
  yc : BitVec 32               -- yield count (R427)
  noBrk : Bool                 -- the bundle due was stopped by its BRK before (R429)
  brkAt : Option Word          -- while a handler runs: the bundle whose BRK has stopped it
  syncRest : Bool              -- a `SYNC` bundle's RPT cycles are being spent after its restart (R175)
  atYield : Bool               -- the bundle before was an effective yield point (R427, R428)
  rclk : Nat                   -- result clock
  inflight : List Landing      -- results in flight (R150)
  snapshot : List Landing      -- snapshot buffer, `due` counted from the trap cycle (R416)
  snapRpt : Nat
  oplog : List LogEntry        -- operand log (R415)
  logTraps : List (Nat × TrapReq)  -- class T of memory slots due at the next tile cycle, by slot
  trapDue : Option TrapReq     -- class X, W or debug stop due after the bundle (R420, R429)
  heldX : Option TrapReq       -- one that another trap came before: held while the handler runs (R413)
  dueF : List (Nat × Nat × TrapReq)   -- faults of results and engines due, by issue cycle and slot (R413 item 3)
  heldF : List (Nat × Nat × TrapReq)  -- those held with their sources while a handler runs
  heldT : List (Nat × TrapReq) -- class T of memory slots that a fault held before them came before (R413, R415)
  trapFt : Word                -- FTIME at trap entry (R449)
  stDue : Word                 -- sticky STATUS flags that engines have raised in this cycle (R153)
  mxNow : List Landing         -- matrix results of this cycle, before they land (R257)
  mDue : List (Nat × BitVec 4 × Word)  -- class M pending, first come first: bundles left, low bits, TRAPINFO (R424)
  gaveUp : Bool                -- a class M trap has been entered: ERET or HALT fails the task (R424)
  preempt : Bool               -- pre-emption requested (R428)
  ceded : Bool                 -- suspending for YIELD.cede (R452)
  pad : Store                  -- scratchpad (R177)
  tags : SMap Byte             -- sequence tags by row number (R189)
  tagNew : List (Nat × Byte)   -- tag writes of this cycle, seen from the next on (R38, R189)
  pend : SMap Nat              -- pending writes by row (R191)
  late : SMap Nat              -- late marks by row (R282)
  resv : List (Nat × Nat × Nat) -- bank ports: cycle, bank, 0 L read, 1 other read, 2 write, reserved; 3 A-row read made (R185)
  l1 : SMap (Option L1Line)    -- L1 by set*8 + way (R201)
  plru : SMap (BitVec 7)       -- tree pseudo-LRU by set
  fills : List Nat             -- sectors being filled
  acqAt : Nat                  -- cycle of the last acquire: accesses that issued before it come before it (R50)
  utlb : List TlbEnt           -- micro-TLB, most recent first (R437)
  fbuf : SMap (Option (Reg 32))  -- fetch buffer by VA line (R431)
  handles : SMap Handle        -- R321
  hseen : SMap Handle          -- handles as `HTEST` and `HREAD` see them: at the end of the cycle before (R332)
  ce : SMap CopyEngine         -- the two copy engines
  copies : List CopyRun        -- copies emitted and not finished
  mclk : Nat                   -- clock of the matrix and copy engines
  mheld : Bool                 -- the engines are held (R272, R296, R430)
  mq : List MCmd               -- matrix command queue (R249)
  w : SMap WSlot               -- weight slots
  mxAt : Option Nat            -- scratchpad address of the last MXSAVE since trap entry (R449)
  mxBusy : Nat                 -- real cycle until which MXSAVE or MXREST runs (R426)
  susp : Option Susp           -- a suspension asked for or under way
  claim : Option Claim         -- an `RSM` under way
deriving DecidableEq, Repr

/-! ## Task engine -/

inductive TState where
  | created | waiting | ready | running | suspended | retired | failed (reason : Nat)
deriving DecidableEq, Repr

/-- A shadow tile (R388, R389): its place in the pool in bytes, the byte addresses of its elements and their contents in the shadow. -/
structure Shadow where
  id : Nat
  coord : List Nat
  size : Nat
  bytes : List Nat
  store : Store
deriving DecidableEq, Repr

/-- A task-table entry (R386). `order` is the place in spawn order, which the members of a gang share, `place` its place among those that start; `pri` is the priority it runs at,
`renamed` lists its renamed write boxes (R388), `since` tells that it becomes READY in the next cycle, `pre` that pre-emption suspended
it, `gcask` is the address of its gang's cask, `spent` tells that a member of its gang has retired that could not be replayed (R403). -/
structure TaskEnt where
  st : TState
  record : BitVec 1536
  order : Nat
  place : Nat
  pri : Nat
  renamed : List Nat
  since : Bool
  bypass : Nat
  pdom : BitVec 16
  tile : Option Tid
  leader : Nat
  member : Nat
  nmem : Nat
  startAt : Option Nat
  effect : Bool
  spent : Bool
  fails : Nat
  gen : BitVec 16
  cask : Option Nat
  gcask : Option Nat
  pre : Bool
  root : Bool
  shadows : List Shadow
deriving DecidableEq, Repr

/-- A pipe (R394-R398). An entry carries the first cycle in which it can be popped. -/
structure Pipe where
  bound : Bool
  cap : Nat
  prod : Nat
  gen : Nat
  entries : List (Nat × Reg 32)
  marks : BitVec 32
  reserved : Nat
deriving DecidableEq, Repr

/-! ## Window engine -/

inductive WState where
  | closed | fenceOpen | posted | passive
deriving DecidableEq, Repr

/-- A lock request or holder (R317): origin rank, tile, exclusive, and the operation that asked. -/
structure LockReq where
  rank : Nat
  tile : Nat
  ex : Bool
  opn : Nat
deriving DecidableEq, Repr

/-- A window entry (R309). `arrivals` holds rank, operation number and `.nosucc` of fence arrivals not yet used; `done` the
operations that wait in `WDONE`; `freeing` is set by `WFREE` with the tile and landing that wait. -/
structure WEntry where
  desc : BitVec 256
  pdom : BitVec 16
  pages : List TlbEnt
  st : WState
  epoch : Nat
  bitmap : List Nat
  arrivals : List (Nat × Nat × Bool)
  fifo : List LockReq
  holders : List LockReq
  done : List Nat
  rej : BitVec 32
  inFlight : Nat
  freeing : Option (Option (Tid × Nat))
deriving DecidableEq, Repr

/-- What an operation that names a handle is (Table 11-6). -/
inductive OpKind where
  | put | get
  | acc (op : Nat) (tagged : Bool)
  | amo (op : Nat) (fut : Bool)
  | start | compl
  | fence (nosucc : Bool)
  | lock (ex : Bool)
  | unlock | post | done | coll
deriving DecidableEq, Repr

/-- An operation that names a handle, at its origin (R321-R323): its number on the wire, its place in issue order, its handle and
index, its fields, the levels it has reached, its source rows not yet read and what has been read, the rows of its reply not yet
written. `iss` is its cycle of issue, `entered` the one in which it entered the port, `chambered` and `held` keep it there (R314, R316, R317), `leader` is the
operation whose flits carry it (R58), `links` the links that flits of it have left on, `cask` the cask whose handle block its notices go to (R444). -/
structure OpRec where
  opn : Nat
  seq : Nat
  kind : OpKind
  tile : Tid
  h : Nat
  idx : BitVec 32
  iss : Nat
  rank : Nat
  win : Nat
  off : Nat
  len : Nat
  type : Nat
  tag : Nat
  laddr : Nat
  glob : Bool
  pages : SMap Nat
  lockTile : Tid
  loc : Bool
  acc : Bool
  vis : Bool
  failed : Bool
  poisoned : Bool
  srcLeft : List Nat
  got : SMap Gran
  ret : List Nat
  entered : Option Nat
  chambered : Bool
  held : Bool
  sent : Bool
  leader : Nat
  links : List Nat
  cask : Option Nat
deriving DecidableEq, Repr

/-- A flit in a queue of the port (R324): the cycle in which it is at its fabric port, its place among what was queued, the flit. -/
structure Queued where
  at_ : Nat
  no : Nat
  flit : Flit
deriving DecidableEq, Repr

/-- An access record (R314, R315): STARTED until the post notice, OPEN afterwards; `closing` once its `WCOMPL` has issued, which
closes it when the completion leaves. `opn` is the place of its `WSTART` in issue order, `tile` the tile whose task opened it. -/
structure AccRec where
  rank : Nat
  win : Nat
  open_ : Bool
  closing : Bool
  at_ : Nat
  opn : Nat
  tile : Option Tid
deriving DecidableEq, Repr

/-- A lock that a tile holds at a window (R317): the tile whose task holds it, and the TILEID that its operations carry (R455). -/
structure LockHeld where
  rank : Nat
  win : Nat
  tile : Tid
  holder : Tid
  ex : Bool
deriving DecidableEq, Repr

/-- A cask whose operations are outstanding (R444): the addresses of its header, of its handle block and of its gang's header, and the
pinned pages that hold them. -/
structure Anchor where
  id : Nat
  va : Nat
  sec5 : Nat
  pages : SMap Nat
  gang : Option Nat
deriving DecidableEq, Repr

/-- A `CASKDUP` that copies (R458): tile, result, source and destination addresses, domain, size. -/
structure Dup where
  id : Nat
  tile : Tid
  land : Nat
  src : Nat
  dst : Nat
  pdom : BitVec 16
  size : Nat
deriving DecidableEq, Repr

/-- A gang cask claimed away from home that waits for task-table entries (R456), and the priority of the task that claimed it. -/
structure GangClaim where
  va : Nat
  pdom : BitVec 16
  pri : Nat
deriving DecidableEq, Repr

/-! ## Collectives -/

/-- A collective at this basin's engine (R363 to R379): its operation, its record, this member's index, the physical bases of its source
pages, and the cycle of its launch. `chunks` holds the staged granules of each chunk, `waiting` the partials whose step cannot be taken yet,
`ready` the flits that wait for slots of its stream with the cycle from which they may depart; `writes` and `sends` count the pieces still to write and to be accepted. -/
structure CollRec where
  id : CollId
  tile : Tid
  opn : Nat
  record : BitVec 512
  member : Nat
  pages : SMap Nat
  at_ : Nat
  granted : Bool
  gone : Bool
  late : Bool
  chunks : List (SMap Gran)
  waiting : List Flit
  ready : List (Nat × Flit)
  writes : Nat
  sends : Nat
  code : Nat
deriving DecidableEq, Repr

/-- What an engine sends to another member's engine (R373); the kinds of Table 12-3 give it no flit. -/
inductive CollMsg where
  | launch (l : Launch)
  | request (c : CollId)
  | grant (c : CollId) (member : Nat)
  | go (c : CollId)
  | fail (c : CollId) (code : Nat)
deriving DecidableEq, Repr

/-! ## Fabric ports -/

inductive LinkState where
  | off | train | align | auth | keyed | active | failed
deriving DecidableEq, Repr

/-- A standing connection to a package (R349): `resend` is the flag that its replies carry, `again` the flits to send once more. -/
structure Conn where
  pkg : Nat
  nextSend : BitVec 6
  nextRecv : BitVec 6
  resend : Bool
  owed : Bool
  kept : List Flit
  again : List Flit
deriving DecidableEq, Repr

/-- A fabric port (R340-R345, R371). `priv` and `rand` are its private key and random value of the exchange that runs (R341), `keys` the keys
of both directions in use, `nextKeys` those of the next key epoch, `mgmt` the management flits that wait for an idle slot;
with `proved` the switch's side of the first exchange has verified. `ctx` holds the collectives that have its towpath contexts, `held` the flits of streams whose
collective has not been launched here, with their streams and FTIMEs (R375). -/
structure Port where
  link : LinkState
  since : Nat
  flits : Nat
  epoch : Nat
  rekey : Bool
  priv : Nat
  rand : BitVec 256
  keys : BitVec 512
  nextKeys : BitVec 512
  mgmt : List Flit
  proved : Bool
  tagFails : List Nat
  active : List (BitVec 32)
  shadow : Option (List (BitVec 32) × Word × SMap Word)
  t0 : Word
  streams : SMap Word
  ctx : List CollId
  held : List (Nat × Nat × Flit)
deriving DecidableEq, Repr

/-! ## The basin -/

/-- A binding of the bound-range table (R303). -/
structure Binding where
  record : BitVec 768
  pdom : BitVec 16
  refs : Nat
  cached : Bool
  lo : Nat
  hi : Nat
  pages : List TlbEnt
deriving DecidableEq, Repr

/-- Old HBM contents of bytes that are dirty in the L2 tiles of a bound tensor (R303, R305). -/
structure Undo where
  id : Nat
  g : Nat
  mask : BitVec 8
  old : Gran
deriving DecidableEq, Repr

/-- An event record (R467), less its place in the queue. -/
structure EvRec where
  place : Nat
  seq : BitVec 32
  src : BitVec 16
  kind : Byte
  ftime : Word
  detail : BitVec 128
deriving DecidableEq, Repr

/-- One element of a scratchpad load: its place in the destination, the byte it starts at, the high nibble of that byte, and the
address of its group record (R182, R184, R194). -/
structure PadEl where
  i : Nat
  addr : Nat
  hi : Bool
  recAt : Nat
deriving DecidableEq, Repr

/-- A scratchpad load in flight: 0 vector, 1 scalar, 2 predicate; register type, storage type, whether it decodes by group
records, the elements, which are active, and zeroing. -/
structure PadLoad where
  kind : Nat
  type : Nat
  st : Nat
  grp : Bool
  els : List PadEl
  act : BitVec 512
  z : Bool
deriving DecidableEq, Repr

/-- Things that come due at a cycle: rows of the opcode table, and the parts of an instruction that perform after its issue. -/
inductive Ev where
  | event (i : Instr) (a : EvArg)
  /-- rows of a scratchpad load, read at their own cycles (R187, R193): the rows read so far, and those left with their cycles -/
  | padRead (t : Tid) (iss id : Nat) (l : PadLoad) (got : SMap (Reg 32)) (left : List (Nat × Nat))
  /-- a scratchpad write at its bank (R197): granules, 4-bit elements (R198), and the rows whose pending count it settles -/
  | padWrite (t : Tid) (iss : Nat) (ws : List GWrite) (nibs : List Nib) (rows : List Nat)
  | tagWrite (t : Tid) (iss : Nat) (row : Nat) (tag : Byte)
  /-- a scratchpad atomic at its bank (R211) -/
  | padAtomic (t : Tid) (iss id : Nat) (pc : Word) (type op : Nat) (addr v cmp : Nat) (acq : Bool)
  /-- `RINJ` of a scratchpad row (R82) -/
  | padInject (t : Tid) (iss : Nat) (row act mask pat : Nat)
  /-- `MXSAVE` row (R426) -/
  | mxRow (t : Tid) (row : Nat) (v : Reg 32)
  /-- `GLD`, `GLDV` of the bundle that issued in cycle `iss` read L1 at issue + 4, and again until their sectors have come (R204):
  elements by physical address -/
  | l1Read (t : Tid) (iss id : Nat) (l : PadLoad)
  /-- `GPREF` waits for a walk (R205) -/
  | gprefWait (t : Tid) (va : Nat)
  /-- `GST`, `GSTV` in free mode at issue + 4 (R206) -/
  | l1Write (t : Tid) (iss : Nat) (ws : List GWrite)
  /-- a timed-mode store at the L2 (R41) -/
  | l2Write (t : Tid) (iss : Nat) (ws : List GWrite)
  /-- a global atomic at the L2 at issue + 32 (R211) -/
  | l2Atomic (t : Tid) (iss id : Nat) (type op : Nat) (pa v cmp : Nat) (acq : Bool)
  /-- a global atomic takes its words from their owners, in the cycle before it performs (R43, R211) -/
  | l2Take (t : Tid) (words : List Nat)
  /-- dirty bytes of some words of a line are written back as a write of the tile -/
  | wordsBack (t : Tid) (words : List Nat)
  /-- an evicted line leaves L1 (Table 7-6) -/
  | l1Leave (t : Tid) (line : Nat)
  /-- dirty bytes of a line, or of all of L1, are written back as a write of the tile (R38, R46, R207) -/
  | l1Back (t : Tid) (line : Option Nat)
  /-- the L2 has a registration request of a word (R43) -/
  | grantDue (t : Tid) (word : Nat)
  /-- the acquire once more, when the loads before it have read (R50) -/
  | acquireAgain (t : Tid)
  /-- the L2 evicts a line (R202) -/
  | l2Evict (line : Nat)
  | copySrc (t : Tid) (id k : Nat)
  | copyL2Read (t : Tid) (id : Nat)
  | copyDst (t : Tid) (id k : Nat)
  | copyPerform (t : Tid) (id : Nat)
  | opSrc (seq : Nat)
  | opEnter (seq : Nat)
  /-- bytes of a get's reply or an atomic's old value, as granule writes at the origin (R328, R329) -/
  | landRow (seq row : Nat) (ws : List GWrite)
  /-- a flit leaves its port -/
  | send (f : Flit)
  | counterWrite (k : Nat) (set_ : Bool) (v : Word) (t : Option Tid) (iss : Nat)
  | counterSeen (k : Nat) (v : Reg 1)
  | counterRead (t : Tid) (id k : Nat)
  | pipePush (t : Tid) (iss p prod gen : Nat) (e : Reg 32)
  | pipeMark (t : Tid) (iss p prod gen : Nat)
  | pipeBind (t : Tid) (id : Nat) (mode : Nat) (v : Word)
  | pipeRoom (p : Nat) (gen : Nat)
  | tbind (t : Tid) (id : Nat) (record : BitVec 768) (pdom : BitVec 16)
  | tunbind (t : Tid) (id : Nat) (tid : Nat)
  | tflush (tid mode : Nat)
  | wcreate (t : Tid) (id : Nat) (desc : BitVec 256) (pdom : BitVec 16)
  | wclose (t : Tid) (id : Nat) (win : Nat) (pdom : BitVec 16) (sv : Bool)
  | wpost (seq : Nat)
  | wdone (seq : Nat)
  /-- an operation reaches a level, or fails, at the origin port (R322) -/
  | opLevel (seq lvl : Nat)
  | opFail (seq : Nat) (code : Nat)
  | hinit (t : Tid) (h : Fin 32)
  | teffect (t : Tid) (v : Bool)
  | tspawn (t : Tid) (id : Nat) (recs : List (BitVec 1536)) (pdom : BitVec 16) (sv : Bool)
  /-- `CASKDUP`, `CASKDISC` and `CASKQ` reach the cask unit (R458 to R460): addresses, domain, level, cycle of issue -/
  | caskdup (t : Tid) (id src dst : Nat) (pdom : BitVec 16) (sv : Bool) (iss : Nat)
  | caskdisc (t : Tid) (id va : Nat) (pdom : BitVec 16) (sv : Bool)
  | caskq (t : Tid) (id va : Nat) (pdom : BitVec 16) (sv : Bool)
  /-- the rows of a cask, in rising order, one per cycle (R448) -/
  | caskSections (t : Tid) (row : Nat)
  /-- a row of a copy that `CASKDUP` makes, and its status (R458) -/
  | dupRow (id row : Nat)
  | statusNow (t : Tid) (id v : Nat)
  /-- a claim that has been decided lets the tile go on (R453) -/
  | claimEnd (t : Tid)
  /-- the tile is free (R448) -/
  | tileFree (t : Tid)
  /-- `MXREST` reads row j (R426): the scratchpad row of the image, and the rows read so far -/
  | mxrest (t : Tid) (row j : Nat) (got : List (Reg 32))
  /-- `COLL` at issue + start: its tile and fields, its record, the address of its bundle (R378) -/
  | coll (t : Tid) (f : CF) (record : BitVec 512) (pc : Word)
  /-- a piece of a collective's result from member rank `src` is at the basin's port, for a destination write (R372) -/
  | collPut (opn src chunk path piece : Nat) (v : List Gran)
  /-- a destination write of a collective performs: pieces by offset (R372) -/
  | collWrite (opn win src : Nat) (ws : List (Nat × Nat × Reg 32)) (poisoned : Bool)
  /-- a piece of a collective is written or accepted, with a code (R379) -/
  | collDone (opn : Nat) (written : Bool) (code : Nat)
  /-- a stream collective begins at T0 (R375) -/
  | collBegin (opn : Nat)
  /-- a window's fence epoch completes (R316), or its last completion takes effect (R314) -/
  | fenceEnd (win : Nat)
  /-- the last flit of an operation that has failed here has performed -/
  | forget (src opn : Nat)
  | postEnd (win : Nat)
deriving DecidableEq, Repr

/-- A calendar entry: the cycle, the order within it (R38: reads 0, tile writes by TILEID and source, port writes last). -/
structure Entry where
  at_ : Nat
  ord : Nat
  ev : Ev
deriving DecidableEq, Repr

/-- Which agent moves next within a cycle. -/
inductive Turn where
  | reads | matrixReads | writes | poll
  | copy (t : Nat) (e : Bool)
  | cycle (t : Nat)
  | issue (t : Nat)
deriving DecidableEq, Repr

/-- An attestation report (R471): the verifier's nonce, the three SHA-512 values, the boot step reached, the die's certificate, the
signature. -/
structure Report where
  nonce : BitVec 256
  digests : BitVec 512 × BitVec 512 × BitVec 512
  step : Nat
  cert : List (BitVec 8)
  sig : BitVec 1056
deriving DecidableEq, Repr

/-- Host-port registers (Table 17-1). -/
structure HostPort where
  rootRec : BitVec 1536
  rootSt : Nat                 -- 0 EMPTY, 1 ARMED, 2 TAKEN
  defHbase : Word
  defCask : Word
  rpool : Word
  drtBase : Word
  carg0 : Word
  carg1 : Word
  cmdst : Nat                  -- 0 idle, 1 busy, 2 done, 3 refused
  cmdOk : Bool                 -- outcome of the busy command
  cmdRind : Byte
  eqBase : Word
  eqSize : Word
  eqHead : Word
  eqTail : Word
  rjStart : SMap Word
  rjArm : SMap Nat             -- 1 armed
  rjEnded : SMap Nat
  log : List EvRec             -- the event queue's records in host memory (R467)
  seqs : SMap (BitVec 32)      -- event numbers by source (R34)
  reads : List (Nat × Gran × Bool)  -- aperture read replies: address, granule, poisoned
  writes : List (Nat × Gran × Bool) -- granules that left for the host: window byte or reply (State.hostPlace), granule, poisoned status (R77)
  acks : List (Nat × Nat)      -- aperture writes that have performed: address, bytes (R466)
  digests : BitVec 512 × BitVec 512 × BitVec 512 -- SHA-512 of the host firmware, the blob and the management firmware of this power-up (R471)
  reports : List Report        -- attestation reports sent (R471)
  aboveCount : Nat                 -- consecutive power measurements above the ceiling with nothing to throttle (R472)
  stopTile : Option Tid            -- the tile that a busy debug-stop command waits for (R463)
deriving DecidableEq, Repr

structure State where
  now : Nat                    -- core cycles since reset: the calendar's clock
  ftime : Word                 -- FTIME (R24)
  ftOn : Bool                  -- FTIME counts: the epoch has come (R339, R468)
  turn : Turn
  cur : Tid                    -- the tile whose slots `exec` issues
  arg : EvArg                  -- the data of the event that takes place
  free : Nat                   -- draws made of the free values (log entry 3)
  nextId : Nat
  agenda : List Entry
  bootStep : Nat               -- Table 17-3
  boot : Option BootInput      -- the latched configuration blob (R469)
  tiles : Vector Tile 32
  mem : Store                  -- basin memory by physical address (R435)
  memWas : List (Nat × Gran)   -- granules written in this cycle, as they stood before (R38)
  undo : List Undo
  owner : SMap Nat             -- L2 ownership of words: TILEID + 1 (R202)
  binds : List Binding         -- bound-range table, earliest first (R303)
  stlb : List TlbEnt           -- shared TLB (R437)
  walks : List Walk            -- walks in flight
  counters : SMap (Reg 1)      -- R383
  ctrSeen : SMap (Reg 1)       -- counters as readiness checks and WAITC see them (R383)
  tasks : SMap (Option TaskEnt)  -- task table (R386)
  spawns : Nat                 -- spawn order
  pipes : SMap Pipe            -- by span*64 + pipe (R394)
  windows : SMap (Option WEntry) -- R309
  groups : List (Nat × Nat × Nat)  -- group table: lo, hi, references
  dedup : List (Nat × Nat × Nat × Nat)  -- keys: window, rank, tag, and the origin tile (R319)
  ops : List OpRec             -- operations of this origin (R322)
  nextOpn : Nat                -- operations issued: the next place in issue order
  accRecs : List AccRec        -- R315
  posts : List (Nat × Nat)     -- post notices kept (R314)
  combine : List (Nat × Nat × Nat × Bool)  -- combining buffer: first member, its entry cycle, next offset, open (R58)
  poisoned : List (Nat × Nat)  -- operations here (rank, number) with a poisoned result so far (R73)
  rejected : List (Nat × Nat)  -- operations here (rank, number) of which a flit has been rejected (R54, R311)
  tagOps : List (Nat × Nat × Nat)  -- tagged accumulates arriving (rank, number), admitted 0 or failed with a code (R319)
  reqQ : List Queued           -- requests waiting for slots (R324, R348)
  ctlQ : List Queued           -- control flits waiting for slots
  repQ : List Queued           -- replies waiting for slots
  joined : Bool                -- an external link of the package has been brought up (R13)
  farUp : List Nat             -- links of the package's other dies that are up (R312, R335)
  outbox : List (Nat × Flit)   -- flits that have left toward other basins
  collOut : List (Nat × Nat × CollMsg) -- messages that have left toward other members' engines, with their ranks
  conns : List Conn            -- standing connections (R349)
  ports : Vector Port 9
  colls : List CollRec
  collNums : List (Nat × Nat × Nat × Nat)  -- launches on each group (R363)
  launches : List Launch       -- notices held by member 0
  grants : List CollId         -- reservation requests waiting here (R373)
  mxImages : List (List (Reg 32) × Nat × List MCmd) -- array images written by `MXSAVE`: rows, engine cycle, held state (R426)
  demand : List (Nat × Nat)    -- copies on paths 1-3 of the last 64 cycles: emission cycle and bytes (R281)
  overAt : Option Nat          -- the last cycle in which that demand passed the guarantee
  dups : List Dup              -- `CASKDUP` in progress
  anchors : List Anchor        -- R444
  slotImgs : List WSlot        -- weight slots that casks have recorded (R440)
  locks : List LockHeld
  gangClaims : List GangClaim
  host : HostPort
deriving DecidableEq, Repr

/-! ## Reset -/

def CopyCfg.init : CopyCfg :=
  { lv := List.replicate 6 ⟨1, 0, 0⟩, src := 0, dst := 0, m := 0, path := 0, op := 0, type := 0, cvt := false, tagmode := 0,
    tag := 0, tensor := none }

/-- A copy engine at task start (Table 10-1). -/
def CopyEngine.init : CopyEngine :=
  { staged := .init, cfg := .init, st := .idle, cause := 0, slid := false, tm := false, pc := 0, issue := 0, nest := 0, next := 0,
    cn := 0, reqCn := 0, reqAt := 0, lasts := [], erc := false, held := [], bfmt := [], rowmap := [], rq := [], rdAt := 0, wq := [] }

/-- An EMPTY weight slot (R250). -/
def WSlot.empty : WSlot :=
  { ready := none, img := 0, mode := 0, kl := 0, fmt := 0, trans := false, sgnB := false, rows := [], recs := [],
    colsum := .zero 64 }

def Handle.zero : Handle := ⟨0, 0, 0, 0, 0, 0, 0, false⟩

def Store.empty : Store := ⟨[], []⟩

/-- A tile after reset: no task, every register at its task-start value (R144), scratchpad and accumulators zero (R179, R250). -/
def Tile.reset : Tile :=
  { task := none, run := .idle, frozen := none, throttled := none, issued := .acted, s := [], p := [], v := [], q := [], z := [],
    rs := [], sr := [], tcyc := 0, fq := [0, 0, 0], branch := none, rpt := 0, yc := 0, noBrk := false, brkAt := none, syncRest := false, atYield := false,
    rclk := 0, inflight := [], snapshot := [], snapRpt := 0, oplog := [], logTraps := [], trapDue := none, heldX := none, dueF := [], heldF := [], heldT := [], trapFt := 0, stDue := 0, mxNow := [],
    mDue := [], gaveUp := false, preempt := false, ceded := false, pad := .empty, tags := [], tagNew := [], pend := [], late := [],
    resv := [], l1 := [], plru := [], fills := [], acqAt := 0, utlb := [], fbuf := [], handles := [], hseen := [], ce := [], copies := [], mclk := 0,
    mheld := false, mq := [], w := [], mxAt := none, mxBusy := 0, susp := none, claim := none }

def Pipe.unbound : Pipe := { bound := false, cap := 0, prod := 0, gen := 0, entries := [], marks := 0, reserved := 0 }

def Port.reset : Port :=
  { link := .off, since := 0, flits := 0, epoch := 0, rekey := false, priv := 0, rand := 0, keys := 0, nextKeys := 0, mgmt := [], proved := false, tagFails := [], active := [], shadow := none, t0 := 0,
    streams := [], ctx := [], held := [] }

/-- The host-port block after reset: RPOOL is 256 MiB (Table 17-1). -/
def HostPort.reset : HostPort :=
  { rootRec := 0, rootSt := 0, defHbase := 0, defCask := 0, rpool := 0x10000000, drtBase := 0, carg0 := 0, carg1 := 0,
    cmdst := 0, cmdOk := true, cmdRind := 0, eqBase := 0, eqSize := 0, eqHead := 0, eqTail := 0, rjStart := [], rjArm := [],
    rjEnded := [], log := [], seqs := [], reads := [], writes := [], acks := [], digests := (0, 0, 0), reports := [], aboveCount := 0, stopTile := none }

/-- The basin right after reset: memory lists nothing, counters are 0 (R383), no task, root slot EMPTY, links OFF (R468). -/
def State.reset : State :=
  { now := 0, ftime := 0, ftOn := false, turn := .reads, cur := 0, arg := .none, free := 0, nextId := 0, agenda := [], bootStep := 0, boot := none,
    tiles := Vector.replicate 32 Tile.reset, mem := .empty, memWas := [], undo := [], owner := [], binds := [], stlb := [], walks := [],
    counters := [], ctrSeen := [], tasks := [], spawns := 0, pipes := [], windows := [], groups := [], dedup := [],
    ops := [], nextOpn := 0, accRecs := [], posts := [], combine := [], poisoned := [], rejected := [], tagOps := [], reqQ := [], ctlQ := [], repQ := [], joined := false, farUp := [],
    outbox := [], collOut := [], conns := [], ports := Vector.replicate 9 Port.reset, colls := [], collNums := [], launches := [], grants := [],
    mxImages := [], demand := [], overAt := none, dups := [], anchors := [], slotImgs := [], locks := [], gangClaims := [], host := .reset }

end Sys2Proof.Machine
end

