-- ==== Sys2Proof/Machine/Store.lean ====
section
/-! DEFINITION. Finite maps, the rind of a granule (R61-R64), merging lanes (R68) and the byte stores of scratchpad and basin
memory. -/

namespace Sys2Proof

/-! ## Finite maps in one canonical form -/

/-- The value at `k`, or the map's default. -/
def SMap.get {α : Type} (d : α) (k : Nat) : SMap α → α
  | [] => d
  | (a, v) :: m => if a = k then v else SMap.get d k m

/-- Puts `k` at its place among rising keys. -/
def SMap.ins {α : Type} (k : Nat) (v : α) : SMap α → SMap α
  | [] => [(k, v)]
  | (a, w) :: m => if k < a then (k, v) :: (a, w) :: m else (a, w) :: SMap.ins k v m

/-- Drops every entry of `k`. -/
def SMap.del {α : Type} (k : Nat) (m : SMap α) : SMap α := m.filter fun e => decide (e.1 ≠ k)

/-- Sets the value at `k`; an entry equal to the default is not kept. -/
def SMap.set {α : Type} [DecidableEq α] (d : α) (k : Nat) (v : α) (m : SMap α) : SMap α :=
  if v = d then m.del k else SMap.ins k v (m.del k)

def SMap.modify {α : Type} [DecidableEq α] (d : α) (k : Nat) (f : α → α) (m : SMap α) : SMap α :=
  m.set d k (f (m.get d k))

/-! ## Rinds -/

def crcStep (c : Nat) (b : Bool) : Nat :=
  let fb := (bit c 6) != b
  let c := (c <<< 1) % 128
  if fb then c ^^^ 0x65 else c

/-- The bit positions of a granule in the order of R63: byte 0 first, most significant bit first. -/
def crcOrder : List Nat := (List.range 8).flatMap fun k => (List.range 8).map fun j => 8 * k + (7 - j)

/-- CRC-7 of a granule (R63). -/
def crc7 (d : Nat) : Nat := crcOrder.foldl (fun c i => crcStep c (bit d i)) 0x7F

/-- `RIND(p, d)` (R63). -/
def rindOf (p : Bool) (d : Word) : Byte := BitVec.ofNat 8 ((if p then 0x80 else 0) + crc7 d.toNat)

/-- R64. -/
def Gran.bad (g : Gran) : Bool := g.r.toNat != crc7 g.d.toNat

/-- A granule produced afresh (R65). -/
def Gran.fresh (d : Word) : Gran := ⟨d, rindOf false d⟩

def Gran.poison (d : Word) : Gran := ⟨d, rindOf true d⟩

def Gran.zero : Gran := ⟨0, zeroRind⟩

/-- Byte mask `m` as a mask of data bits. -/
def maskBits (m : BitVec 8) : Nat :=
  (List.range 8).foldl (fun x i => if m.getLsbD i then x ||| (0xFF <<< (8 * i)) else x) 0

/-- The merging lane of R68; a write of all 8 bytes is carried as it stands. -/
def mergeGran (old : Gran) (w : Machine.GWrite) : Gran :=
  if w.mask = 0xFF then ⟨w.d, w.r⟩
  else
    let k := maskBits w.mask
    let d := (w.d.toNat &&& k) ||| (old.d.toNat &&& (k ^^^ (2 ^ 64 - 1)))
    let d : Word := BitVec.ofNat 64 d
    ⟨d, rindOf (old.bad || w.bad) d⟩

/-- A granule after a write of some of its bytes, or of none. -/
def Gran.write (o : Gran) (w : Machine.GWrite) : Gran := if w.mask = 0 then o else mergeGran o w

/-- The merging lane logs an event when either of its inputs is bad (R68). -/
def mergeLogs (old : Gran) (w : Machine.GWrite) : Bool := w.mask != 0xFF && w.mask != 0 && (old.bad || w.bad)

/-! ## Granules of wider values -/

def Reg.gran {n : Nat} (x : Reg n) (j : Nat) : Gran :=
  ⟨BitVec.ofNat 64 (bits x.d.toNat (64 * j) 64), BitVec.ofNat 8 (bits x.r.toNat (8 * j) 8)⟩

def packNat (w : Nat) (l : List Nat) : Nat := l.foldr (fun x acc => x % 2 ^ w + (acc <<< w)) 0

def Reg.ofGrans (n : Nat) (l : List Gran) : Reg n :=
  ⟨BitVec.ofNat _ (packNat 64 (l.map (·.d.toNat))), BitVec.ofNat _ (packNat 8 (l.map (·.r.toNat)))⟩

def Reg.grans {n : Nat} (x : Reg n) : List Gran := (List.range n).map x.gran

/-- Data with fresh rinds (R65). -/
def Reg.fresh (n : Nat) (d : Nat) : Reg n :=
  ⟨BitVec.ofNat _ d, BitVec.ofNat _ (packNat 8 ((List.range n).map fun j => crc7 (bits d (64 * j) 64)))⟩

/-- A scalar result (R154). -/
def scalarOf (d : Nat) : Reg 1 := Reg.fresh 1 d

/-- All ones with good rinds: p0 (R143). -/
def predOnes : Reg 4 := Reg.fresh 4 (2 ^ 256 - 1)

/-- The first bad granule among those that `need` selects (R71). -/
def Reg.firstBad {n : Nat} (x : Reg n) (need : Nat → Bool) : Option (Nat × Gran) :=
  ((List.range n).find? fun j => need j && (x.gran j).bad).map fun j => (j, x.gran j)

namespace Machine

/-! ## Byte stores -/

/-- `n` bytes from `a` as a little-endian number (R9); an unlisted byte is 0. -/
def readCells (m : List Host.Cell) (a n : Nat) : Nat :=
  m.foldl (fun x c => if a ≤ c.1 ∧ c.1 < a + n then x ||| (c.2.toNat <<< (8 * (c.1 - a))) else x) 0

/-- The cells of `n` bytes of `v` at `a` that are not 0. -/
def cellsOf (a n v : Nat) : List Host.Cell :=
  (List.range n).filterMap fun i =>
    let b := bits v (8 * i) 8
    if b = 0 then none else some (a + i, BitVec.ofNat 8 b)

/-- Writes `n` bytes of `v` at `a`, keeping the canonical form. -/
def writeCells (m : List Host.Cell) (a n v : Nat) : List Host.Cell :=
  m.filter (fun c => decide (c.1 < a)) ++ cellsOf a n v ++ m.filter (fun c => decide (a + n ≤ c.1))

/-- The canonical form of a byte store: addresses strictly rising, no listed byte equal to 0. -/
abbrev CellsWf (m : List Host.Cell) : Prop := m.Pairwise (fun a b => a.1 < b.1) ∧ ∀ c ∈ m, c.2 ≠ 0

/-- The canonical form of a rind map: granule numbers strictly rising, no entry equal to the rind of zeros. -/
abbrev RindsWf (m : SMap Byte) : Prop := m.Pairwise (fun a b => a.1 < b.1) ∧ ∀ c ∈ m, c.2 ≠ zeroRind

/-- `Memory.wf`: a store in canonical form. -/
abbrev Store.Wf (m : Store) : Prop := CellsWf m.bytes ∧ RindsWf m.rinds

def Store.byte (m : Store) (a : Nat) : Byte := BitVec.ofNat 8 (readCells m.bytes a 1)

/-- Granule `g`: bytes 8g to 8g + 7 and their rind. -/
def Store.gran (m : Store) (g : Nat) : Gran := ⟨BitVec.ofNat 64 (readCells m.bytes (8 * g) 8), m.rinds.get zeroRind g⟩

/-- `n` granules from granule `g`. -/
def Store.grans (m : Store) (g n : Nat) : List Gran := (List.range n).map fun j => m.gran (g + j)

/-- `n` granules from granule `g` as one value. -/
def Store.reg (m : Store) (g n : Nat) : Reg n :=
  ⟨BitVec.ofNat _ (readCells m.bytes (8 * g) (8 * n)),
   BitVec.ofNat _ (packNat 8 ((List.range n).map fun j => (m.rinds.get zeroRind (g + j)).toNat))⟩

def Store.setGran (m : Store) (g : Nat) (x : Gran) : Store :=
  { bytes := writeCells m.bytes (8 * g) 8 x.d.toNat, rinds := m.rinds.set zeroRind g x.r }

/-- One granule write through the merging lane (R68). -/
def Store.write (m : Store) (w : GWrite) : Store :=
  if w.mask = 0 then m else m.setGran w.g (mergeGran (m.gran w.g) w)

/-- Granule writes one after another (R70). -/
def Store.writes (m : Store) (ws : List GWrite) : Store := ws.foldl Store.write m

/-- The granules at which the merging lanes log an event (R68). -/
def Store.mergeEvents : Store → List GWrite → List Nat
  | _, [] => []
  | m, w :: ws => (if mergeLogs (m.gran w.g) w then [w.g] else []) ++ (m.write w).mergeEvents ws

/-- The bytes that a list of granule writes covers. -/
def gwCovers (ws : List GWrite) (a : Nat) : Bool := ws.any fun w => w.g == a / 8 && w.mask.getLsbD (a % 8)

/-- `n` bytes of `v` at `a` as granule writes; `bad` is the badness of the source (R68) and the rind of a whole granule is
`rindOf false` of its data. -/
def gwBytes (a n v : Nat) (bad : Bool) : List GWrite :=
  if n = 0 then [] else
  (List.range ((a + n - 1) / 8 - a / 8 + 1)).map fun i =>
    let g := a / 8 + i
    let lo := max a (8 * g)
    let hi := min (a + n) (8 * g + 8)
    let m := ((2 ^ (hi - lo) - 1) <<< (lo - 8 * g))
    let d : Word := BitVec.ofNat 64 ((bits v (8 * (lo - a)) (8 * (hi - lo))) <<< (8 * (lo - 8 * g)))
    { g := g, d := d, r := rindOf bad d, bad := bad, mask := BitVec.ofNat 8 m }

/-- Whole granules of a value carried to granule `g` on, with one mask bit per byte (R66, R68). -/
def gwCarry {n : Nat} (g : Nat) (x : Reg n) (mask : Nat) : List GWrite :=
  (List.range n).filterMap fun j =>
    let m := bits mask (8 * j) 8
    if m = 0 then none
    else some { g := g + j, d := (x.gran j).d, r := (x.gran j).r, bad := (x.gran j).bad, mask := BitVec.ofNat 8 m }

end Machine
end Sys2Proof
end

