-- ==== Sys2Proof/Machine/Acc.lean ====
section
/-! DEFINITION. Accessors: the current tile, registers, special registers (Table 6-1), STATUS (Table 6-2), the calendar. -/

namespace Sys2Proof.Machine

/-! ## Tiles -/

def State.tileAt (s : State) (t : Tid) : Tile := s.tiles[t.val]

def State.setTile (s : State) (t : Tid) (x : Tile) : State := { s with tiles := s.tiles.set t.val x }

def State.modTile (s : State) (t : Tid) (f : Tile → Tile) : State := s.setTile t (f (s.tileAt t))

/-- The tile whose slots `exec` issues. -/
def State.tile (s : State) : Tile := s.tileAt s.cur

def State.onTile (s : State) (f : Tile → Tile) : State := s.modTile s.cur f

/-- SPANID (Table 1-2). -/
def spanOf (t : Tid) : Nat := t.val / 8

def tid (n : Nat) : Tid := Fin.ofNat 32 n

/-! ## Registers -/

/-- s0 reads as zero with rind 0x5D (R143). -/
def Tile.scalar (x : Tile) (n : Nat) : Reg 1 := if n = 0 then Reg.zero 1 else x.s.get (Reg.zero 1) n

/-- p0 reads as all ones with good rinds (R143). -/
def Tile.pred (x : Tile) (n : Nat) : Reg 4 := if n = 0 then predOnes else x.p.get (Reg.zero 4) n

def Tile.vec (x : Tile) (n : Nat) : Reg 32 := x.v.get (Reg.zero 32) n

def Tile.latch (x : Tile) (n : Nat) : Reg 32 := x.q.get (Reg.zero 32) n

/-- Accumulator row `z * 128 + row`. -/
def Tile.acc (x : Tile) (n : Nat) : Reg 64 := x.z.get (Reg.zero 64) n

def Tile.rowSum (x : Tile) (n : Nat) : Reg 1 := x.rs.get (Reg.zero 1) n

/-- A write to s0 is discarded (R143). -/
def Tile.setScalar (x : Tile) (n : Nat) (v : Reg 1) : Tile :=
  if n = 0 then x else { x with s := x.s.set (Reg.zero 1) n v }

/-- A write to p0 is discarded (R143). -/
def Tile.setPred (x : Tile) (n : Nat) (v : Reg 4) : Tile :=
  if n = 0 then x else { x with p := x.p.set (Reg.zero 4) n v }

def Tile.setVec (x : Tile) (n : Nat) (v : Reg 32) : Tile := { x with v := x.v.set (Reg.zero 32) n v }

def Tile.setLatch (x : Tile) (n : Nat) (v : Reg 32) : Tile := { x with q := x.q.set (Reg.zero 32) n v }

def Tile.setAcc (x : Tile) (n : Nat) (v : Reg 64) : Tile := { x with z := x.z.set (Reg.zero 64) n v }

def Tile.setRowSum (x : Tile) (n : Nat) (v : Reg 1) : Tile := { x with rs := x.rs.set (Reg.zero 1) n v }

/-- A scalar's 64 bits as a number. -/
def Tile.sv (x : Tile) (n : Nat) : Nat := (x.scalar n).d.toNat

/-- Bit 0 of a predicate, inverted by `neg` (R124). -/
def Tile.cond (x : Tile) (p : Nat) (neg : Bool) : Bool := bit (x.pred p).d.toNat 0 != neg

/-! ## Special registers -/

abbrev srSTATUS := 0x000
abbrev srCAUSE := 0x001
abbrev srTRAPPC := 0x002
abbrev srTRAPINFO := 0x003
abbrev srSLOTDONE := 0x004
abbrev srYBOUND := 0x005
abbrev srGANGID := 0x00C
abbrev srTASKID := 0x00D
abbrev srPDOM := 0x00E
abbrev srHBASE := 0x00F
abbrev srCASKAREA := 0x010
abbrev srFPCTL := 0x011
abbrev srDBGCTL := 0x012
abbrev srCVDIM := 0x013
abbrev srTSCR := 0x018
abbrev srTRAPNX := 0x01C
abbrev srLBEG := 0x020
abbrev srLFIN := 0x024
abbrev srLCNT := 0x028
abbrev srLLVL := 0x02C
abbrev srBFMT := 0x040

/-- A special register that is held as written. -/
def Tile.sreg (x : Tile) (n : Nat) : Word := x.sr.get 0 n

def Tile.setSreg (x : Tile) (n : Nat) (v : Word) : Tile := { x with sr := x.sr.set 0 n v }

def Tile.status (x : Tile) : Nat := (x.sreg srSTATUS).toNat

/-- Bits of STATUS (Table 6-2). -/
abbrev stTM := 0
abbrev stTDL := 1
abbrev stSV := 2
abbrev stTRP := 3
abbrev stWCOL := 8
abbrev stWCT := 9
abbrev stBCOL := 10
abbrev stERC := 11
abbrev stOFL := 12
abbrev stCVO := 13

def Tile.st (x : Tile) (b : Nat) : Bool := bit x.status b

def setBit (w : Nat) (b : Nat) (v : Bool) : Nat := if v then w ||| (1 <<< b) else w - (w &&& (1 <<< b))

def Tile.setSt (x : Tile) (b : Nat) (v : Bool) : Tile := x.setSreg srSTATUS (BitVec.ofNat 64 (setBit x.status b v))

def Tile.timed (x : Tile) : Bool := x.st stTM
def Tile.sv? (x : Tile) : Bool := x.st stSV
def Tile.trp (x : Tile) : Bool := x.st stTRP

/-- Width of a special register in bits (Table 6-1). -/
def sregWidth (n : Nat) : Nat :=
  match n with
  | 0x001 => 8 | 0x004 => 8 | 0x005 => 32 | 0x008 => 8 | 0x009 => 8 | 0x00A => 8 | 0x00B => 16 | 0x00C => 16 | 0x00D => 12
  | 0x00E => 16 | 0x02C => 3 | _ => 64

/-- BASINID and REACHRANK, latched at power-up (Table 1-2, R469). -/
def State.basinId (s : State) : Nat := match s.boot with | some b => b.basinId.toNat | none => 0
/-- REACHRANK (R13, R469): that of the configuration once an external link of the package has been brought up, till then BASINID. -/
def State.rank (s : State) : Nat := match s.boot with | some b => if s.joined then b.rank.toNat else b.basinId.toNat | none => 0
/-- The rank of the host die (R465). -/
def State.hostRank? (s : State) : Option Nat := s.boot.map fun b => b.hostRank.toNat
def State.hostRank (s : State) : Nat := s.hostRank?.getD 0

/-- A special register as it stands in this cycle (R162). -/
def State.readSreg (s : State) (t : Tid) (n : Nat) : Nat :=
  let x := s.tileAt t
  match n with
  | 0x006 => x.tcyc.toNat
  | 0x007 => s.ftime.toNat
  | 0x008 => t.val
  | 0x009 => spanOf t
  | 0x00A => s.basinId
  | 0x00B => s.rank
  | _ => (x.sreg n).toNat % 2 ^ sregWidth n

/-- PDOM of a tile. -/
def Tile.pdom (x : Tile) : BitVec 16 := (x.sreg srPDOM).truncate 16

/-- BFMT of a bank (Table 7-1). -/
def Tile.bfmt (x : Tile) (bank : Nat) : Nat := (x.sreg (srBFMT + bank)).toNat

def bfFmt (b : Nat) : Nat := bits b 0 8
def bfType (b : Nat) : Nat := bits b 0 5
def bfGroup (b : Nat) : Nat := bits b 5 2
def bfComp (b : Nat) : Nat := bits b 8 6
def bfRoff (b : Nat) : Nat := bits b 16 7
def bfRnd (b : Nat) : Nat := bits b 24 2
def bfSat (b : Nat) : Bool := bit b 26

/-! ## The calendar -/

/-- Entries are kept by cycle, then order, earlier insertions first. -/
def agendaIns (e : Entry) : List Entry → List Entry
  | [] => [e]
  | f :: l => if e.at_ < f.at_ ∨ (e.at_ = f.at_ ∧ e.ord < f.ord) then e :: f :: l else f :: agendaIns e l

def State.schedule (s : State) (at_ ord : Nat) (ev : Ev) : State := { s with agenda := agendaIns ⟨at_, ord, ev⟩ s.agenda }

/-- Schedules a row of the opcode table with its data. -/
def State.plan (s : State) (at_ ord : Nat) (i : Instr) (a : EvArg) : State := s.schedule at_ ord (.event i a)

/-- Orders within a cycle (R38): bindings first (R304), then reads, below 64, with copy reads after the others in the order of R185; then tile writes by TILEID, and
of one tile drain, T slot, engine 0, engine 1, span peers' engines; task and counter steps by TILEID; port steps last. -/
def ordBind : Nat := 0
def ordRead : Nat := 1
/-- A copy engine's place at the ports of tile `u` (R185); 2 is that of the tile's remote operations (R328). -/
def copyPlace (u t : Tid) (e : Bool) : Nat := if u = t then e.toNat else 3 + 2 * (t.val % 8) + e.toNat
def ordCopyRead (u t : Tid) (e : Bool) : Nat := 2 + copyPlace u t e
def ordWrite (t : Tid) (src : Nat) : Nat := 64 + 64 * t.val + src
def ordRemoteRead : Nat := 4
def ordRemoteWrite (t : Tid) : Nat := ordWrite t 6
/-- A row from the write queue goes before a row of its own cycle. -/
def ordCopyWrite (u t : Tid) (e queued : Bool) : Nat := ordWrite u (2 + 2 * copyPlace u t e + if queued then 0 else 1)
def ordEngine (t : Tid) : Nat := 3000 + t.val
def ordPort (rank : Nat) : Nat := 4000 + rank
/-- Behind everything else of a cycle. -/
def ordLate (t : Tid) : Nat := 20000 + t.val

def State.newId (s : State) : Nat × State := (s.nextId, { s with nextId := s.nextId + 1 })

/-! ## Free values (log entry 3) -/

def State.drawNat (s : State) : Nat × State := (Config.freeNat s.free, { s with free := s.free + 1 })
def State.drawBit (s : State) : Bool × State := (Config.freeBit s.free, { s with free := s.free + 1 })
def State.drawWord (s : State) : Word × State := (Config.freeWord s.free, { s with free := s.free + 1 })

/-! ## The bundle being issued -/

def Tile.pc (x : Tile) : Word := x.fq.headD 0

end Sys2Proof.Machine
end

