-- ==== Sys2Proof/Machine/Drain.lean ====
section
/-! DEFINITION. The rows that queued drains write (R264, R265, R267), and the count of writes pending at a scratchpad row (R188,
R191). -/

namespace Sys2Proof.Machine

def bankOf (a : Nat) : Nat := a / 32768
def rowOf (a : Nat) : Nat := a / 256

/-! ## Pending writes -/

/-- Counts a write as pending at its rows. -/
def Tile.addPend (x : Tile) (rows : List Nat) : Tile := { x with pend := rows.foldl (fun m r => m.modify 0 r (· + 1)) x.pend }

def Tile.subPend (x : Tile) (rows : List Nat) : Tile := { x with pend := rows.foldl (fun m r => m.modify 0 r (· - 1)) x.pend }

/-! ## Opcodes of the M slot (Table 9-3) -/

abbrev mMLDB := 1
abbrev mMMA := 2
abbrev mMMAZ := 3
abbrev mMMAC := 4
abbrev mMZERO := 5
abbrev mMZSET := 6
abbrev mMROWSUM := 7
abbrev mMZPC := 8
abbrev mMDRAIN := 9
abbrev mMZLD := 10
abbrev mMLDBT := 13

def MCmd.o (c : MCmd) : Nat := c.op.toNat
def MCmd.rows (c : MCmd) : Nat := c.f.rows.toNat
def MCmd.pitch (c : MCmd) : Nat := c.f.pitch.toNat

/-- Source address of row i: abase + i * pitch * 256 (R256). -/
def MCmd.addr (c : MCmd) (i : Nat) : Nat := c.base.d.toNat + i * c.pitch * 256

/-- The drain format (R264). -/
def MCmd.dfmt (c : MCmd) : Nat := c.f.sgnA.toNat + 2 * c.f.sgnB.toNat

/-! ## Drains -/

/-- The scratchpad rows that a drain writes at S + 8 + i (R264, R265). -/
def MCmd.drains (c : MCmd) (i : Nat) : List Nat :=
  if c.o ≠ mMDRAIN ∨ c.rows ≤ i then []
  else if c.dfmt = 3 then [rowOf (c.addr i), rowOf (c.addr i) + 128] else [rowOf (c.addr i)]

/-- The rows that a drain has not written when its engine has made cycle `mclk`. -/
def MCmd.undrained (c : MCmd) (mclk : Nat) : List Nat :=
  (List.range c.rows).flatMap fun i => if mclk < c.s + 8 + i then c.drains i else []

end Sys2Proof.Machine
end

