-- ==== Sys2Proof/Machine/Mem.lean ====
section
/-! DEFINITION. Events (R34, R467), accesses that perform at the L2 (R36, R68, R388, R389), L1 write-back and release (R46,
R202, R203). -/

namespace Sys2Proof.Machine

/-! ## Events -/

/-- Source classes (R467). -/
abbrev srcTile := 0
abbrev srcEngine := 1
abbrev srcPort := 2
abbrev srcTask := 3
abbrev srcFabric := 4
abbrev srcMem := 5
abbrev srcPower := 6
abbrev srcHost := 7

/-- Event kinds (R467). -/
abbrev evReject := 1
abbrev evRind := 2
abbrev evFailed := 3
abbrev evThrottle := 4
abbrev evDebug := 5
abbrev evRefusal := 6
abbrev evOther := 7

/-- Reports an event: the source's number always advances, and the record is dropped when the queue is full (R34, R467). -/
def State.event (s : State) (cls idx kind : Nat) (detail : Nat) : State :=
  let src := cls * 2 ^ 13 + idx % 2 ^ 13
  let seq := s.host.seqs.get 0 src
  let h : HostPort := { s.host with seqs := s.host.seqs.set 0 src (seq + 1) }
  let h : HostPort :=
    if h.eqTail - h.eqHead = h.eqSize then h
    else { h with
      eqTail := h.eqTail + 1,
      log := h.log ++ [{ place := h.eqBase.toNat + 32 * (h.eqTail.toNat % h.eqSize.toNat), seq := seq, src := BitVec.ofNat 16 src, kind := BitVec.ofNat 8 kind, ftime := s.ftime,
                         detail := BitVec.ofNat 128 detail }] }
  { s with host := h }

/-- The detail of a rind event (R73, R467): the place of the granule in bits 63:0 and what kind of place it is from bit 64 on:
0 basin memory by physical address, 1 scratchpad by address, 2 a register granule (kind·2^24 + number·2^8 + granule), 3 L1 by physical
address, 4 a window byte (window·2^40 + offset), 5 a collective's piece, 6 a virtual address, 7 host memory by address,
8 a counter (log entry 21). -/
def rindDetail (place a : Nat) : Nat := a % 2 ^ 64 + place * 2 ^ 64

abbrev inPad := 1
abbrev inReg := 2
abbrev inL1 := 3
abbrev inWindow := 4
abbrev inColl := 5
abbrev inVirt := 6
abbrev inHost := 7
abbrev inCounter := 8

/-- A granule of a register, by the kinds of Table 6-4 and 5 for a latch. -/
def regGran (kind n j : Nat) : Nat := kind * 2 ^ 24 + n * 2 ^ 8 + j

/-- One rind event for each granule of a list, by granule number (R68, R73). -/
def State.rindEvents (s : State) (cls idx place : Nat) (gs : List Nat) : State :=
  gs.foldl (fun s g => s.event cls idx evRind (rindDetail place (8 * g))) s

/-- One rind event for each register granule of a list. -/
def State.regEvents (s : State) (t : Tid) (ds : List Nat) : State :=
  ds.foldl (fun s d => s.event srcTile t.val evRind (rindDetail inReg d)) s

/-! ## Accesses at the L2 -/

/-- The task that is resident on a tile. -/
def State.taskOf (s : State) (t : Tid) : Option (Nat × TaskEnt) :=
  match (s.tileAt t).task with
  | none => none
  | some i => (s.tasks.get none i).map fun e => (i, e)

/-- The shadow tile of the tile's task that covers byte `a` (R389). -/
def State.shadowAt (s : State) (v : Option Tid) (a : Nat) : Option Shadow :=
  match v with
  | none => none
  | some t =>
    match s.taskOf t with
    | none => none
    | some (_, e) => e.shadows.find? fun h => h.bytes.contains a

/-- Granule `g` of basin memory as tile `v`'s accesses reach it, or as every other agent's do (R389). A granule that two tiles
share is gathered (R65). -/
def State.memGran (s : State) (v : Option Tid) (g : Nat) : Gran :=
  match (List.range 8).filterMap fun i => s.shadowAt v (8 * g + i) with
  | [] => s.mem.gran g
  | h :: hs =>
    if hs.length = 7 ∧ hs.all (· == h) then h.store.gran g
    else
      let d := packNat 8 ((List.range 8).map fun i =>
        match s.shadowAt v (8 * g + i) with
        | some h => (h.store.byte (8 * g + i)).toNat
        | none => (s.mem.byte (8 * g + i)).toNat)
      ⟨BitVec.ofNat 64 d, rindOf ((s.mem.gran g).bad || (h :: hs).any fun h => (h.store.gran g).bad) (BitVec.ofNat 64 d)⟩

/-- `n` granules of basin memory from granule `g`. -/
def State.memReg (s : State) (v : Option Tid) (g n : Nat) : Reg n := Reg.ofGrans n ((List.range n).map fun j => s.memGran v (g + j))

/-- Strides and dimensions of a record's levels, by rising stride. -/
def insLevel (p : Int × Nat) : List (Int × Nat) → List (Int × Nat)
  | [] => [p]
  | q :: l => if q.1 < p.1 || (q.1 == p.1 && q.2 ≤ p.2) then q :: insLevel p l else p :: q :: l

def bindLevels (r : Nat) : List (Int × Nat) :=
  (List.range (bits r 16 3)).foldl (fun l i => insLevel (sext 40 (bits r (256 + 40 * i) 40), bits r (128 + 20 * i) 20) l) []

/-- An element index reached from the top level down; 0 is left over at an element of a reverse-mappable record (R303). -/
def elemRest (n : Nat) : List (Int × Nat) → Nat
  | [] => n
  | (st, dim) :: l => elemRest (n - min (n / st.toNat) (dim - 1) * st.toNat) l

/-- The virtual address that pinned pages give a physical byte. -/
def Binding.vaOf (b : Binding) (pa : Nat) : Option Nat :=
  (b.pages.find? fun p => p.pa ≤ pa && pa < p.pa + p.size).map fun p => p.page * p.size + (pa - p.pa)

/-- An element of the binding covers a physical byte (R303). -/
def Binding.covers (b : Binding) (pa : Nat) : Bool :=
  match b.vaOf pa with
  | none => false
  | some va =>
    let r := b.record.toNat
    let w := Check.tyWidth (bits r 8 5)
    let n := 8 * (va - b.lo) / w
    let hit := fun (k : Nat) => decide (elemRest k (bindLevels r).reverse = 0)
    decide (b.lo ≤ va) && decide (va < b.hi) && (hit n || (w == 4 && hit (n + 1)))

/-- Keeps, for each cached tensor, its granule as HBM has it: without the bytes that writes dirty in the tensor's L2 tiles, with every
other write (R303, R305). -/
def State.keepOld (s : State) (w : GWrite) : State :=
  (s.binds.filter (·.cached)).foldl (fun s b =>
    let m : BitVec 8 := BitVec.ofNat 8 (((List.range 8).filter fun i => w.mask.getLsbD i && b.covers (8 * w.g + i)).map (2 ^ ·)).sum
    let rest := { w with mask := w.mask ^^^ m }
    let idn := bits b.record.toNat 24 16
    match s.undo.find? fun u => u.id == idn && u.g == w.g with
    | some u => { s with undo := s.undo.map fun v => if v == u then { v with mask := v.mask ||| m, old := v.old.write rest } else v }
    | none => if m = 0 then s else { s with undo := s.undo ++ [⟨idn, w.g, m, (s.mem.gran w.g).write rest⟩] }) s

/-- The bytes of a write that shadow tiles of the tile's task cover (R389). -/
def State.shadowMask (s : State) (v : Option Tid) (w : GWrite) : BitVec 8 :=
  BitVec.ofNat 8 (((List.range 8).filter fun i => w.mask.getLsbD i && (s.shadowAt v (8 * w.g + i)).isSome).map (2 ^ ·)).sum

/-- The part of a write that falls into a shadow tile. -/
def Shadow.part (h : Shadow) (w : GWrite) (m : BitVec 8) : GWrite :=
  { w with mask := BitVec.ofNat 8 (((List.range 8).filter fun i => m.getLsbD i && h.bytes.contains (8 * w.g + i)).map (2 ^ ·)).sum }

def Shadow.write (h : Shadow) (w : GWrite) (m : BitVec 8) : Shadow := { h with store := h.store.write (h.part w m) }

/-- The bytes `m` of a write go to the shadow tiles of the task on tile `v` (R389). -/
def State.shadowWrite (s : State) (v : Option Tid) (w : GWrite) (m : BitVec 8) : State :=
  match v with
  | none => s
  | some t =>
    match s.taskOf t with
    | none => s
    | some (i, e) =>
      let ev := e.shadows.any fun h => mergeLogs (h.store.gran w.g) (h.part w m)
      let s := { s with tasks := s.tasks.set none i (some { e with shadows := e.shadows.map fun h => h.write w m }) }
      if ev then s.event srcMem 0 evRind (8 * w.g) else s

/-- What a granule held before it is first written in this cycle stays known until the cycle ends (R38). -/
def State.keepWas (s : State) (g : Nat) : State :=
  if s.memWas.any fun e => e.1 == g then s else { s with memWas := (g, s.mem.gran g) :: s.memWas }

/-- A granule of basin memory as it stood before the writes of this cycle (R38 item 1). -/
def State.granWas (s : State) (g : Nat) : Gran := match s.memWas.find? fun e => e.1 == g with | some e => e.2 | none => s.mem.gran g

/-- A write to basin memory itself (R68). -/
def State.openWrite (s : State) (w : GWrite) : State :=
  let ev := mergeLogs (s.mem.gran w.g) w
  let s := (s.keepOld w).keepWas w.g
  let s := { s with mem := s.mem.write w }
  if ev then s.event srcMem 0 evRind (8 * w.g) else s

/-- A write that performs at the L2 (R68): through the tile's shadow where one covers the bytes (R389). -/
def State.memWrite (s : State) (v : Option Tid) (w : GWrite) : State :=
  let m := s.shadowMask v w
  let s := if m = 0 then s else s.shadowWrite v w m
  let rest := w.mask ^^^ m
  if rest = 0 then s else s.openWrite { w with mask := rest }

def State.memWrites (s : State) (v : Option Tid) (ws : List GWrite) : State := ws.foldl (fun s w => s.memWrite v w) s

/-! ## L1 -/

/-- Slots 0 to 511 are the ways of L1; from here on stand evicted lines that wait for grants or for their write-back (Table 7-6). -/
abbrev l1Ways := 512

/-- An evicted line that has not left yet. -/
def Tile.l1Leaving (x : Tile) (line : Nat) : Option (Nat × L1Line) :=
  x.l1.findSome? fun e => match e.2 with
    | some l => if l1Ways ≤ e.1 ∧ l.tag = line then some (e.1, l) else none
    | none => none

/-- A line by its physical line number: in the ways of its set, else among those that have not left. -/
def Tile.l1Find (x : Tile) (line : Nat) : Option (Nat × L1Line) :=
  match (List.range 8).findSome? fun w =>
    match x.l1.get none ((line % 64) * 8 + w) with
    | some l => if l.tag = line then some ((line % 64) * 8 + w, l) else none
    | none => none with
  | some r => some r
  | none => x.l1Leaving line

def Tile.l1Set (x : Tile) (slot : Nat) (l : Option L1Line) : Tile := { x with l1 := x.l1.set none slot l }

/-- The dirty bytes of a line as writes at the L2 (R69). -/
def L1Line.dirtyWrites (l : L1Line) : List GWrite := gwCarry (32 * l.tag) l.data l.dirty.toNat

/-- Dirty bytes are written back; they stay in L1, clean. -/
def State.writeBackLine (s : State) (t : Tid) (slot : Nat) : State :=
  match (s.tileAt t).l1.get none slot with
  | none => s
  | some l =>
    let s := s.memWrites (some t) l.dirtyWrites
    s.modTile t fun x => x.l1Set slot (some { l with dirty := 0 })

/-- The slots of L1 that hold a line. -/
def Tile.l1Slots (x : Tile) : List Nat := x.l1.map (·.1)

def Tile.l1Dirty (x : Tile) : Bool := x.l1.any fun e => match e.2 with | some l => l.dirty != 0 | none => false

def Tile.l1Pending (x : Tile) : Bool := x.l1.any fun e => match e.2 with | some l => l.pend != 0 | none => false

/-- The tile gives up its ownership of the words of a line at the L2 (R202). -/
def State.relinquishLine (s : State) (t : Tid) (line : Nat) : State :=
  { s with owner := s.owner.filter fun e => !(e.1 / 64 == line && e.2 == t.val + 1) }

/-- The acquire of R46: every word not owned becomes invalid; a pending word keeps its dirty bytes. -/
def Tile.acquire (x : Tile) : Tile :=
  { x with l1 := x.l1.map fun e => (e.1, e.2.map fun l => { l with v := l.v &&& l.own }) }

/-- R203, once the release is complete: every owned word is relinquished and all of L1 is invalid. -/
def State.clearL1 (s : State) (t : Tid) : State :=
  let s := { s with owner := s.owner.filter fun e => e.2 != t.val + 1 }
  s.modTile t fun x => { x with l1 := [], plru := [], fills := [] }

end Sys2Proof.Machine
end

