-- ==== Sys2Proof/Machine/TaskOps.lean ====
section
/-! DEFINITION. Task records (Tables 14-1 to 14-3), counters (R383), and how a task ends: failure, replay, release of its tile
(R203, R386, R403). -/

namespace Sys2Proof.Machine

/-! ## Task record fields -/

def recWord (r : BitVec 1536) (i : Nat) : Nat := bits r.toNat (64 * i) 64
def recVersion (r : BitVec 1536) : Nat := bits (recWord r 0) 0 8
def recPri (r : BitVec 1536) : Nat := bits (recWord r 0) 8 2
def recLevel (r : BitVec 1536) : Nat := bits (recWord r 0) 10 2
def recPlace (r : BitVec 1536) : Nat := bits (recWord r 0) 12 5
def recTimed (r : BitVec 1536) : Bool := bit (recWord r 0) 17
def recSv (r : BitVec 1536) : Bool := bit (recWord r 0) 18
def recRepl (r : BitVec 1536) : Bool := bit (recWord r 0) 19
def recNwait (r : BitVec 1536) : Nat := bits (recWord r 0) 20 3
def recNrd (r : BitVec 1536) : Nat := bits (recWord r 0) 23 3
def recNwr (r : BitVec 1536) : Nat := bits (recWord r 0) 26 3
def recGang (r : BitVec 1536) : Nat := bits (recWord r 0) 32 6
def recEntry (r : BitVec 1536) : Nat := bits (recWord r 1) 6 58 * 64
def recArg (r : BitVec 1536) : Nat := recWord r 2
def recDone (r : BitVec 1536) : Nat := bits (recWord r 3) 0 12
def recDv (r : BitVec 1536) : Bool := bit (recWord r 3) 12
def recRjob (r : BitVec 1536) : Nat := bits (recWord r 3) 24 4
def recMbase (r : BitVec 1536) : Nat := bits (recWord r 3) 32 6
def recWait (r : BitVec 1536) (j : Nat) : Nat := recWord r (4 + j)
def recBox (r : BitVec 1536) (j : Nat) : Nat := bits r.toNat (512 + 128 * j) 128

def boxId (b : Nat) : Nat := bits b 0 16
def boxLo (b l : Nat) : Nat := bits b (16 + 12 * l) 12
def boxExt (b l : Nat) : Nat := bits b (88 + 6 * l) 6

/-- Exclusive upper coordinate of a box along a level; an extent of 0 has no upper bound (Table 14-3). -/
def boxHi (b l : Nat) : Option Nat := if boxExt b l = 0 then none else some (boxLo b l + boxExt b l)

/-- Two boxes overlap: one id, and they intersect at every level (R382). -/
def boxOverlap (a b : Nat) : Bool :=
  boxId a == boxId b && (List.range 6).all fun l =>
    (match boxHi a l with | none => true | some h => decide (boxLo b l < h)) &&
    (match boxHi b l with | none => true | some h => decide (boxLo a l < h))

def recReads (r : BitVec 1536) : List Nat := (List.range (recNrd r)).map (recBox r)
def recWrites (r : BitVec 1536) : List Nat := (List.range (recNwr r)).map fun j => recBox r (4 + j)

/-! ## Counters -/

def State.counter (s : State) (k : Nat) : Reg 1 := s.counters.get (Reg.zero 1) k

/-- A counter write performs at the array, and is seen by checks 8 cycles later (R383). -/
def State.setCounter (s : State) (k : Nat) (v : Reg 1) : State :=
  ({ s with counters := s.counters.set (Reg.zero 1) k v }).schedule (s.now + 8) ordRead (.counterSeen k v)

/-- Adds to a counter: a poisoned counter stays poisoned (R383). -/
def State.addCounter (s : State) (k : Nat) (n : Nat) (bad : Bool) : State :=
  let o := (s.counter k).gran 0
  let d : Word := o.d + BitVec.ofNat 64 n
  let p := o.bad || bad
  let s := s.setCounter k ⟨d, (rindOf p d)⟩
  if p then s.event srcTask 0 evRind (rindDetail inCounter k) else s

/-- R387, R385: good and at or above the threshold, as checks see it. -/
def State.counterMet (s : State) (k thr : Nat) : Bool :=
  let g := (s.ctrSeen.get (Reg.zero 1) k).gran 0
  !g.bad && decide (thr ≤ g.d.toNat)

/-! ## The task table -/

def State.task (s : State) (i : Nat) : Option TaskEnt := s.tasks.get none i

def State.setTask (s : State) (i : Nat) (e : Option TaskEnt) : State := { s with tasks := s.tasks.set none i e }

def State.modTask (s : State) (i : Nat) (f : TaskEnt → TaskEnt) : State :=
  match s.task i with
  | none => s
  | some e => s.setTask i (some (f e))

/-- The task-table entries, by index. -/
def State.taskList (s : State) : List (Nat × TaskEnt) := s.tasks.filterMap fun e => e.2.map fun t => (e.1, t)

/-- The members of a gang, which share their place in spawn order. -/
def State.gangOf (s : State) (order : Nat) : List (Nat × TaskEnt) := s.taskList.filter fun e => e.2.order == order

/-- The first free index of the 4,096 entries, and how many are free. -/
def State.freeEntries (s : State) : List Nat := (List.range 4096).filter fun i => (s.task i).isNone

/-- The effect flag of the resident task is set by its first outward effect (R402). -/
def State.markEffect (s : State) (t : Tid) : State :=
  match (s.tileAt t).task with
  | none => s
  | some i => s.modTask i fun e => { e with effect := true }

/-- What is left of a copy engine without a task: the rows and reads that its emitted copies still have queued, and their translations. -/
def CopyEngine.ended (g : CopyEngine) : CopyEngine :=
  { CopyEngine.init with held := g.held, rq := g.rq, rdAt := g.rdAt, wq := g.wq }

/-- A tile without a task: its engines are idle. Results in flight whose values are there still land (R407), without their faults;
copies already emitted, and scratchpad, stay. Rows of drains that will not come are no longer pending. -/
def Tile.vacate (x : Tile) : Tile :=
  { x.subPend (x.mq.flatMap fun c => c.undrained x.mclk) with
    task := none, run := .idle, frozen := none, throttled := none,
    inflight := (x.inflight.filter fun l => !l.waiting).map fun l => if l.fault.isSome then { l with writes := [], fault := none } else l, snapshot := [], snapRpt := 0, oplog := [],
    logTraps := [], trapDue := none, heldX := none, dueF := [], heldF := [], heldT := [], stDue := 0, mDue := [], gaveUp := false, preempt := false, ceded := false,
    branch := none, rpt := 0, noBrk := false, brkAt := none, syncRest := false, atYield := false, mq := [], mheld := false, ce := x.ce.foldl (fun m p => m.set .init p.1 p.2.ended) [], mxAt := none,
    susp := none, claim := none }

/-- The tile is without a task: its locks go, and the tile is free or first makes the release of R203. -/
def State.leaveTile (s : State) (t : Tid) (run : Run) : State :=
  let s := s.modTile t fun x => { x.vacate with run := run }
  { s with locks := s.locks.filter fun l => l.tile != t }

/-- Granule writes without the bytes that shadow tiles of the tile's task cover. -/
def State.openPart (s : State) (t : Tid) (ws : List GWrite) : List GWrite :=
  (ws.map fun w => { w with mask := w.mask &&& ~~~s.shadowMask (some t) w }).filter fun w => w.mask != 0

/-- What a failing task has written to its shadow tiles and not yet sent there goes with them (R403): stores and atomics in flight,
dirty bytes of L1. -/
def State.dropShadowed (s : State) (t : Tid) : State :=
  let a := (s.agenda.filter fun e => match e.ev with
      | .l2Atomic u _ _ _ _ pa _ _ _ => !(u == t && (s.shadowAt (some t) pa).isSome)
      | _ => true).map fun e => { e with ev := match e.ev with
      | .l1Write u i ws => if u = t then .l1Write u i (s.openPart t ws) else e.ev
      | .l2Write u i ws => if u = t then .l2Write u i (s.openPart t ws) else e.ev
      | v => v }
  ({ s with agenda := a }).modTile t fun x => { x with l1 := x.l1.map fun (e : Nat × Option L1Line) => (e.1, e.2.map fun (l : L1Line) =>
    let keep := (s.openPart t l.dirtyWrites).foldl (fun (m : Nat) (w : GWrite) => m ||| (w.mask.toNat <<< (8 * (w.g % 32)))) 0
    { l with dirty := BitVec.ofNat 256 keep }) }

/-- The task of a tile fails: the tile is free after the release of R203. -/
def State.freeTile (s : State) (t : Tid) : State :=
  ((s.dropShadowed t).schedule (s.now + 1) (ordWrite t 1) (.l1Back t none)).leaveTile t .cleaning

/-- The root slot returns to EMPTY when its task retires or fails (R18). -/
def State.rootEnds (s : State) (e : TaskEnt) : State :=
  if e.root then { s with host := { s.host with rootSt := 0 } } else s

/-- One member of a failing gang: its tile is released and its shadow tiles dropped; then it is replayed or stays FAILED
(R403). The copies of a renamed task are dropped with its shadow tiles (log entry 17). -/
def State.failMember (s : State) (i reason : Nat) (replay : Bool) (cause : Nat) (info : Word) : State :=
  match s.task i with
  | none => s
  | some e =>
    let s := match e.tile with
      | some t => (s.freeTile t).modTile t fun x =>
          if e.shadows.isEmpty then x else { x with copies := x.copies.filter fun c => c.cfg.path == 0 || c.cfg.path == 1 }
      | none => s
    if replay then
      s.setTask i (some { e with st := .ready, place := e.order, tile := none, startAt := none, effect := false, gen := 0, fails := e.fails + 1, cask := none, gcask := none, pre := false, bypass := 0,
                                 shadows := [] })
    else
      let s := s.setTask i (some { e with st := .failed reason, tile := none, startAt := none, fails := e.fails + 1, shadows := [] })
      let s := s.rootEnds e
      s.event srcTask 0 evFailed (i + reason * 2 ^ 16 + cause * 2 ^ 24 + info.toNat * 2 ^ 64)

def TState.live : TState → Bool
  | .retired => false
  | .failed _ => false
  | _ => true

/-- A task fails, and its whole gang with it (R403, Table 14-7). -/
def State.failTask (s : State) (i reason : Nat) (cause : Nat) (info : Word) : State :=
  match s.task i with
  | none => s
  | some e =>
    let ms := (s.gangOf e.order).filter fun m => m.2.st.live
    let replay := ms.all fun m => recRepl m.2.record && !m.2.effect && !m.2.spent && decide (m.2.fails < 2)
    ms.foldl (fun s m => s.failMember m.1 reason replay cause info) s

/-- Each gang of some entries fails once (R403). -/
def State.failGangs (s : State) (es : List (Nat × TaskEnt)) (reason : Nat) : State :=
  ((es.map (·.2.order)).eraseDups).foldl (fun s o => match es.find? fun e => e.2.order == o with
    | some e => s.failTask e.1 reason 0 0
    | none => s) s

/-- The resident task of a tile fails. -/
def State.failTile (s : State) (t : Tid) (reason : Nat) (cause : Nat) (info : Word) : State :=
  match (s.tileAt t).task with
  | none => s
  | some i => s.failTask i reason cause info

end Sys2Proof.Machine
end

