-- ==== Sys2Proof/Machine/Ops.lean ====
section
/-! DEFINITION. The shared operations of issue: faults and their ranks (R413), freezes (R23), results in flight (R150), taking a
trap (R419) and returning from one (R421). -/

namespace Sys2Proof.Machine

/-! ## Faults -/

abbrev clsE : BitVec 4 := 1
abbrev clsT : BitVec 4 := 2
abbrev clsS : BitVec 4 := 3
abbrev clsI : BitVec 4 := 4
abbrev clsA : BitVec 4 := 5
abbrev clsW : BitVec 4 := 6
abbrev clsM : BitVec 4 := 7
abbrev clsX : BitVec 4 := 8
abbrev clsD : BitVec 4 := 9

/-- A fault that an instruction raises at issue, with its place in the order of R413: the lowest rank is taken. Encoding
conditions rank by their lowest bundle bit (R130). -/
abbrev Flt := Nat × TrapReq

def rankI (slot : Nat) : Nat := 1000 + slot
def rankT (slot : Nat) : Nat := 1020 + slot
def rankRec (slot : Nat) : Nat := 1040 + slot
def rankS (slot : Nat) : Nat := 1060 + slot
def rankW (slot : Nat) : Nat := 1080 + slot

/-- DBGCTL.HOST: debug events stop the tile for the host (R429). -/
def Tile.dbgHost (x : Tile) : Bool := bit (x.sreg srDBGCTL).toNat 2

/-- A fault at the bundle due (Table 15-5, first row). -/
def Tile.issueTrap (x : Tile) (cls low : BitVec 4) (info : Nat) : TrapReq :=
  { cls := cls, low := low, info := BitVec.ofNat 64 info, kind := .issue, pc := x.pc }

def Tile.encTrap (x : Tile) (e : EncErr) : Flt := (e.lo, x.issueTrap clsE (BitVec.ofNat 4 e.cause.low) e.info.toNat)

/-- A record check: where = 1, bits lo to hi of record `r` (R130). -/
def recInfo (slot r lo hi : Nat) : Nat := slot * 2 ^ 6 + lo * 2 ^ 10 + hi * 2 ^ 21 + 2 ^ 32 + r * 2 ^ 34

def Tile.recTrap (x : Tile) (slot r lo hi : Nat) : Flt := (rankRec slot, x.issueTrap clsE 0xB (recInfo slot r lo hi))

/-- CAUSE low bits of class I (R71). -/
def badLow (g : Gran) : BitVec 4 :=
  if g.r.getLsbD 7 then (if g.r.toNat % 128 = crc7 g.d.toNat then 2 else 3) else 1

/-- TRAPINFO of class I (Table 3-6). -/
def badInfo (slot opnd row gran : Nat) (g : Gran) : Nat :=
  slot * 2 ^ 7 + opnd * 2 ^ 10 + gran * 2 ^ 13 + row * 2 ^ 19 + crc7 g.d.toNat * 2 ^ 26 + g.r.toNat * 2 ^ 33

/-- The check of a consumer (R67, R71): the first bad granule among those needed. -/
def Tile.consume {n : Nat} (x : Tile) (slot opnd : Nat) (v : Reg n) (need : Nat → Bool) : List Flt :=
  match v.firstBad need with
  | none => []
  | some (j, g) => [(rankI slot, x.issueTrap clsI (badLow g) (badInfo slot opnd 0 j g))]

/-- A scalar that is read as a consumer. -/
def Tile.consumeS (x : Tile) (slot opnd n : Nat) : List Flt := x.consume slot opnd (x.scalar n) fun _ => true

def Tile.localT (x : Tile) (slot : Nat) (low : BitVec 4) (addr : Nat) : Flt := (rankT slot, x.issueTrap clsT low addr)

def Tile.classS (x : Tile) (slot : Nat) (low : BitVec 4) (info : Nat) : Flt := (rankS slot, x.issueTrap clsS low info)

/-- The fault of lowest rank, the earliest in the list among equals. -/
def pickFault : List Flt → Option Flt
  | [] => none
  | f :: l =>
    match pickFault l with
    | none => some f
    | some g => if g.1 < f.1 then some g else some f

/-! ## Results in flight -/

def Tile.addLanding (x : Tile) (l : Landing) : Tile := { x with inflight := x.inflight ++ [l] }

/-- A result that lands `lat` tile cycles after issue (R150). -/
def Tile.landing (x : Tile) (slot : Fin 8) (lat : Nat) (ws : List RWrite) : Landing :=
  { id := 0, due := x.rclk + lat, issue := x.rclk, tc := x.tcyc.toNat, slot := slot, pc := x.pc, writes := ws, fp := 0, st := 0, fault := none,
    waiting := false, hold := false }

def State.land (s : State) (slot : Fin 8) (lat : Nat) (ws : List RWrite) : State :=
  s.onTile fun x => x.addLanding (x.landing slot lat ws)

/-- A result that raises a fault at its cycle instead of its writes (R90); its flags are still set. -/
def State.landFlags (s : State) (slot : Fin 8) (lat : Nat) (ws : List RWrite) (fp st : Word) (fault : Option TrapReq) : State :=
  s.onTile fun x => x.addLanding { x.landing slot lat ws with fp := fp, st := st, fault := fault }

/-- A result whose value has not come yet (R204, R416): it is filled by its number. -/
def State.landWaiting (s : State) (slot : Fin 8) (lat : Nat) (ws : List RWrite) (id : Nat) : State :=
  s.onTile fun x => x.addLanding { x.landing slot lat ws with id := id, waiting := true }

/-- A waiting result that freezes the tile at its tile cycle (R23, R204, R211). -/
def State.landHeld (s : State) (slot : Fin 8) (lat : Nat) (ws : List RWrite) (id : Nat) : State :=
  s.onTile fun x => x.addLanding { x.landing slot lat ws with id := id, waiting := true, hold := true }

/-- Fills the waiting result `id`, in flight or in the snapshot buffer. -/
def Tile.fill (x : Tile) (id : Nat) (f : List RWrite → List RWrite) : Tile :=
  let g := fun l : Landing => if l.id = id ∧ l.waiting then { l with writes := f l.writes, waiting := false } else l
  { x with inflight := x.inflight.map g, snapshot := x.snapshot.map g }

/-- A waiting result whose value comes with the scalar `v`. -/
def fillScalar (v : Reg 1) (ws : List RWrite) : List RWrite :=
  ws.map fun w => match w with
    | .scalar n _ => .scalar n v
    | w => w

/-! ## Taking a trap (R414, R416, R419) -/

/-- The results in flight, with what is left of their latency. -/
def Tile.takeSnapshot (x : Tile) : Tile :=
  { x with snapshot := x.inflight.map (fun l => { l with due := l.due - x.rclk }), inflight := [],
           snapRpt := x.rpt, rpt := 0 }

def clear6 (a : Word) : Word := a &&& ~~~0x3F

/-- Table 15-5. -/
def Tile.returnState (x : Tile) (q : TrapReq) : Tile :=
  let f := fun i => clear6 (x.fq.getD i 0)
  let mode := BitVec.ofNat 64 ((x.st stSV).toNat + 2 * (x.st stTM).toNat)
  match q.kind with
  | .issue => ((((x.setSreg srTRAPPC q.pc).setSreg srSLOTDONE 0).setSreg srTRAPNX (f 1 + mode)).setSreg (srTRAPNX + 1) (f 2)).setSreg
      (srTRAPNX + 2) 0
  | .slots done => ((((x.setSreg srTRAPPC q.pc).setSreg srSLOTDONE (done.zeroExtend 64)).setSreg srTRAPNX (f 0 + mode)).setSreg
      (srTRAPNX + 1) (f 1)).setSreg (srTRAPNX + 2) (f 2)
  | .after => ((((x.setSreg srTRAPPC q.pc).setSreg srSLOTDONE 0xFF).setSreg srTRAPNX (f 0 + mode)).setSreg (srTRAPNX + 1)
      (f 1)).setSreg (srTRAPNX + 2) (f 2)

/-- The address of a class's handler (Table 15-1); HBASE bits 11:0 are ignored. -/
def Tile.handler (x : Tile) (cls : BitVec 4) : Word := (x.sreg srHBASE &&& ~~~0xFFF) + BitVec.ofNat 64 (256 * cls.toNat)

/-- Trap entry of a tile (R419). What was due and is not taken is held (R413), but for a step: the next comes after the first bundle
issued (R429). Class T that is due in the next cycle is held with its operand log. -/
def Tile.enterTrap (x : Tile) (q : TrapReq) : Tile :=
  let x := x.returnState q
  let x := x.takeSnapshot
  let x := (x.setSreg srCAUSE (BitVec.ofNat 64 (q.cls.toNat * 16 + q.low.toNat))).setSreg srTRAPINFO q.info
  let x := (((x.setSt stTRP true).setSt stSV true).setSt stTM false).setSt stTDL true
  let h := x.handler q.cls
  { x with fq := [h, h + 64, h + 128], run := .entering (x.rclk + 8), frozen := none, mheld := true, mxAt := none, branch := none, claim := none,
           trapDue := none, heldX := x.trapDue.filter fun q => !(q.cls == clsD && q.low == 3), logTraps := [], heldT := x.heldT ++ x.logTraps.filter (fun _ => q.kind == .after), syncRest := false,
           atYield := false, noBrk := false, brkAt := if x.noBrk || (q.cls == clsD && q.low == 1) then some x.pc else none,
           heldF := x.heldF ++ x.dueF, dueF := [],
           oplog := match q.kind with
             | .slots done => x.oplog.filter fun e => !done.getLsbD e.slot
             | _ => if x.logTraps.isEmpty then [] else x.oplog }

/-- A debug stop for the host (R430): stopped as by a trap, without a handler. -/
def Tile.stopForHost (x : Tile) (q : TrapReq) : Tile :=
  let x := x.takeSnapshot
  let x := (x.setSreg srTRAPINFO q.info).setSt stTDL true
  { x with run := .stopped, frozen := none, mheld := bit (x.sreg srDBGCTL).toNat 1, trapDue := none, atYield := false,
           noBrk := q.low == 1 || x.noBrk }

/-- Takes a trap on tile `t`. While TRP is 1 any trap is a double fault and the task fails with reason 5 (R424); a class M trap's
task fails when its handler ends (R424); a debug event stops for the host where DBGCTL.HOST was 1 at its bundle's issue (R163, R429), and
the host's own command, low bits 0, always does (R463). -/
def State.takeTrap (s : State) (t : Tid) (q : TrapReq) : State :=
  let x := s.tileAt t
  if x.trp then s.failTile t 5 0 0
  else if q.cls = clsD ∧ (q.low = 0 ∨ q.host) then
    (s.modTile t fun x => x.stopForHost q).event srcTile t.val evDebug q.low.toNat
  else s.modTile t fun x => { x.enterTrap q with gaveUp := q.cls == clsM, trapFt := s.ftime }

/-! ## Returning (R417, R421) -/

/-- The bundles that `ERET` puts into the fetch queue; a bundle to be finished in part stands before three others. -/
def Tile.returnQueue (x : Tile) : List Word :=
  let sd := x.sreg srSLOTDONE
  let nx := fun i => clear6 (x.sreg (srTRAPNX + i))
  let pc := clear6 (x.sreg srTRAPPC)
  if sd.toNat % 256 = 0 then [pc, nx 0, nx 1]
  else if sd.toNat % 256 < 0xFF then [pc, nx 0, nx 1, nx 2]
  else [nx 0, nx 1, nx 2]

/-- The snapshot is released: each entry lands at its remaining latency from result-clock cycle `c` (R417), and what was held is due
again (R413). -/
def Tile.restoreSnapshot (x : Tile) (c : Nat) : Tile :=
  { x with inflight := x.snapshot.map (fun l => { l with due := c + l.due }), snapshot := [], rpt := x.snapRpt, snapRpt := 0,
           mheld := false, dueF := x.dueF ++ x.heldF, heldF := [], logTraps := x.logTraps ++ x.heldT, heldT := [], trapDue := match x.trapDue with | some q => some q | none => x.heldX,
           heldX := none }

/-- The return of R421: a bundle whose BRK has stopped it does not stop again (R429). -/
def Tile.trapReturn (x : Tile) : Tile :=
  let nx0 := (x.sreg srTRAPNX).toNat
  let q := x.returnQueue
  let x := ((x.setSt stSV (bit nx0 0)).setSt stTM (bit nx0 1)).setSt stTRP false
  { x.restoreSnapshot x.rclk with fq := q, run := .running, noBrk := x.brkAt.isSome && x.brkAt == q.head?, brkAt := none, frozen := none }

/-! ## Issuing one slot -/

/-- A bundle whose unmarked slots `ERET` issues (R415, R421): it stands before the three bundles of the queue. -/
def Tile.inPart (x : Tile) : Bool := x.fq.length == 4

/-- A tile cycle: TCYC and the yield count rise, except in a handler (R24, R419, R427). -/
def Tile.tick (x : Tile) : Tile := if x.trp then x else { x with tcyc := x.tcyc + 1, yc := x.yc + 1 }

/-- The registers of a tile as an entry of the operand log has them. -/
def Tile.withLog (x : Tile) (e : LogEntry) : Tile := { x with s := e.sv, p := e.pv, v := e.vv, q := e.qv }

/-- The conditions of R128 that an instruction meets by itself, with its place in V0 or V1. -/
def staticErrs (i : Instr) : List EncErr :=
  (if i.v1Ok then [] else [encErr 1 .v1Only 0 9]) ++ encErrs i

def State.note (s : State) (n : Issued) : State := s.onTile fun x => { x with issued := n }

/-- The instruction acts. -/
def State.acted (s : State) : Host.Outcome State Fault Refusal := .next (s.note .acted)

/-- The instruction raises a fault: no slot of the bundle acts, and the trap is taken (R419). A bundle being finished in part
keeps its SLOTDONE (R415). -/
def State.raise (s : State) (f : Flt) : State :=
  let x := s.tile
  if x.inPart then
    let q := { f.2 with kind := .slots (BitVec.ofNat 8 (x.sreg srSLOTDONE).toNat) }
    ((s.onTile fun x => { x with fq := x.fq.tail }).takeTrap s.cur q).note (.trapped f.1)
  else (s.takeTrap s.cur f.2).note (.trapped f.1)

def State.raised (s : State) (f : Flt) : Host.Outcome State Fault Refusal := .next (s.raise f)

/-- The tile freezes before the bundle (R23); a freeze in free mode takes it out of its timing domain (R20). -/
def State.freeze (s : State) (w : Wait) : State :=
  s.onTile fun x => { (if x.timed then x else x.setSt stTDL true) with frozen := some w, issued := .froze }

/-- Issues one instruction: encoding conditions first (R131), then nothing if its condition is false (R124), then its faults in
the order of R413, then its wait, then its effect. `fix` is the state in which a fault is raised. -/
def State.issueFix (s : State) (i : Instr) (dyn : List EncErr) (cond : Bool) (faults : List Flt) (fix : Flt → State)
    (wait : Option (Wait × State)) (act : State) : Host.Outcome State Fault Refusal :=
  match EncErr.first (staticErrs i ++ dyn) with
  | some e => s.raised (s.tile.encTrap e)
  | none =>
    if cond then
      match pickFault faults with
      | some f => (fix f).raised f
      | none =>
        match wait with
        | some (w, s') => .next (s'.freeze w)
        | none => act.acted
    else s.acted

/-- An instruction whose faults change nothing before they are raised. -/
def State.issueSlot (s : State) (i : Instr) (dyn : List EncErr) (cond : Bool) (faults : List Flt) (wait : Option (Wait × State))
    (act : State) : Host.Outcome State Fault Refusal := s.issueFix i dyn cond faults (fun _ => s) wait act

/-- A privileged instruction below supervisor level (R127): the opcode field. -/
def privErr (k : Nat) (sv : Bool) : List EncErr := errIf (!sv) (encErr k .privileged 0 (opWidth k - 1))

/-- Cause 0x9 spans the whole bundle, and its slot is that of the whole bundle (R130, Table 5-14). -/
def comboErr (b : Bool) : List EncErr := errIf b ⟨.slotCombination, 9, 0, 511⟩

end Sys2Proof.Machine
end

