-- ==== Sys2Proof/Machine/Translate.lean ====
section
/-! DEFINITION. Address translation (R208, R434-R438) and the fetch buffer (R431-R433). -/

namespace Sys2Proof.Machine

/-! ## Permissions: bit 0 R, bit 1 W, bit 2 X, bit 3 U -/

abbrev needR : Nat := 1
abbrev needW : Nat := 2
abbrev needRW : Nat := 3
abbrev needX : Nat := 4

/-- TRAPINFO of a translation fault (R411). -/
def walkInfo (va level req : Nat) : Nat := va - va % 256 + level * 16 + req

/-- The level whose leaf has this page size. -/
def levelOf (size : Nat) : Nat := if size = 2 ^ 30 then 1 else if size = 2 ^ 21 then 2 else 3

/-- The failing permission with the lowest cause (R436, Table 15-3). -/
def permCause (perm need : Nat) (user : Bool) : Option Nat :=
  if bit need 0 && !bit perm 0 then some 0x9
  else if bit need 1 && !bit perm 1 then some 0xA
  else if bit need 2 && !bit perm 2 then some 0xB
  else if user && !bit perm 3 then some 0xC
  else none

def TlbEnt.holds (e : TlbEnt) (pdom : BitVec 16) (va : Nat) : Bool := e.pdom == pdom && va / e.size == e.page

/-- What a translation gives: a physical address, a fault (cause and level), or a miss. -/
inductive Xlat where
  | pa (a : Nat)
  | fault (cause level : Nat)
  | miss
deriving DecidableEq, Repr

/-- The use of a translation; of the causes of one malformed leaf the lowest is reported (R436). -/
def TlbEnt.use (e : TlbEnt) (va need : Nat) (user : Bool) : Xlat :=
  match e.fault with
  | some (c, l) => .fault (if c.toNat = 0xE then (permCause e.perm.toNat need user).getD 0xE else c.toNat) l
  | none =>
    match permCause e.perm.toNat need user with
    | some c => .fault c (levelOf e.size)
    | none => .pa (e.pa + va % e.size)

/-- An access in a domain and at a level (R434, R436): bits 63:48 are checked before any walk. -/
def Tile.translateFor (x : Tile) (pdom : BitVec 16) (sv : Bool) (va need : Nat) : Xlat :=
  if 2 ^ 48 ≤ va then .fault 0xD 0
  else match x.utlb.find? fun e => e.holds pdom va with
    | none => .miss
    | some e => e.use va need (!sv)

/-- An access by virtual address. -/
def Tile.translate (x : Tile) (va need : Nat) : Xlat := x.translateFor x.pdom x.sv? va need

/-! ## The walk (R435, R436) -/

/-- Low bit and width of the index at each level. -/
def levelBits : List (Nat × Nat) := [(39, 9), (30, 9), (21, 9), (16, 5)]

/-- A leaf is malformed when its address is not aligned to its page or its page names no memory (R435). -/
def leafBad (pa size pool : Nat) : Bool := pa % size != 0 || decide (2 ^ 36 - pool < pa + size)

/-- Walks from the table at `tbl`, level `l`. -/
def walkFrom (rd : Nat → Gran) (pool va : Nat) : List (Nat × Nat) → Nat → Nat → TlbEnt → TlbEnt
  | [], _, _, e => { e with fault := some (0xE, 3) }
  | (lo, w) :: ls, l, tbl, e =>
    let g := rd ((tbl + 8 * bits va lo w) / 8)
    let x := g.d.toNat
    let size := 2 ^ lo
    let fail := fun c => { e with fault := some (c, l), size := 2 ^ 16, page := va / 2 ^ 16 }
    if g.bad then fail 0xF
    else if !bit x 0 then fail 0x8
    else if ls.isEmpty || bit x 1 then
      if l = 0 || bits x 48 16 != 0 || bits x 6 6 != 0 || leafBad (bits x 12 36 * 4096) size pool then
        { fail 0xE with perm := BitVec.ofNat 4 (bits x 2 4) }
      else { e with page := va / size, size := size, pa := bits x 12 36 * 4096, perm := BitVec.ofNat 4 (bits x 2 4), fault := none }
    else if bits x 48 16 != 0 || bits x 6 6 != 0 then { fail 0xE with perm := 15 }
    else walkFrom rd pool va ls (l + 1) (bits x 12 36 * 4096) e

/-- The result of a walk: from the shared TLB, else from the tables, which are read through the L2 as linear traffic. -/
def State.walk (s : State) (pdom : BitVec 16) (va : Nat) : TlbEnt :=
  match s.stlb.find? fun e => e.holds pdom va with
  | some e => e
  | none =>
    let e : TlbEnt := { pdom := pdom, page := va / 2 ^ 16, size := 2 ^ 16, pa := 0, perm := 0, fault := some (0x8, 0) }
    let root := s.memGran none ((s.host.drtBase.toNat + 8 * pdom.toNat) / 8)
    if root.bad then { e with fault := some (0xF, 0) }
    else if !root.d.getLsbD 0 then e
    else walkFrom (s.memGran none) s.host.rpool.toNat va levelBits 0 (bits root.d.toNat 12 36 * 4096) e

/-- A walk for the page is on its way. -/
def State.walking (s : State) (t : Tid) (pdom : BitVec 16) (va : Nat) : Bool :=
  s.walks.any fun v => v.tile == t && v.pdom == pdom && v.va.toNat / 2 ^ 16 == va / 2 ^ 16

/-- So is one that leaves its fault entry, not that of a `GPREF` (R205). -/
def State.walkingFor (s : State) (t : Tid) (pdom : BitVec 16) (va : Nat) : Bool :=
  s.walks.any fun v => v.tile == t && v.pdom == pdom && v.va.toNat / 2 ^ 16 == va / 2 ^ 16 && v.req != 16

/-- The shared TLB has the translation that a walk is for. -/
def State.walkKnown (s : State) (w : Walk) : Bool := s.stlb.any fun e => e.holds w.pdom w.va.toNat

/-- The end of a walk is in the calendar. -/
def State.walkPlanned (s : State) (w : Walk) : Bool :=
  s.agenda.any fun e => match e.ev with | .event .translationWalkEnd a => a.walk == w | _ => false

/-- Walks that may run get their end: within 24 cycles when the shared TLB has the translation, else, for 32 at once, at a free time (R283,
R437, log entry 3). -/
def State.runWalks (s : State) : State :=
  let slow := (s.walks.filter fun w => !s.walkKnown w).take 32
  (s.walks.filter fun w => s.walkKnown w || slow.contains w).foldl (fun s w =>
    if s.walkPlanned w then s
    else
      let (n, s) := s.drawNat
      s.plan (s.now + 1 + (if s.walkKnown w then n % 24 else n)) ordRead .translationWalkEnd { EvArg.none with walk := w }) s

/-- Starts a walk unless one for the page is in flight (R208); one of `GPREF` leaves no fault entry, so that it does for none but another
(R205, R437). -/
def State.startWalkFor (s : State) (t : Tid) (pdom : BitVec 16) (va req : Nat) : State :=
  let w : Walk := { tile := t, pdom := pdom, va := BitVec.ofNat 64 va, req := req }
  if if req = 16 then s.walking t pdom va else s.walkingFor t pdom va then s else ({ s with walks := s.walks ++ [w] } : State).runWalks

def State.startWalk (s : State) (t : Tid) (va req : Nat) : State := s.startWalkFor t (s.tileAt t).pdom va req

/-- Adds a translation to a TLB of `cap` entries; a full TLB displaces an entry that the spec leaves open (log entry 3). -/
def tlbAdd (cap : Nat) (e : TlbEnt) (l : List TlbEnt) (victim : Nat) : List TlbEnt :=
  let l := l.filter fun f => !(f.pdom == e.pdom && f.size == e.size && f.page == e.page)
  e :: (if l.length < cap then l else l.eraseIdx (victim % cap))

/-- Copy engines hold the translations that come while a nest of theirs needs them (R283). -/
def Tile.engineHold (x : Tile) (e : TlbEnt) : Tile :=
  { x with ce := x.ce.map fun p => (p.1,
      if p.2.st = .armed ∨ p.2.st = .running ∨ (x.copies.any fun r => r.e.toNat == p.1 && r.pages.isEmpty) then { p.2 with held := e :: p.2.held }
      else p.2) }

/-- The walker has met a table entry with a bad rind: it logs an event (R34, R437), unless the shared TLB had the entry. -/
def State.walkLog (s : State) (e : TlbEnt) (va : Nat) : State :=
  match e.fault with
  | some (0xF, _) => if s.stlb.any fun f => f.holds e.pdom va then s else s.event srcMem 0 evRind (rindDetail inVirt va)
  | _ => s

/-- The events of the walks that the pages of a range need (R437). -/
def State.walkLogs (s : State) (pdom : BitVec 16) (va n : Nat) : State :=
  (List.range ((va + n - 1) / 2 ^ 16 - va / 2 ^ 16 + 1)).foldl (fun s k =>
    let a := (va / 2 ^ 16 + k) * 2 ^ 16
    if 2 ^ 48 ≤ a then s else s.walkLog (s.walk pdom a) a) s

/-- A walk ends (R208, R437): the shared TLB and the tile's micro-TLB receive the translation or the fault entry; a `GPREF` walk
that fails leaves nothing (R205). A bad rind logs an event. -/
def State.endWalk (s : State) (w : Walk) : State :=
  if w ∉ s.walks then s
  else
    let s := { s with walks := s.walks.erase w }
    let e := s.walk w.pdom w.va.toNat
    let s := (s.walkLog e w.va.toNat).runWalks
    if e.fault.isSome ∧ w.req = 16 then s
    else
      let (v, s) := s.drawNat
      let s := { s with stlb := tlbAdd 8192 e s.stlb v }
      let (u, s) := s.drawNat
      s.modTile w.tile fun x => { x.engineHold e with utlb := tlbAdd 64 e x.utlb u }

/-- TRANSLATION_WALK_END (R437). -/
def execTranslationWalkEnd (s : State) : Host.Outcome State Fault Refusal := .next (s.endWalk s.arg.walk)

/-! ## The fetch buffer: lines by virtual line number, 256 bytes each -/

def Tile.lineHeld (x : Tile) (va : Word) : Bool := (x.fbuf.get none (va.toNat / 256)).isSome

/-- The 512 bits of the bundle at `va` in the fetch buffer. -/
def Tile.bundleAt (x : Tile) (va : Word) : Option Nat :=
  (x.fbuf.get none (va.toNat / 256)).map fun r => bits r.d.toNat (512 * (va.toNat % 256 / 64)) 512

/-- Puts a line into the 128-line fetch buffer. -/
def Tile.putLine (x : Tile) (line : Nat) (v : Reg 32) (victim : Nat) : Tile :=
  let b := x.fbuf.set none line none
  let b := if b.length < 128 then b else b.eraseIdx (victim % 128)
  { x with fbuf := b.set none line (some v) }

/-- Fills a line whose translation is known. -/
def State.fillLine (s : State) (t : Tid) (line pa : Nat) : State :=
  let (v, s) := s.drawNat
  let r := s.memReg (some t) (pa / 256 * 32) 32
  s.modTile t fun x => x.putLine line r v

/-- FETCH_LINE_ARRIVAL (R433): the line named by `arg.n` arrives, if its page still translates for fetch. -/
def execFetchLineArrival (s : State) : Host.Outcome State Fault Refusal :=
  let t := s.arg.t
  match (s.tileAt t).translate (s.arg.n * 256) needX with
  | .pa a => .next (s.fillLine t s.arg.n a)
  | _ => .next s

/-- Brings in a line that a bundle due needs: a walk first when the translation is missing. -/
def State.fetchMiss (s : State) (t : Tid) (va : Nat) : State :=
  match (s.tileAt t).translate va needX with
  | .miss => s.startWalk t va 8
  | .pa _ =>
    let (n, s) := s.drawNat
    s.plan (s.now + 1 + n) ordRead .fetchLineArrival { EvArg.none with t := t, n := va / 256 }
  | .fault _ _ => s

/-- The walks of a prefill are over before its bundles issue: each leaves its translation or its fault entry (R432, R437). -/
def State.walkNow (s : State) (t : Tid) (va : Nat) : State :=
  if 2 ^ 48 ≤ va then s
  else match (s.tileAt t).translate va needX with
    | .miss =>
      let w : Walk := { tile := t, pdom := (s.tileAt t).pdom, va := BitVec.ofNat 64 va, req := 8 }
      { s with walks := w :: s.walks }.endWalk w
    | _ => s

/-- Fills the lines that translate (R421, R431): used at task start, at resumption and at return. -/
def State.prefill (s : State) (t : Tid) (lines : List Nat) : State :=
  lines.foldl (fun s l =>
    if ((s.tileAt t).fbuf.get none l).isSome then s
    else
      let s := s.walkNow t (l * 256)
      match (s.tileAt t).translate (l * 256) needX with
      | .pa a => s.fillLine t l a
      | _ => s) s

end Sys2Proof.Machine
end

