-- ==== Sys2Proof/Machine/Cycle.lean ====
section
/-! DEFINITION. the parts of TILE_CYCLE (R413): results land (R150-R153), collisions, and the trap that the tile takes before its bundle. -/

namespace Sys2Proof.Machine

/-! ## Landing a write -/

/-- A destination of R151: kind and number (Table 6-4). Latches, s0 and p0 are none. -/
def RWrite.dest : RWrite → Option (Nat × Nat)
  | .scalar n _ => if n = 0 then none else some (0, n.toNat)
  | .pred n _ _ => if n = 0 then none else some (1, n.toNat)
  | .vec n _ _ _ => some (2, n)
  | .latch _ _ _ => none
  | .acc n _ _ => some (3, n)
  | .sreg n _ => some (4, n)

/-- Granule by granule: a granule written whole is taken as it stands, one written in part passes a merging lane (R68, R216).
`mask` has one bit per byte. The second result is the granules at which the lane logs an event. -/
def mergeReg {n : Nat} (old new : Reg n) (mask : Nat) : Reg n × List Nat :=
  if mask = 2 ^ (8 * n) - 1 then (new, [])
  else
    let w := fun j => ({ g := j, d := (new.gran j).d, r := (new.gran j).r, bad := (new.gran j).bad,
                         mask := BitVec.ofNat 8 (bits mask (8 * j) 8) } : GWrite)
    (Reg.ofGrans n ((List.range n).map fun j => if (w j).mask = 0 then old.gran j else mergeGran (old.gran j) (w j)),
     (List.range n).filter fun j => mergeLogs (old.gran j) (w j))

/-- A predicate is merged bit by bit: a granule written in part passes the merging lane (R216); the second result is the granules at which
the lane logs an event. -/
def mergePred (old new : Reg 4) (mask : Nat) : Reg 4 × List Nat :=
  let part := fun j => bits mask (64 * j) 64 != 2 ^ 64 - 1 && bits mask (64 * j) 64 != 0
  (Reg.ofGrans 4 ((List.range 4).map fun j =>
    let m := bits mask (64 * j) 64
    let o := old.gran j
    let v := new.gran j
    if m = 2 ^ 64 - 1 then v
    else if m = 0 then o
    else
      let d : Word := BitVec.ofNat 64 ((v.d.toNat &&& m) ||| (o.d.toNat &&& (m ^^^ (2 ^ 64 - 1))))
      ⟨d, rindOf (o.bad || v.bad) d⟩),
   (List.range 4).filter fun j => part j && ((old.gran j).bad || (new.gran j).bad))

/-- One mask bit per 32-bit element as one bit per byte. -/
def elemBytes (n mask : Nat) : Nat := (List.range n).foldl (fun x i => if bit mask i then x ||| (0xF <<< (4 * i)) else x) 0

/-- The value of a special register after an `MTSR` lands (R88, R146, R170, R429). -/
def sregValue (x : Tile) (n v : Nat) : Nat :=
  match n with
  | 0x000 =>
    let o := x.status
    let sv := if bit o stSV then v &&& 4 else 0
    (o &&& 0xB) ||| sv ||| (v &&& 0x3F00)
  | 0x011 => v % 2 ^ 38
  | 0x012 => v % 8
  | 0x02C => min (v % 8) 4
  | _ => v % 2 ^ sregWidth n

/-- Applies one write; the second result is the register granules that log an event. -/
def Tile.write (x : Tile) (w : RWrite) : Tile × List Nat :=
  match w with
  | .scalar n v => (x.setScalar n.toNat v, [])
  | .pred n v m =>
    let r := mergePred (x.pred n.toNat) v m.toNat
    (x.setPred n.toNat r.1, if n = 0 then [] else r.2.map (regGran 1 n.toNat))
  | .vec n v m q =>
    let r := mergeReg (x.vec n) v m.toNat
    let x := x.setVec n r.1
    (match q with | some q => x.setLatch q.val r.1 | none => x, r.2.map (regGran 2 n))
  | .latch q v m =>
    let r := mergeReg (x.latch q.val) v m.toNat
    (x.setLatch q.val r.1, r.2.map (regGran 5 q.val))
  | .acc n v m =>
    let r := mergeReg (x.acc n) v (elemBytes 128 m.toNat)
    (x.setAcc n r.1, r.2.map (regGran 3 n))
  | .sreg n v => (x.setSreg n (BitVec.ofNat 64 (sregValue x n v.toNat)), [])

/-! ## The results of a cycle, in order (R151) -/

def landBefore (a b : Landing) : Bool := a.issue < b.issue || (a.issue == b.issue && a.slot.val ≤ b.slot.val)

def insLanding (l : Landing) : List Landing → List Landing
  | [] => [l]
  | m :: ms => if landBefore m l then m :: insLanding l ms else l :: m :: ms

def sortLandings (l : List Landing) : List Landing := l.foldl (fun acc x => insLanding x acc) []

/-- What has been applied so far in this cycle: the tile, who wrote each destination last, the collisions, and the events. -/
structure LandAcc where
  x : Tile
  last : List ((Nat × Nat) × Landing)
  cols : List ((Nat × Nat) × Landing × Landing)
  evs : List Nat

/-- Applies one write of a result. -/
def LandAcc.write (a : LandAcc) (l : Landing) (w : RWrite) : LandAcc :=
  let r := a.x.write w
  match w.dest with
  | none => { a with x := r.1, evs := a.evs ++ r.2 }
  | some d =>
    let col := match a.last.find? fun e => e.1 == d with
      | some e => [(d, l, e.2)]
      | none => []
    { x := r.1, last := (d, l) :: a.last.filter (fun e => !(e.1 == d)), cols := a.cols ++ col, evs := a.evs ++ r.2 }

/-- A result lands: its writes, unless it carries a fault. -/
def LandAcc.land (a : LandAcc) (l : Landing) : LandAcc :=
  match l.fault with
  | some _ => a
  | none => l.writes.foldl (fun a w => a.write l w) a

def minDest : List ((Nat × Nat) × Landing × Landing) → Option ((Nat × Nat) × Landing × Landing)
  | [] => none
  | c :: cs =>
    match minDest cs with
    | none => some c
    | some d => if c.1.1 < d.1.1 || (c.1.1 == d.1.1 && c.1.2 < d.1.2) then some c else some d

/-- TRAPINFO of a write collision (Table 6-4). -/
def collisionInfo (d : Nat × Nat) (win lose : Landing) : Nat :=
  min (win.tc - lose.tc) 2047 + lose.slot.val * 2 ^ 11 + win.slot.val * 2 ^ 15 + d.2 % 2 ^ 10 * 2 ^ 19 + d.1 * 2 ^ 29

/-- Lands the results due: writes in order, then the sticky flags (R91, R153), then the faults that are due. DEDUCED: the instruction concerned
in a collision is the one whose write stands (R175, log entry 10). -/
def Tile.landDue (x : Tile) : Tile × List Nat :=
  let now := fun l : Landing => l.due ≤ x.rclk && !l.waiting
  let ls := sortLandings (x.inflight.filter now ++ x.mxNow)
  let x0 := { x with inflight := x.inflight.filter (fun l => !now l), mxNow := [], stDue := 0 }
  let a := ls.foldl LandAcc.land ⟨x0, [], [], []⟩
  let wct := a.x.st stWCT
  let fp := ls.foldl (fun f l => f ||| l.fp) 0
  let st := ls.foldl (fun f l => f ||| l.st) (x.stDue ||| if a.cols.isEmpty then 0 else BitVec.ofNat 64 (2 ^ stWCOL))
  let y := a.x.setSreg srFPCTL (a.x.sreg srFPCTL ||| fp)
  let y := y.setSreg srSTATUS (y.sreg srSTATUS ||| st)
  let fs := ls.filterMap fun l => l.fault.map fun q => (l.issue, l.slot.val, q)
  let cs := match minDest a.cols with
    | some (d, w, l) =>
      if wct then [(w.issue, w.slot.val, ({ cls := clsS, low := 8, info := BitVec.ofNat 64 (collisionInfo d w l), kind := .issue,
                                            pc := w.pc } : TrapReq))] else []
    | none => []
  ({ y with dueF := y.dueF ++ fs ++ cs }, a.evs)

/-! ## The trap that is taken (R413 items 1 to 4) -/

def flBefore (a b : Nat × Nat × TrapReq) : Bool := a.1 < b.1 || (a.1 == b.1 && a.2.1 ≤ b.2.1)

def firstDue : List (Nat × Nat × TrapReq) → Option (Nat × Nat × TrapReq)
  | [] => none
  | f :: l =>
    match firstDue l with
    | none => some f
    | some g => if flBefore f g then some f else some g

/-- Class T of the memory slots of the bundle that issued before: every slot but the faulting ones is done (R414, R415). -/
def logTrap (l : List (Nat × TrapReq)) : Option TrapReq :=
  match l with
  | [] => none
  | e :: es =>
    let m := (e :: es).foldl (fun m e => m ||| (1 <<< e.1)) 0
    let q := (es.foldl (fun a b => if b.1 < a.1 then b else a) e).2
    some { q with kind := .slots (BitVec.ofNat 8 (0xFF ^^^ (m % 256))) }

/-- A class M event as a trap before the bundle due (R424). -/
def Tile.classM (x : Tile) (m : Nat × BitVec 4 × Word) : TrapReq := { cls := clsM, low := m.2.1, info := m.2.2, kind := .after, pc := x.pc }

/-- Takes the first trap that applies among class M and those of item 3 on; the collision trap names the bundle due (R152). -/
def State.pickHeld (s : State) (t : Tid) : State :=
  let x := s.tileAt t
  match x.mDue.find? fun m => m.1 == 0 with
  | some m => (s.modTile t fun x => { x with mDue := x.mDue.erase m }).takeTrap t (x.classM m)
  | none =>
    match firstDue x.dueF with
    | some f =>
      let q := match f.2.2.kind with | .issue => { f.2.2 with pc := x.pc } | _ => f.2.2
      (s.modTile t fun x => { x with dueF := x.dueF.erase f }).takeTrap t q
    | none =>
      match x.trapDue with
      | some q => if q.cls = clsD ∧ q.low = 3 ∧ x.rpt ≠ 0 then s else (s.modTile t fun x => { x with trapDue := none }).takeTrap t q
      | none => s

/-- Takes the first trap that applies. While the slots of a bundle finished in part have still to issue at its cycle, none does: they are
part of the return, and what was held with it comes behind them (R421). -/
def State.pickTrap (s : State) (t : Tid) : State :=
  let x := s.tileAt t
  if x.run = .running ∧ x.inPart then s
  else
    match if x.mDue.any (fun m => m.1 == 0) then none else logTrap x.logTraps with
    | some q => s.takeTrap t q
    | none => s.pickHeld t

/-- A tile that waits at `SYNC` takes only class M (R175), and so does one that spends the `SYNC` bundle's RPT cycles; one that has halted
fails on it (R424), and keeps class T of its last bundle's accesses as a fault that keeps it from retiring (R407). -/
def State.tileTrap (s : State) (t : Tid) : State :=
  let x := s.tileAt t
  match x.run with
  | .running =>
    if x.syncRest ∧ x.rpt ≠ 0 ∧ x.mDue.isEmpty then s else (s.modTile t fun x => { x with syncRest := false }).pickTrap t
  | .entering _ | .returning => s.pickTrap t
  | .sync .. =>
    match x.mDue with
    | m :: ms => (s.modTile t fun x => { x with mDue := ms }).takeTrap t (x.classM m)
    | [] => s
  | .halted =>
    if x.mDue.isEmpty then
      match logTrap x.logTraps with
      | some q => s.modTile t fun x => { x with dueF := x.dueF ++ [(x.rclk - 1, 0, q)], logTraps := [] }
      | none => s
    else s.failTile t 5 0 0
  | _ => s

/-- While a tile is frozen, a value that has not come keeps its tile cycle (R23). -/
def Tile.holdWaiting (x : Tile) : Tile :=
  if x.frozen.isSome then { x with inflight := x.inflight.map fun l => if l.waiting && l.hold then { l with due := l.due + 1 } else l } else x

/-- The results of a tile's cycle land: the result clock advances (R150). -/
def State.tileLand (s : State) (t : Tid) : State :=
  let x := s.tileAt t
  let r := ({ x with rclk := x.rclk + 1 } : Tile).holdWaiting.landDue
  (s.setTile t r.1).regEvents t r.2

end Sys2Proof.Machine
end

