-- ==== Sys2Proof/Machine/Release.lean ====
section
/-! DEFINITION. The release part of a fence, by its conditions (R46 to R48, R58), and the acquire part. -/

namespace Sys2Proof.Machine

/-- A scratchpad or L1 write of the tile, issued before cycle `c`, that has not performed (Table 2-4, TILE). -/
def Ev.storeOf (t : Tid) (c : Nat) : Ev → Bool
  | .padWrite u i .. => u == t && decide (i < c)
  | .padAtomic u i .. => u == t && decide (i < c)
  | .padInject u i .. => u == t && decide (i < c)
  | .tagWrite u i .. => u == t && decide (i < c)
  | .l1Write u i .. => u == t && decide (i < c)
  | .l2Write u i .. => u == t && decide (i < c)
  | _ => false

/-- A pipe push, counter write or global atomic of the tile, issued before cycle `c`, that has not performed (Table 2-4, BASIN). -/
def Ev.basinOf (t : Tid) (c : Nat) : Ev → Bool
  | .pipePush u i .. => u == t && decide (i < c)
  | .pipeMark u i .. => u == t && decide (i < c)
  | .counterWrite _ _ _ u i => u == some t && decide (i < c)
  | .l2Atomic u i .. => u == t && decide (i < c)
  | _ => false

def State.storesOut (s : State) (t : Tid) (c : Nat) : Bool := s.agenda.any fun e => e.ev.storeOf t c

def State.basinOut (s : State) (t : Tid) (c : Nat) : Bool := s.agenda.any fun e => e.ev.basinOf t c

/-- Copy nests that the tile has started still emit, or copies have writes to make (R46, `.c`). -/
def Tile.copiesOut (x : Tile) : Bool := !x.copies.isEmpty || x.ce.any fun e => e.2.st == .running || e.2.st == .armed

/-- Puts, gets, accumulates and atomics; the others are control operations (R324). -/
def OpKind.remote : OpKind → Bool
  | .put => true
  | .get => true
  | .acc _ _ => true
  | .amo _ _ => true
  | _ => false

/-- A remote operation of the tile that has not reached a level: accepted, or visible. -/
def State.opsOut (s : State) (t : Tid) (vis : Bool) : Bool :=
  s.ops.any fun o => o.kind.remote && o.tile == t && o.cask.isNone && !o.failed && !(if vis then o.vis else o.acc)

/-- A free-mode store of the tile to a line, or to any, that has not reached L1. -/
def State.l1Stores (s : State) (t : Tid) (line : Option Nat) : Bool :=
  s.agenda.any fun e => match e.ev with
    | .l1Write u _ ws => u == t && (match line with | none => true | some l => ws.any fun w => w.g / 32 == l)
    | _ => false

/-- The remote and registration conditions of R48; a free-mode store that has not reached L1 will leave dirty bytes there. -/
def State.remoteDone (s : State) (t : Tid) (scope : Nat) : Bool :=
  !s.l1Stores t none && !(s.tileAt t).l1Dirty && (scope == 0 || !(s.tileAt t).l1Pending) && (decide (scope < 2) || !s.opsOut t false) &&
  (decide (scope < 3) || !s.opsOut t true)

/-- The local conditions of R48, for accesses issued before cycle `b`: the own slots of a bundle are later than its release (R46). -/
def State.localDone (s : State) (t : Tid) (b scope : Nat) (c : Bool) : Bool :=
  !s.storesOut t b && !(c && (s.tileAt t).copiesOut) && (decide (scope < 2) || !s.basinOut t b)

/-- Closes the combinations that hold puts of the tile (R58). -/
def State.closeCombine (s : State) (t : Tid) : State :=
  { s with combine := s.combine.map fun c =>
      if s.ops.any fun o => o.tile == t && o.leader == c.1 then (c.1, c.2.1, c.2.2.1, false) else c }

/-- The actions of a release (R47): write-back of every dirty byte, as the tile's writes of the next cycle (R38), and from BASIN on the
buffer is emptied. -/
def State.startRelease (s : State) (t : Tid) (scope : Nat) : State :=
  let s := s.schedule (s.now + 1) (ordWrite t 1) (.l1Back t none)
  if 2 ≤ scope then s.closeCombine t else s

/-- The tile issues no later bundle, and the release of R203 begins (R407, R453). -/
def State.startHalt (s : State) : State := (s.startRelease s.cur 1).onTile fun x => { x with run := .halted }

/-- Class S of a release whose remote conditions do not hold, in timed mode (R48). -/
def Tile.releaseTrap (x : Tile) (slot scope : Nat) : Flt := x.classS slot 0 (4 * 2 ^ 12 + scope * 2 ^ 32)

/-- What a release of a scope does at issue: its fault in timed mode, its wait in free mode. -/
def State.releaseGate (s : State) (slot scope : Nat) (c : Bool) : List Flt × Option (Wait × State) :=
  let x := s.tile
  if x.timed then (if s.remoteDone s.cur scope then [] else [x.releaseTrap slot scope], none)
  else if s.localDone s.cur s.now scope c && s.remoteDone s.cur scope then ([], none)
  else ([], some (.release scope c, s.startRelease s.cur scope))

/-- A release that has been started is complete, for accesses issued before cycle `b`. -/
def State.releaseEnds (s : State) (t : Tid) (b scope : Nat) (c : Bool) : Bool := s.localDone t b scope c && s.remoteDone t scope

/-- The acquire part on the tile (R46), for accesses that issue from cycle `c` on. In timed mode it acts at the issue cycle (R48). In free
mode loads before it read L1 by `c + 3` (R204), and what has been filled until then is invalidated too, so that no later load reads what
is older than they have read (R50). -/
def State.acquireTile (s : State) (t : Tid) (c : Nat) : State :=
  if (s.tileAt t).timed then s.modTile t Tile.acquire
  else (s.modTile t fun x => { x.acquire with acqAt := c }).schedule (c + 3) (ordWrite t 0) (.acquireAgain t)

/-- The acquire part of a free-mode atomic with `.acq` when it has performed: the accesses behind it have waited (R51). -/
def State.acquireLate (s : State) (t : Tid) (acq : Bool) : State :=
  if acq && !(s.tileAt t).timed then s.modTile t Tile.acquire else s

end Sys2Proof.Machine
end

