-- ==== Sys2Proof/Machine/Flags.lean ====
section
/-! DEFINITION. Number formats and flags: exact values of the float formats (R85, R106), one rounding (R87, R89), special values
(R86), conversions (R94), FPCTL (R88, R90), and the arithmetic outside the tile (R93). -/

namespace Sys2Proof.Machine

open Check

/-! ## Exceptions, as bits in the order of Table 4-4 -/

abbrev flIV : Nat := 16
abbrev flDZ : Nat := 8
abbrev flOF : Nat := 4
abbrev flUF : Nat := 2
abbrev flIX : Nat := 1

/-- Bits of an encoding or an integer, and the exceptions of the operation that gave it. -/
abbrev Res := Nat × Nat

/-! ## Formats (Table 4-2) -/

/-- Widths of the exponent and the fraction. -/
structure Fmt where
  eb : Nat
  mb : Nat
deriving DecidableEq, Repr

def fmtOf (t : Nat) : Fmt := if t = 10 then ⟨8, 23⟩ else if t = 8 then ⟨8, 7⟩ else ⟨5, 10⟩

def Fmt.emin (f : Fmt) : Int := 2 - (2 ^ (f.eb - 1) : Nat)
/-- Exponent of the unit of a subnormal. -/
def Fmt.qmin (f : Fmt) : Int := f.emin - f.mb
def Fmt.infBits (f : Fmt) : Nat := (2 ^ f.eb - 1) * 2 ^ f.mb
def Fmt.nanBits (f : Fmt) : Nat := f.infBits + 2 ^ (f.mb - 1)
def Fmt.signBit (f : Fmt) (neg : Bool) : Nat := if neg then 2 ^ (f.eb + f.mb) else 0

/-- VAL of R106: a finite value is `m * 2 ^ e` with its sign. -/
inductive FVal where
  | nan (sig : Bool)
  | inf (neg : Bool)
  | fin (neg : Bool) (m : Nat) (e : Int)
deriving DecidableEq, Repr

def fval (t x : Nat) : FVal :=
  let f := fmtOf t
  let neg := bit x (f.eb + f.mb)
  let e := bits x f.mb f.eb
  let m := bits x 0 f.mb
  if e = 2 ^ f.eb - 1 then (if m = 0 then .inf neg else .nan (!bit m (f.mb - 1)))
  else if e = 0 then .fin neg m f.qmin
  else .fin neg (m + 2 ^ f.mb) (f.qmin + (e - 1 : Nat))

/-! ## FPCTL (Table 4-4) -/

/-- Lowest bit of a format's group. -/
def fpBase (t : Nat) : Nat := if t = 10 then 0 else if t = 8 then 12 else 24

def fpFzi (ctl t : Nat) : Bool := bit ctl (fpBase t)
def fpFzo (ctl t : Nat) : Bool := bit ctl (fpBase t + 1)
def fpEnable (ctl t : Nat) : Nat := bits ctl (fpBase t + 2) 5
def fpFlags (t fl : Nat) : Word := BitVec.ofNat 64 ((fl % 32) <<< (fpBase t + 7))

/-- An operand after FZI (R89). -/
def fin (ctl t x : Nat) : FVal :=
  let f := fmtOf t
  match fval t x with
  | .fin neg m e => if fpFzi ctl t ∧ m < 2 ^ f.mb then .fin neg 0 e else .fin neg m e
  | v => v

/-! ## Rounding (R87) -/

/-- `m / 2 ^ k` of a value with this sign, rounded to an integer; whether it was inexact. -/
def roundShift (mode : Nat) (neg : Bool) (m k : Nat) : Nat × Bool :=
  let q := m >>> k
  let r := m % 2 ^ k
  let up := match mode with
    | 0 => decide (2 ^ k < 2 * r) || (2 * r == 2 ^ k && k != 0 && q % 2 == 1)
    | 1 => false
    | 2 => neg && r != 0
    | _ => !neg && r != 0
  (if up then q + 1 else q, r != 0)

/-- `m * 2 ^ e` in units of `2 ^ q`. -/
def roundAt (mode : Nat) (neg : Bool) (m : Nat) (e q : Int) : Nat × Bool :=
  if q ≤ e then (m <<< (e - q).toNat, false) else roundShift mode neg m (q - e).toNat

/-- `num / den` rounded to an integer. -/
def roundRatio (mode : Nat) (neg : Bool) (num den : Nat) : Nat × Bool :=
  let q := num / den
  let r := num % den
  let up := match mode with
    | 0 => decide (den < 2 * r) || (2 * r == den && q % 2 == 1)
    | 1 => false
    | 2 => neg && r != 0
    | _ => !neg && r != 0
  (if up then q + 1 else q, r != 0)

/-- What an overflow gives (Table 4-3). -/
def overflowBits (f : Fmt) (mode : Nat) (neg : Bool) : Nat :=
  let toInf := match mode with | 0 => true | 1 => false | 2 => neg | _ => !neg
  f.signBit neg + (if toInf then f.infBits else f.infBits - 1)

/-- ROUND of R106 with the exceptions of R87 and R89, before FZO. -/
def roundF (t mode : Nat) (v : FVal) : Res :=
  let f := fmtOf t
  match v with
  | .nan _ => (f.nanBits, 0)
  | .inf neg => (f.signBit neg + f.infBits, 0)
  | .fin neg m e =>
    if m = 0 then (f.signBit neg, 0)
    else
      let top : Int := e + Nat.log2 m
      let q0 := top - f.mb
      let q := max q0 f.qmin
      let r := roundAt mode neg m e q
      let code := (q - f.qmin).toNat * 2 ^ f.mb + r.1
      if f.infBits ≤ code then (overflowBits f mode neg, flOF + flIX)
      else
        let full := (roundAt mode neg m e q0).1
        let tiny := decide (top < f.emin) && !(decide (top = f.emin - 1) && full == 2 ^ (f.mb + 1))
        (f.signBit neg + code, if r.2 then (if tiny then flUF + flIX else flIX) else 0)

/-- FZO of R106 on a result (R89). -/
def fzo (ctl t : Nat) (r : Res) : Res :=
  let f := fmtOf t
  let m := r.1 % 2 ^ (f.eb + f.mb)
  if fpFzo ctl t ∧ m ≠ 0 ∧ m < 2 ^ f.mb then (f.signBit (bit r.1 (f.eb + f.mb)), r.2 ||| flUF ||| flIX) else r

/-- A float result: rounded once, then FZO. -/
def fout (ctl t mode : Nat) (v : FVal) : Res := fzo ctl t (roundF t mode v)

/-- RNDI of R106. -/
def rndi (mode : Nat) (neg : Bool) (m : Nat) (e : Int) : Int × Bool :=
  let r := roundAt mode neg m e 0
  (if neg then -(r.1 : Int) else r.1, r.2)

/-! ## Exact operations: invalid or divide-by-zero, and the exact result (R86) -/

def FVal.isNan : FVal → Bool
  | .nan _ => true
  | _ => false

def FVal.isSnan : FVal → Bool
  | .nan s => s
  | _ => false

def FVal.neg : FVal → FVal
  | .nan s => .nan s
  | .inf n => .inf (!n)
  | .fin n m e => .fin (!n) m e

def FVal.abs : FVal → FVal
  | .nan s => .nan s
  | .inf _ => .inf false
  | .fin _ m e => .fin false m e

/-- A signed dyadic number in units of `2 ^ q`, for `q` at most its exponent. -/
def dyInt (neg : Bool) (m : Nat) (e q : Int) : Int :=
  let x : Int := ((m <<< (e - q).toNat : Nat) : Int)
  if neg then -x else x

/-- A sum; a zero sum takes its sign by R86. -/
def addV (mode : Nat) : FVal → FVal → Nat × FVal
  | .nan s, _ => (0, .nan s)
  | _, .nan s => (0, .nan s)
  | .inf a, .inf b => if a = b then (0, .inf a) else (flIV, .nan false)
  | .inf a, _ => (0, .inf a)
  | _, .inf b => (0, .inf b)
  | .fin na ma ea, .fin nb mb eb =>
    if ma = 0 ∧ mb = 0 then (0, .fin (if na = nb then na else mode == 2) 0 0)
    else
      let q := min ea eb
      let z := dyInt na ma ea q + dyInt nb mb eb q
      if z = 0 then (0, .fin (mode == 2) 0 0) else (0, .fin (decide (z < 0)) z.natAbs q)

def mulV : FVal → FVal → Nat × FVal
  | .nan s, _ => (0, .nan s)
  | _, .nan s => (0, .nan s)
  | .inf a, .inf b => (0, .inf (a != b))
  | .inf a, .fin b m _ => if m = 0 then (flIV, .nan false) else (0, .inf (a != b))
  | .fin a m _, .inf b => if m = 0 then (flIV, .nan false) else (0, .inf (a != b))
  | .fin a ma ea, .fin b mb eb => (0, .fin (a != b) (ma * mb) (ea + eb))

/-- A quotient, exact but for a last bit that stands for what is left over. -/
def divV : FVal → FVal → Nat × FVal
  | .nan s, _ => (0, .nan s)
  | _, .nan s => (0, .nan s)
  | .inf _, .inf _ => (flIV, .nan false)
  | .inf a, .fin b _ _ => (0, .inf (a != b))
  | .fin a _ _, .inf b => (0, .fin (a != b) 0 0)
  | .fin a ma ea, .fin b mb eb =>
    if mb = 0 then (if ma = 0 then (flIV, .nan false) else (flDZ, .inf (a != b)))
    else if ma = 0 then (0, .fin (a != b) 0 0)
    else
      let k := 64 + Nat.log2 mb
      let n := ma <<< k
      (0, .fin (a != b) (2 * (n / mb) + (if n % mb = 0 then 0 else 1)) (ea - eb - k - 1))

/-- The largest `r` with `r * r ≤ n`, one bit at a time from bit `k`. -/
def isqrtFrom : Nat → Nat → Nat → Nat
  | 0, _, r => r
  | k + 1, n, r => let c := r + 2 ^ k; isqrtFrom k n (if c * c ≤ n then c else r)

def isqrt (n : Nat) : Nat := isqrtFrom (Nat.log2 n / 2 + 1) n 0

/-- A square root, with its last bit as in `divV`. -/
def sqrtV : FVal → Nat × FVal
  | .nan s => (0, .nan s)
  | .inf n => if n then (flIV, .nan false) else (0, .inf false)
  | .fin n m e =>
    if m = 0 then (0, .fin n 0 0)
    else if n then (flIV, .nan false)
    else
      let m := if e % 2 = 0 then m else 2 * m
      let e := if e % 2 = 0 then e else e - 1
      let x := m <<< 128
      let r := isqrt x
      (0, .fin false (2 * r + (if r * r = x then 0 else 1)) (e / 2 - 65))

/-- Compares two values that are not NaN. -/
def FVal.cmp : FVal → FVal → Ordering
  | .inf a, .inf b => if a = b then .eq else if a then .lt else .gt
  | .inf a, _ => if a then .lt else .gt
  | _, .inf b => if b then .gt else .lt
  | .fin na ma ea, .fin nb mb eb => let q := min ea eb; compare (dyInt na ma ea q) (dyInt nb mb eb q)
  | _, _ => .eq

def FVal.isNeg : FVal → Bool
  | .nan _ => false
  | .inf n => n
  | .fin n _ _ => n

/-- Below, with −0 below +0 (R86). -/
def FVal.below (x y : FVal) : Bool :=
  match x.cmp y with
  | .lt => true
  | .gt => false
  | .eq => x.isNeg && !y.isNeg

/-- The smaller or the greater of two numbers. -/
def FVal.pick (mx : Bool) (x y : FVal) : FVal := if x.below y != mx then x else y

/-- IV of the operands: a signalling NaN (R86). -/
def ivOf (xs : List FVal) : Nat := if xs.any FVal.isSnan then flIV else 0

/-- A result of operands: a NaN among them gives the canonical NaN. DESIGN CHOICE: an FMA of 0 × ∞ with a quiet NaN addend raises nothing:
R86 lists 0 × ∞ as invalid, and a quiet NaN operand as raising nothing, and does not order the two (log entry 28). -/
def fres (ctl t mode : Nat) (xs : List FVal) (r : Nat × FVal) : Res :=
  if xs.any FVal.isNan then ((fmtOf t).nanBits, ivOf xs)
  else
    let o := fout ctl t mode r.2
    (o.1, r.1 ||| o.2)

/-! ## Element operations of one float type (R220, R221) -/

def fAdd (ctl t mode a b : Nat) : Res :=
  let x := fin ctl t a
  let y := fin ctl t b
  fres ctl t mode [x, y] (addV mode x y)

def fSub (ctl t mode a b : Nat) : Res :=
  let x := fin ctl t a
  let y := fin ctl t b
  fres ctl t mode [x, y] (addV mode x y.neg)

def fMul (ctl t mode a b : Nat) : Res :=
  let x := fin ctl t a
  let y := fin ctl t b
  fres ctl t mode [x, y] (mulV x y)

/-- `±(a * b) ± c`, exact and rounded once. -/
def fFma (np nc : Bool) (ctl t mode a b c : Nat) : Res :=
  let x := fin ctl t a
  let y := fin ctl t b
  let z := fin ctl t c
  let p := mulV x y
  let s := addV mode (if np then p.2.neg else p.2) (if nc then z.neg else z)
  fres ctl t mode [x, y, z] (p.1 ||| s.1, s.2)

def fAbd (ctl t mode a b : Nat) : Res :=
  let x := fin ctl t a
  let y := fin ctl t b
  let s := addV mode x y.neg
  fres ctl t mode [x, y] (s.1, s.2.abs)

def fAbs (ctl t a : Nat) : Res := let x := fin ctl t a; fres ctl t 0 [x] (0, x.abs)
def fNeg (ctl t a : Nat) : Res := let x := fin ctl t a; fres ctl t 0 [x] (0, x.neg)

/-- `VMIN`, `VMAX` (`num` false) and `VMINN`, `VMAXN` (`num` true). -/
def fMinMax (mx num : Bool) (ctl t a b : Nat) : Res :=
  let x := fin ctl t a
  let y := fin ctl t b
  let iv := ivOf [x, y]
  if x.isNan && y.isNan then ((fmtOf t).nanBits, iv)
  else if x.isNan || y.isNan then
    if num then
      let o := fout ctl t 0 (if x.isNan then y else x)
      (o.1, iv ||| o.2)
    else ((fmtOf t).nanBits, iv)
  else fout ctl t 0 (x.pick mx y)

def fDiv (ctl t mode a b : Nat) : Res :=
  let x := fin ctl t a
  let y := fin ctl t b
  fres ctl t mode [x, y] (divV x y)

def fSqrt (ctl t mode a : Nat) : Res := let x := fin ctl t a; fres ctl t mode [x] (sqrtV x)

/-- `VCMP` on floats (R226). -/
def fCmp (ctl t cond a b : Nat) : Bool × Nat :=
  let x := fin ctl t a
  let y := fin ctl t b
  if x.isNan || y.isNan then (cond == 1 || cond == 6, ivOf [x, y])
  else
    let c := x.cmp y
    (match cond with
      | 0 => c == .eq | 1 => c != .eq | 2 => c == .lt | 3 => c != .gt | 4 => c == .gt | 5 => c != .lt | _ => false, 0)

/-- Class number of R227, without FZI. -/
def fClass (t a : Nat) : Nat :=
  match fval t a with
  | .nan s => if s then 0 else 1
  | .inf n => if n then 2 else 9
  | .fin n m _ =>
    if m = 0 then (if n then 5 else 6)
    else if m < 2 ^ (fmtOf t).mb then (if n then 4 else 7)
    else (if n then 3 else 8)

/-! ## Integers (R83, R84, R106) -/

def tySigned (t : Nat) : Bool := t == 0 || t == 2 || t == 4 || t == 6 || t == 11

def ival (t x : Nat) : Int := if tySigned t then Sys2Proof.sext (tyWidth t) x else ((x % 2 ^ tyWidth t : Nat) : Int)

def iLow (t : Nat) : Int := if tySigned t then -(2 ^ (tyWidth t - 1) : Nat) else 0
def iHigh (t : Nat) : Int := if tySigned t then (2 ^ (tyWidth t - 1) : Nat) - 1 else (2 ^ tyWidth t : Nat) - 1

/-- SAT as an integer. -/
def satI (t : Nat) (x : Int) : Int := min (max x (iLow t)) (iHigh t)

def inRange (t : Nat) (x : Int) : Bool := decide (iLow t ≤ x) && decide (x ≤ iHigh t)

/-- SAT as bits. -/
def satT (t : Nat) (x : Int) : Nat := wrapI (tyWidth t) (satI t x)

/-- Saturates or wraps. -/
def satOr (sat : Bool) (t : Nat) (x : Int) : Nat := if sat then satT t x else wrapI (tyWidth t) x

/-! ## Conversions (Table 4-6) -/

def intVal (x : Int) : FVal := .fin (decide (x < 0)) x.natAbs 0

/-- Float to integer: SAT(RNDI); a NaN gives 0. DESIGN CHOICE: an input is out of range when its rounded value is, so that 255.4 to n8 by RNE
raises IX and no IV; R94 does not say whether the range is judged before or after RNDI (log entry 28). -/
def cvtFI (ctl ts td mode a : Nat) : Res :=
  match fin ctl ts a with
  | .nan _ => (0, flIV)
  | .inf n => (wrapI (tyWidth td) (if n then iLow td else iHigh td), flIV)
  | .fin n m e =>
    let r := rndi mode n m e
    if inRange td r.1 then (wrapI (tyWidth td) r.1, if r.2 then flIX else 0) else (satT td r.1, flIV)

def cvt (ctl ts td mode : Nat) (sat : Bool) (a : Nat) : Res :=
  if tyF ts then
    if tyF td then let x := fin ctl ts a; fres ctl td mode [x] (0, x) else cvtFI ctl ts td mode a
  else if tyF td then fout ctl td mode (intVal (ival ts a))
  else (satOr sat td (ival ts a), 0)

/-! ## Grouped formats (R96 to R98) -/

def grpScale (r : Nat) : Nat := bits r 0 16
def grpZp (tq r : Nat) : Nat := if tq = 12 then bits r 16 4 else bits r 16 8

/-- DEQ of R106; FZI is never applied to the scale. `out` passes the result through FZO where a tile lane computes it. -/
def deq (ctl t mode tq r q : Nat) : Res :=
  let x := intVal ((q : Int) - grpZp tq r)
  let y := fval 9 (grpScale r)
  -- q = zp gives a zero with the sign of the scale
  fres ctl t mode [x, y] (mulV x y)

/-- What quantising one element gives (R98). -/
inductive Qnt where
  | code (q : Nat) (fl : Nat)
  /-- out of range: SAT's code, and IV of a NaN in saturate mode is the caller's -/
  | out (satq : Nat) (nan snan : Bool)
  /-- a scale that is zero, infinite or a NaN -/
  | badScale (q : Nat)
deriving DecidableEq, Repr

/-- R98: the code of x in a group of record r. DESIGN CHOICE: FZI does not act on the scale; R97 says so of dequantisation, and nothing is
said of quantisation (log entry 28). -/
def quantise (ctl ts tq mode r x : Nat) : Qnt :=
  let zp := grpZp tq r
  match fval 9 (grpScale r) with
  | .fin sn sm se =>
    if sm = 0 then .badScale zp
    else match fin ctl ts x with
      | .nan s => .out zp true s
      | .inf n => .out (if n != sn then 0 else 2 ^ tyWidth tq - 1) false false
      | .fin n m e =>
        let neg := n != sn
        let num := if se ≤ e then m <<< (e - se).toNat else m
        let den := if se ≤ e then sm else sm <<< (se - e).toNat
        let k := roundRatio mode neg num den
        let q : Int := zp + (if neg then -(k.1 : Int) else k.1)
        if inRange tq q then .code q.toNat (if k.2 then flIX else 0) else .out (satT tq q) false false
  | _ => .badScale zp

/-- An outlier's value as FP32: RNE first if it is narrower, a NaN canonical (R99). -/
def asF32 (ts x : Nat) : Nat := (roundF 10 0 (fval ts x)).1

/-! ## Arithmetic outside the tile (R93): RNE, subnormals kept, canonical NaNs, no flags -/

def uAdd (t a b : Nat) : Nat := (fAdd 0 t 0 a b).1
def uMinMax (mx : Bool) (t a b : Nat) : Nat := (fMinMax mx false 0 t a b).1

/-! ## Class A (R90, Table 4-5) -/

def firstEx (fl : Nat) : BitVec 4 :=
  if bit fl 4 then 1 else if bit fl 3 then 2 else if bit fl 2 then 3 else if bit fl 1 then 4 else 5

def fpFormat (t : Nat) : Nat := if t = 10 then 0 else if t = 8 then 1 else 2

/-- The flags that elements raise, in element order: their OR, and class A when an enabled one is among them. -/
def classA (x : Tile) (slot t : Nat) (fls : List Nat) : Nat × Option TrapReq :=
  let all := fls.foldl (· ||| ·) 0
  let en := fpEnable (x.sreg srFPCTL).toNat t
  match fls.findIdx? fun f => f &&& en != 0 with
  | none => (all, none)
  | some i =>
    (all, some { cls := clsA, low := firstEx (all &&& en),
                 info := BitVec.ofNat 64 (i * 2 ^ 23 + slot * 2 ^ 20 + fpFormat t * 2 ^ 18 + all * 2 ^ 13), kind := .after, pc := x.pc })

end Sys2Proof.Machine
end

