-- ==== Sys2Proof/Machine/Operands.lean ====
section
/-! DEFINITION. Operand forms: vector operands (R121, R123, R124, R214 to R216), effective addresses (R116, R117, R178), bank
formats (R182 to R184), bank ports (R185 to R187), tags and pending rows (R189 to R191), and stores as granule writes (R198). -/

namespace Sys2Proof.Machine

open Check

/-! ## Vector operands -/

/-- The elements of width `w` bits of a 2048-bit value. -/
def elems (w x : Nat) : List Nat := (List.range (2048 / w)).map fun i => bits x (w * i) w

/-- A scalar as every element (R123); every nibble takes bits 3:0 for 4-bit elements. -/
def bcast (w x : Nat) : List Nat := List.replicate (2048 / w) (x % 2 ^ w)

/-- A vector register or latch by operand value. -/
def Tile.vreg (x : Tile) (n : Nat) : Reg 32 := if n < 320 then x.vec n else x.latch (n - 320)

/-- The elements of a source operand (Table 5-11). -/
def Tile.vElems (x : Tile) (n w : Nat) : List Nat :=
  if n < 324 then elems w (x.vreg n).d.toNat else bcast w (x.sv (n - 328))

/-- Which elements are active (R124, R214). -/
def actives (p : Nat) (neg : Bool) (w : Nat) : List Bool := (List.range (2048 / w)).map fun i => bit p (i * w / 8) != neg

def Tile.vActive (x : Tile) (f : VF) (w : Nat) : List Bool := actives (x.pred f.pred.toNat).d.toNat f.n w

/-- The granules from which the marked elements are taken. -/
def granNeed (w : Nat) (act : List Bool) (j : Nat) : Bool := ((act.drop (64 * j / w)).take (64 / w)).any id

/-- The check of a source operand (R67, R123, R216). -/
def Tile.vConsume (x : Tile) (slot opnd n w : Nat) (act : List Bool) : List Flt :=
  if n < 324 then x.consume slot opnd (x.vreg n) (granNeed w act)
  else if act.any id then x.consumeS slot opnd (n - 328) else []

/-- One mask bit per byte for elements of width `w` of which those with a value are written. -/
def byteMask (w : Nat) (out : List (Option Nat)) : Nat :=
  if w = 4 then
    (List.range 256).foldl (fun m k => if (out.getD (2 * k) none).isSome then m ||| (1 <<< k) else m) 0
  else packNat (w / 8) (out.map fun o => if o.isSome then 2 ^ (w / 8) - 1 else 0)

/-- What is written to each element (R214). -/
def vOut (act : List Bool) (z : Bool) (res : List Nat) : List (Option Nat) :=
  List.zipWith (fun a r => if a then some r else if z then some 0 else none) act res

/-- A vector result with fresh rinds; one that writes nothing is none (R214). -/
def vWrite (f : VF) (w : Nat) (out : List (Option Nat)) : List RWrite :=
  let m := byteMask w out
  if m = 0 then []
  else [.vec f.d.toNat (Reg.fresh 32 (packNat w (out.map fun o => o.getD 0))) (BitVec.ofNat 256 m) (some (if f.v1 then 1 else 0))]

def vSlotOf (f : VF) : Fin 8 := if f.v1 then 2 else 1

/-- A result lands, if there is one. -/
def State.vLand (s : State) (f : VF) (lat : Nat) (ws : List RWrite) : State := if ws.isEmpty then s else s.land (vSlotOf f) lat ws

/-- A result whose elements raise the flags `fls` in the group of float type `t` (R90). -/
def State.vLandF (s : State) (f : VF) (lat t : Nat) (ws : List RWrite) (fls : List Nat) : State :=
  if fls.all (· == 0) then s.vLand f lat ws
  else
    let c := classA s.tile (vSlot f) t fls
    s.landFlags (vSlotOf f) lat ws (fpFlags t c.1) 0 c.2

/-- The flags of the active elements. -/
def vFlags (act : List Bool) (res : List Res) : List Nat := List.zipWith (fun a r => if a then r.2 else 0) act res

/-- An element-wise instruction: the elements' results, with flags for a float type. -/
def State.vElementwise (s : State) (i : Instr) (f : VF) (lat : Nat) (srcs : List (Nat × Nat)) (res : List Res) :
    Host.Outcome State Fault Refusal :=
  let x := s.tile
  let w := tyWidth f.type.toNat
  let act := x.vActive f w
  s.issueSlot i [] true (srcs.flatMap fun o => x.vConsume (vSlot f) o.1 o.2 w act) none
    (s.vLandF f lat f.type.toNat (vWrite f w (vOut act f.z (res.map (·.1)))) (vFlags act res))

/-! ## Addresses (R116, R117, R178) -/

def wrap64 (x : Int) : Nat := wrapI 64 x

/-- The L slot's effective address. -/
def Tile.lAddr (x : Tile) (f : LF) : Nat := wrap64 (x.sv f.base.toNat + x.sv f.x.toNat + Sys2Proof.sext 15 f.imm15.toNat)

/-- The L slot's address without its index. -/
def Tile.lBase (x : Tile) (f : LF) : Nat := wrap64 (x.sv f.base.toNat + Sys2Proof.sext 15 f.imm15.toNat)

/-- The T slot's effective address. -/
def Tile.tAddr (x : Tile) (f : TF) : Nat := wrap64 (x.sv f.base.toNat + Sys2Proof.sext 11 f.imm11.toNat)

abbrev padSize : Nat := 2 ^ 21

/-- The first failure among addresses of active elements, `wb` bytes each: out of range, not aligned, or outside the row of the
first of them when one row access covers all (R178, R212). -/
def padFault (x : Tile) (slot wb : Nat) (one : Bool) (addrs : List Nat) : List Flt :=
  let row := (addrs.headD 0) / 256
  match addrs.find? fun a => padSize ≤ a || a % wb != 0 || (a + wb - 1) / 256 != a / 256 || (one && a / 256 != row) with
  | none => []
  | some a => [x.localT slot (if padSize ≤ a then 1 else if a % wb ≠ 0 then 3 else 2) a]

/-! ## Bank formats (R182 to R184) -/

/-- How a load decodes (Table 7-2): bits copied, converted, by group records, or not at all. -/
inductive Decode where
  | copy | cvt | deq | none
deriving DecidableEq, Repr

def decodeOf (bf t : Nat) : Decode :=
  let st := bfType bf
  let ws := tyWidth st
  let wt := tyWidth t
  if bfGroup bf ≠ 0 then
    if tyF t then .deq else if st = t ∨ ws = wt then .copy else .none
  else if st = t ∨ ws = wt then .copy
  else if ws = 4 ∧ tyI t ∧ wt ≤ 32 then .cvt
  else if (st = 0 ∨ st = 1) ∧ ((tyI t ∧ (wt = 16 ∨ wt = 32)) ∨ tyF t) then .cvt
  else if (st = 2 ∨ st = 3) ∧ (t = 4 ∨ t = 5 ∨ t = 10) then .cvt
  else if (st = 8 ∨ st = 9) ∧ t = 10 then .cvt
  else .none

/-- Address of the group record of the code at nibble offset `nib` of row `r` of a bank (R184). -/
def recAddr (bf r nib : Nat) : Nat :=
  let q := tyWidth (bfType bf)
  let g := 16 * 2 ^ bfGroup bf
  let k := nib * 4 / q
  bfComp bf * 32768 + bfRoff bf * 256 + (r * (2048 / q / g) + k / g) * 4

/-- A bank whose element width is not that of the type (R183, R194). -/
def bankClash (x : Tile) (w : Nat) (addrs : List Nat) : Bool :=
  addrs.any fun a => tyWidth (bfType (x.bfmt (bankOf a))) != w

/-- Class E 0xB naming bits 7:0 of BFMT. -/
def Tile.bfTrap (x : Tile) (slot : Nat) : Flt := x.recTrap slot 0 0 7

/-! ## Rows that an access touches -/

/-- The distinct rows of a list of addresses, rising. -/
def insRow (r : Nat) : List Nat → List Nat
  | [] => [r]
  | a :: l => if r < a then r :: a :: l else if r = a then a :: l else a :: insRow r l

def rowsOf (addrs : List Nat) : List Nat := addrs.foldl (fun l a => insRow (rowOf a) l) []

/-! ## Bank ports (R185 to R187), in real cycles -/

/-- A plan for the rows of one access: the real cycle of each row's port, how many cycles it is delayed, the first row delayed
by another access, and the first row past the limit. -/
structure PortPlan where
  at_ : List (Nat × Nat)
  delay : Nat
  busy : Option Nat
  past : Option Nat
deriving DecidableEq, Repr

/-- The first free cycle from `c` on (within a bounded search). -/
def firstFree (busy : Nat → Bool) : Nat → Nat → Nat
  | 0, c => c
  | n + 1, c => if busy c then firstFree busy n (c + 1) else c

/-- Rows of one bank are served in rising order, one per cycle from `t0`; `lim` of them are the instruction's own (R187). -/
def planPorts (busy : Nat → Nat → Bool) (t0 lim : Nat) (rows : List Nat) : PortPlan :=
  rows.foldl (fun (p : PortPlan) r =>
    let b := r / 128
    let mine := p.at_.filter fun e => e.1 / 128 == b
    let j := mine.length
    let from_ := max (t0 + j) (match mine.getLast? with | some e => e.2 + 1 | none => 0)
    let t := firstFree (fun c => busy c b) 256 from_
    { at_ := p.at_ ++ [(r, t)],
      delay := max p.delay (t - (t0 + min j (lim - 1))),
      busy := if p.busy.isNone && t != from_ then some r else p.busy,
      past := if p.past.isNone && decide (lim ≤ j) then some r else p.past }) ⟨[], 0, none, none⟩

/-- TRAPINFO of load/store class S (Table 7-9). -/
def sInfo (slot row found expected : Nat) : Nat :=
  slot * 2 ^ 8 + (row % 128) * 2 ^ 11 + (row / 128) * 2 ^ 18 + expected * 2 ^ 24 + found * 2 ^ 32

/-- Class S of a plan in timed mode: collision before over-subscription (Table 7-8). -/
def planFault (x : Tile) (slot : Nat) (p : PortPlan) : List Flt :=
  if !x.timed then []
  else match p.busy, p.past with
    | some r, _ => [x.classS slot 3 (sInfo slot r 0 0)]
    | none, some r => [x.classS slot 4 (sInfo slot r 0 0)]
    | none, none => []

/-- Reserves the ports and, in free mode, freezes for the delay from issue + 1 (R186, R187). -/
def State.claim (s : State) (kind : Nat) (p : PortPlan) : State :=
  s.onTile fun x =>
    let x := { x with resv := x.resv ++ p.at_.map fun e => (e.2, e.1 / 128, kind) }
    let x := if p.busy.isSome then x.setSt stBCOL true else x
    if p.delay = 0 then x
    else
      let n := match x.frozen with | some (.cycles n) => max n p.delay | _ => p.delay
      { (x.setSt stTDL true) with frozen := some (.cycles n) }

/-- An engine raises STATUS.BCOL: it stands after the results of the cycle, whatever an `MTSR` among them writes (R153). -/
def Tile.raiseBcol (x : Tile) : Tile := { x with stDue := x.stDue ||| BitVec.ofNat 64 (2 ^ stBCOL) }

/-- STATUS.BCOL is set by a collision that raises class S too (Table 7-3). -/
def State.bcol (s : State) (p : PortPlan) (f : Flt) : State :=
  if f.2.cls = clsS ∧ f.2.low = 3 ∧ p.busy.isSome then s.onTile fun x => x.setSt stBCOL true else s

/-! ## Tags and pending rows (R189 to R191) -/

def Tile.tag (x : Tile) (row : Nat) : Byte := x.tags.get 0 row

/-- A row's tag is written: every read of this cycle has the tag from before (R38). -/
def Tile.putTag (x : Tile) (row : Nat) (tag : Byte) : Tile := { x with tagNew := x.tagNew ++ [(row, tag)] }

/-- The tag writes of a cycle stand from its end on, the last one of a row (R189). -/
def Tile.settleTags (x : Tile) : Tile := { x with tags := x.tagNew.foldl (fun m p => m.set 0 p.1 p.2) x.tags, tagNew := [] }

def Tile.tagFault (x : Tile) (slot : Nat) (chk : Bool) (tag : Byte) (rows : List Nat) : List Flt :=
  if !chk then []
  else match rows.find? fun r => x.tag r != tag with
    | some r => [x.classS slot 1 (sInfo slot r (x.tag r).toNat tag.toNat)]
    | none => []

def Tile.isLate (x : Tile) (row : Nat) : Bool := x.late.get 0 row != 0

/-- A read of a pending row, or of a row with a late mark in timed mode. -/
def Tile.earlyFault (x : Tile) (slot : Nat) (rows : List Nat) : List Flt :=
  match rows.find? fun r => (x.st stERC && x.pend.get 0 r != 0) || (x.timed && x.isLate r) with
  | some r => [x.classS slot 2 (sInfo slot r 0 0)]
  | none => []

/-- In free mode a read of a row with a late mark waits for it (R191). -/
def State.lateWait (s : State) (rows : List Nat) : Option (Wait × State) :=
  let x := s.tile
  if x.timed then none else (rows.find? x.isLate).map fun r => (.lateRow r, s)

/-! ## Stores as granule writes (R66 to R68, R198) -/

/-- Bytes of one destination granule gathered so far: data, mask, and for each byte its source granule with "same byte position". -/
structure Gather where
  g : Nat
  d : Nat
  mask : Nat
  src : List (Nat × Nat × Bool)
deriving DecidableEq, Repr

/-- The distinct sources of a granule's bytes. -/
def Gather.srcs (e : Gather) : List (Nat × Bool) := (e.src.map (·.2)).eraseDups

def gatherByte (l : List Gather) (addr b sg : Nat) (same : Bool) : List Gather :=
  let g := addr / 8
  let k := addr % 8
  match l with
  | [] => [⟨g, b <<< (8 * k), 1 <<< k, [(k, sg, same)]⟩]
  | e :: l =>
    if e.g = g then
      ⟨g, (e.d &&& ((0xFF <<< (8 * k)) ^^^ (2 ^ 64 - 1))) ||| (b <<< (8 * k)), e.mask ||| (1 <<< k),
        e.src.filter (fun q => q.1 != k) ++ [(k, sg, same)]⟩ :: l
    else e :: gatherByte l addr b sg same

/-- Stores `n` source bytes from source byte `so` to address `a`. -/
def gatherEl (src : Nat) (l : List Gather) (e : Nat × Nat × Nat) : List Gather :=
  (List.range e.2.2).foldl (fun l k =>
    gatherByte l (e.1 + k) (bits src (8 * (e.2.1 + k)) 8) ((e.2.1 + k) / 8) ((e.1 + k) % 8 == (e.2.1 + k) % 8)) l

/-- Granule writes of elements (address, source byte, bytes) in rising element index: a granule that comes whole from one source
granule is carried, any other goes to the merging lane. -/
def scatter {n : Nat} (src : Reg n) (es : List (Nat × Nat × Nat)) : List GWrite :=
  (es.foldl (gatherEl src.d.toNat) []).map fun e =>
    let d : Word := BitVec.ofNat 64 e.d
    match e.mask, e.srcs with
    | 0xFF, [(k, true)] => { g := e.g, d := d, r := (src.gran k).r, bad := (src.gran k).bad, mask := 0xFF }
    | m, ks =>
      let p := ks.any fun k => (src.gran k.1).bad
      { g := e.g, d := d, r := rindOf p d, bad := p, mask := BitVec.ofNat 8 m }

/-- The elements of a contiguous store from address `a`: the active ones, `wb` bytes each. -/
def runEls (a wb : Nat) (act : List Bool) : List (Nat × Nat × Nat) :=
  (List.range (256 / wb)).filterMap fun i => if act.getD i false then some ((a + i * wb) % 2 ^ 64, i * wb, wb) else none

end Sys2Proof.Machine
end

