-- ==== Sys2Proof/Machine/Stream.lean ====
section
/-! DEFINITION. The scratchpad rows that queued matrix commands read and write, by engine cycle (R253, R256, R260, R263, R267,
R268), and the bank ports that they take from other accesses (R185). -/

namespace Sys2Proof.Machine

/-! ## Convolution (R259, R260) -/

/-- What a convolution step reads for a row: the address of its bank row, the fill row, or nothing past the batch. -/
inductive ConvRow where
  | bank (a : Nat) | fill | past
deriving DecidableEq, Repr

def convRow (dim geo off base pitch i : Nat) : ConvRow :=
  let ho := bits geo 0 16
  let wo := bits geo 16 16
  let m := bits off 0 24 + i
  if bits dim 32 16 * ho * wo ≤ m then .past
  else
    let n := m / (ho * wo)
    let y : Int := (m % (ho * wo) / wo * bits geo 32 4 + bits off 24 8 * bits geo 40 4 : Nat) - (bits geo 48 8 : Int)
    let x : Int := (m % wo * bits geo 36 4 + bits off 32 8 * bits geo 44 4 : Nat) - (bits geo 56 8 : Int)
    if y < 0 ∨ (bits dim 0 16 : Int) ≤ y ∨ x < 0 ∨ (bits dim 16 16 : Int) ≤ x then .fill
    else .bank (base + (((n * bits dim 0 16 + y.toNat) * bits dim 16 16 + x.toNat) * pitch + bits off 40 8) * 256)

def MCmd.conv (c : MCmd) (i : Nat) : ConvRow :=
  match c.cv with
  | [dim, geo, off] => convRow dim.toNat geo.toNat off.toNat c.base.d.toNat c.pitch i
  | _ => .past

/-! ## Rows -/

/-- The A-stream window of a command: how many cycles from S + 1 (Table 9-6). -/
def MCmd.window (c : MCmd) : Nat :=
  if c.o = mMZPC then 1
  else if [mMLDB, mMLDBT, mMMA, mMMAZ, mMMAC, mMROWSUM, mMZLD].contains c.o then c.rows else 0

/-- A row of group records of a QG image for bank row `r` (R184, R253): its scratchpad row. -/
def recRow (bf r : Nat) : Nat := rowOf (recAddr bf r 0)

/-- The scratchpad rows read at S + 1 + i through the A-stream port. DEDUCED: a pair whose bank row passes row 127 goes on into the next bank (R253,
log entry 8). -/
def MCmd.reads (c : MCmd) (i : Nat) : List Nat :=
  if c.window ≤ i then []
  else
    let r := rowOf (c.addr i)
    if c.o = mMLDB ∨ c.o = mMLDBT then
      match c.cv with
      | [b0, b1] =>
        if bfGroup b0.toNat ≠ 0 then [r, r + 128, recRow b0.toNat (r % 128), recRow b1.toNat (r % 128)] else [r, r + 128]
      | _ => [r, r + 128]
    else if c.o = mMZLD then [r, r + 128]
    else if c.o = mMMAC then (match c.conv i with | .bank a => [rowOf a] | _ => [])
    else [r]

/-! ## Ports at a real cycle -/

/-- A queued command reads bank `bank` through the A-stream port at cycle `cyc`. -/
def Tile.streamAt (x : Tile) (now cyc bank : Nat) : Bool :=
  !x.mheld && x.mq.any fun c =>
    let e := x.mclk + (cyc - now)
    decide (c.s < e) && (c.reads (e - c.s - 1)).any fun r => r / 128 == bank

/-- A drain row holds the write port of bank `bank` at cycle `cyc`. -/
def Tile.drainAt (x : Tile) (now cyc bank : Nat) : Bool :=
  !x.mheld && x.mq.any fun c =>
    let e := x.mclk + (cyc - now)
    decide (c.s + 8 ≤ e) && (c.drains (e - c.s - 8)).any fun r => r / 128 == bank

/-- The write port is taken for a T-slot access (R185, R186). -/
def Tile.writeBusy (x : Tile) (now cyc bank : Nat) : Bool :=
  x.drainAt now cyc bank || x.resv.any fun r => r.1 == cyc && r.2.1 == bank && r.2.2 == 2

/-- The read port is taken for an L-slot access. -/
def Tile.readBusy (x : Tile) (cyc bank : Nat) : Bool := x.resv.any fun r => r.1 == cyc && r.2.1 == bank && r.2.2 == 0

/-- One of the ports that a scratchpad atomic or an `RINJ` of a row uses is taken (R185). -/
def Tile.bothBusy (x : Tile) (now cyc bank : Nat) : Bool :=
  x.writeBusy now cyc bank || x.streamAt now cyc bank || x.resv.any fun r => r.1 == cyc && r.2.1 == bank && r.2.2 != 2

end Sys2Proof.Machine
end

