-- ==== Sys2Proof/Machine/Scalar.lean ====
section
/-! DEFINITION. The S slot: scalar and predicate instructions, special-register moves (R154-R162). -/

namespace Sys2Proof.Machine

open Check

/-! ## Results (R155-R161) -/

def imm64 (f : SF) : Nat := wrapI 64 (sext 32 f.imm32.toNat)

def s64 (a : Nat) : Int := sext 64 a

/-- SAT to `.i64` (R106). -/
def satI64 (x : Int) : Nat := wrapI 64 (max (-(2 ^ 63 : Int)) (min x (2 ^ 63 - 1)))

def opAdd (a b : Nat) : Nat := (a + b) % 2 ^ 64
def opSub (a b : Nat) : Nat := (a + (2 ^ 64 - b)) % 2 ^ 64
def opMul (a b : Nat) : Nat := a * b % 2 ^ 64
def opMulhi (a b : Nat) : Nat := wrapI 64 (s64 a * s64 b / 2 ^ 64)
def opMulhn (a b : Nat) : Nat := a * b / 2 ^ 64
/-- Truncates toward zero; b = 0 gives -1 (R157). -/
def opDivi (a b : Nat) : Nat := if b = 0 then 2 ^ 64 - 1 else wrapI 64 (Int.tdiv (s64 a) (s64 b))
def opDivn (a b : Nat) : Nat := if b = 0 then 2 ^ 64 - 1 else a / b
/-- The sign of the dividend; b = 0 gives a (R157). -/
def opRemi (a b : Nat) : Nat := if b = 0 then a else wrapI 64 (Int.tmod (s64 a) (s64 b))
def opRemn (a b : Nat) : Nat := if b = 0 then a else a % b
def opAnd (a b : Nat) : Nat := a &&& b
def opOr (a b : Nat) : Nat := a ||| b
def opXor (a b : Nat) : Nat := a ^^^ b
/-- a and not b. -/
def opAndn (w a b : Nat) : Nat := a &&& (b % 2 ^ w ^^^ (2 ^ w - 1))
/-- Amounts of 64 or more give 0 (R156). -/
def opShl (a b : Nat) : Nat := if 64 ≤ b then 0 else (a <<< b) % 2 ^ 64
def opShr (a b : Nat) : Nat := if 64 ≤ b then 0 else a >>> b
def opSra (a b : Nat) : Nat := wrapI 64 (s64 a / 2 ^ (min b 64))
def rolW (w a b : Nat) : Nat := let k := b % w; ((a <<< k) ||| (a >>> (w - k))) % 2 ^ w
def opRol (a b : Nat) : Nat := rolW 64 a b
def opMini (a b : Nat) : Nat := if s64 a ≤ s64 b then a else b
def opMaxi (a b : Nat) : Nat := if s64 a ≤ s64 b then b else a
def opMinn (a b : Nat) : Nat := min a b
def opMaxn (a b : Nat) : Nat := max a b
def opAdds (a b : Nat) : Nat := satI64 (s64 a + s64 b)
def opSubs (a b : Nat) : Nat := satI64 (s64 a - s64 b)

/-- Position and length of a bit field (R158): pos is b bits 5:0, len b bits 12:6, cut at bit 63. -/
def bfPos (b : Nat) : Nat := bits b 0 6
def bfLen (b : Nat) : Nat := min (bits b 6 7) (64 - bfPos b)
def opBfx (a b : Nat) : Nat := bits a (bfPos b) (bfLen b)
def opBfi (d a b : Nat) : Nat :=
  let m := (2 ^ bfLen b - 1) <<< bfPos b
  (d &&& (m ^^^ (2 ^ 64 - 1))) ||| ((bits a 0 (bfLen b)) <<< bfPos b)

/-- Condition codes (R112). -/
def opCmp (cc a b : Nat) : Bool :=
  match cc with
  | 0 => a == b
  | 1 => a != b
  | 2 => decide (s64 a < s64 b)
  | 3 => decide (s64 a ≤ s64 b)
  | 4 => decide (s64 a > s64 b)
  | 5 => decide (s64 a ≥ s64 b)
  | 6 => decide (a < b)
  | 7 => decide (a ≤ b)
  | 8 => decide (a > b)
  | _ => decide (a ≥ b)

def opMovhi (d : Nat) (imm : Nat) : Nat := d % 2 ^ 32 + imm * 2 ^ 32
/-- The highest set bit below `w`. -/
def topBit (w a : Nat) : Option Nat := (List.range w).reverse.find? fun i => bit a i
def lowBit (w a : Nat) : Option Nat := (List.range w).find? fun i => bit a i
def opClz (w a : Nat) : Nat := match topBit w a with | none => w | some i => w - 1 - i
def opCtz (a : Nat) : Nat := (lowBit 64 a).getD 64
def opPopc (w a : Nat) : Nat := ((List.range w).filter fun i => bit a i).length
def opBrev (a : Nat) : Nat := (List.range 64).foldl (fun x i => if bit a i then x ||| (1 <<< (63 - i)) else x) 0
/-- Sign-extends from bit k (R160). -/
def opSext (k a : Nat) : Nat := wrapI 64 (sext (k + 1) a)

/-- `PFROM`: bit i is bit i >> k of a (R161). -/
def opPfrom (a k : Nat) : Nat :=
  (List.range 256).foldl (fun x i => if i >>> k < 64 ∧ bit a (i >>> k) then x ||| (1 <<< i) else x) 0
def opPlen (a : Nat) : Nat := 2 ^ (min a 256) - 1

/-! ## Shared forms -/

def Tile.sCond (x : Tile) (f : SF) : Bool := x.cond f.pq.toNat f.neg

def predAll : BitVec 256 := BitVec.ofNat 256 (2 ^ 256 - 1)

/-- A predicate result with fresh rinds (R161). -/
def predWrite (n : Nat) (d : Nat) : RWrite := .pred (BitVec.ofNat 5 n) (Reg.fresh 4 d) predAll

def State.sScalar (s : State) (lat : Nat) (d : BitVec 6) (v : Nat) : State := s.land 0 lat [.scalar d (scalarOf v)]

/-- Register form of a two-source instruction. -/
def State.sBin (s : State) (i : Instr) (f : SF) (lat : Nat) (g : Nat → Nat → Nat) : Host.Outcome State Fault Refusal :=
  let x := s.tile
  s.issueSlot i [] (x.sCond f) (x.consumeS 0 0 f.a.toNat ++ x.consumeS 0 1 f.b.toNat) none
    (s.sScalar lat f.d (g (x.sv f.a.toNat) (x.sv f.b.toNat)))

/-- Immediate form (R112). -/
def State.sBinImm (s : State) (i : Instr) (f : SF) (lat : Nat) (g : Nat → Nat → Nat) : Host.Outcome State Fault Refusal :=
  let x := s.tile
  s.issueSlot i [] (x.sCond f) (x.consumeS 0 0 f.a.toNat) none (s.sScalar lat f.d (g (x.sv f.a.toNat) (imm64 f)))

/-- A division: by zero it sets FPCTL.IDZF, and raises class A at the result cycle when IDZE is 1 (R157). -/
def State.divLand (s : State) (d : BitVec 6) (b v : Nat) : State :=
  if b = 0 then
    let x := s.tile
    let q : TrapReq := { cls := clsA, low := 6, info := BitVec.ofNat 64 (3 * 2 ^ 18), kind := .after, pc := x.pc }
    s.landFlags 0 18 [.scalar d (scalarOf v)] (BitVec.ofNat 64 (2 ^ 37)) 0
      (if bit (x.sreg srFPCTL).toNat 36 then some q else none)
  else s.sScalar 18 d v

def State.sDiv (s : State) (i : Instr) (f : SF) (g : Nat → Nat → Nat) : Host.Outcome State Fault Refusal :=
  let x := s.tile
  s.issueSlot i [] (x.sCond f) (x.consumeS 0 0 f.a.toNat ++ x.consumeS 0 1 f.b.toNat) none
    (s.divLand f.d (x.sv f.b.toNat) (g (x.sv f.a.toNat) (x.sv f.b.toNat)))

def State.sDivImm (s : State) (i : Instr) (f : SF) (g : Nat → Nat → Nat) : Host.Outcome State Fault Refusal :=
  let x := s.tile
  s.issueSlot i [] (x.sCond f) (x.consumeS 0 0 f.a.toNat) none (s.divLand f.d (imm64 f) (g (x.sv f.a.toNat) (imm64 f)))

/-- One scalar source, scalar result. -/
def State.sUn (s : State) (i : Instr) (f : SF) (g : Nat → Nat) : Host.Outcome State Fault Refusal :=
  let x := s.tile
  s.issueSlot i [] (x.sCond f) (x.consumeS 0 0 f.a.toNat) none (s.sScalar 1 f.d (g (x.sv f.a.toNat)))

/-- A predicate that is read as data (R154). -/
def Tile.consumeP (x : Tile) (opnd n : Nat) : List Flt := x.consume 0 opnd (x.pred n) fun _ => true

/-- Two predicate sources, predicate result. -/
def State.sPred2 (s : State) (i : Instr) (f : SF) (g : Nat → Nat → Nat) : Host.Outcome State Fault Refusal :=
  let x := s.tile
  s.issueSlot i [] (x.sCond f) (x.consumeP 0 f.a.toNat ++ x.consumeP 1 f.b.toNat) none
    (s.land 0 1 [predWrite f.d.toNat (g (x.pred f.a.toNat).d.toNat (x.pred f.b.toNat).d.toNat)])

/-- One predicate source, scalar result. -/
def State.sPredS (s : State) (i : Instr) (f : SF) (g : Nat → Nat) : Host.Outcome State Fault Refusal :=
  let x := s.tile
  s.issueSlot i [] (x.sCond f) (x.consumeP 0 f.a.toNat) none (s.sScalar 1 f.d (g (x.pred f.a.toNat).d.toNat))

/-! ## Meanings -/

/-- R155, Table 6-5. -/
def execAdd (f : SF) (s : State) : Host.Outcome State Fault Refusal := s.sBin (.add f) f 1 opAdd

/-- R112, R155. -/
def execAddImmediate (f : SF) (s : State) : Host.Outcome State Fault Refusal := s.sBinImm (.addImmediate f) f 1 opAdd

/-- R155, Table 6-5. -/
def execSub (f : SF) (s : State) : Host.Outcome State Fault Refusal := s.sBin (.sub f) f 1 opSub

/-- R112, R155. -/
def execSubImmediate (f : SF) (s : State) : Host.Outcome State Fault Refusal := s.sBinImm (.subImmediate f) f 1 opSub

/-- R155, Table 6-5. -/
def execMul (f : SF) (s : State) : Host.Outcome State Fault Refusal := s.sBin (.mul f) f 3 opMul

/-- R112, R155. -/
def execMulImmediate (f : SF) (s : State) : Host.Outcome State Fault Refusal := s.sBinImm (.mulImmediate f) f 3 opMul

/-- R155, Table 6-5. -/
def execMulhi (f : SF) (s : State) : Host.Outcome State Fault Refusal := s.sBin (.mulhi f) f 3 opMulhi

/-- R112, R155. -/
def execMulhiImmediate (f : SF) (s : State) : Host.Outcome State Fault Refusal := s.sBinImm (.mulhiImmediate f) f 3 opMulhi

/-- R155, Table 6-5. -/
def execMulhn (f : SF) (s : State) : Host.Outcome State Fault Refusal := s.sBin (.mulhn f) f 3 opMulhn

/-- R112, R155. -/
def execMulhnImmediate (f : SF) (s : State) : Host.Outcome State Fault Refusal := s.sBinImm (.mulhnImmediate f) f 3 opMulhn

/-- R155, Table 6-5. -/
def execAnd (f : SF) (s : State) : Host.Outcome State Fault Refusal := s.sBin (.and f) f 1 opAnd

/-- R112, R155. -/
def execAndImmediate (f : SF) (s : State) : Host.Outcome State Fault Refusal := s.sBinImm (.andImmediate f) f 1 opAnd

/-- R155, Table 6-5. -/
def execOr (f : SF) (s : State) : Host.Outcome State Fault Refusal := s.sBin (.or f) f 1 opOr

/-- R112, R155. -/
def execOrImmediate (f : SF) (s : State) : Host.Outcome State Fault Refusal := s.sBinImm (.orImmediate f) f 1 opOr

/-- R155, Table 6-5. -/
def execXor (f : SF) (s : State) : Host.Outcome State Fault Refusal := s.sBin (.xor f) f 1 opXor

/-- R112, R155. -/
def execXorImmediate (f : SF) (s : State) : Host.Outcome State Fault Refusal := s.sBinImm (.xorImmediate f) f 1 opXor

/-- R155, Table 6-5. -/
def execAndn (f : SF) (s : State) : Host.Outcome State Fault Refusal := s.sBin (.andn f) f 1 (opAndn 64)

/-- R112, R155. -/
def execAndnImmediate (f : SF) (s : State) : Host.Outcome State Fault Refusal := s.sBinImm (.andnImmediate f) f 1 (opAndn 64)

/-- R156. -/
def execShl (f : SF) (s : State) : Host.Outcome State Fault Refusal := s.sBin (.shl f) f 1 opShl

/-- R112, R155. -/
def execShlImmediate (f : SF) (s : State) : Host.Outcome State Fault Refusal := s.sBinImm (.shlImmediate f) f 1 opShl

/-- R156. -/
def execShr (f : SF) (s : State) : Host.Outcome State Fault Refusal := s.sBin (.shr f) f 1 opShr

/-- R112, R155. -/
def execShrImmediate (f : SF) (s : State) : Host.Outcome State Fault Refusal := s.sBinImm (.shrImmediate f) f 1 opShr

/-- R156. -/
def execSra (f : SF) (s : State) : Host.Outcome State Fault Refusal := s.sBin (.sra f) f 1 opSra

/-- R112, R155. -/
def execSraImmediate (f : SF) (s : State) : Host.Outcome State Fault Refusal := s.sBinImm (.sraImmediate f) f 1 opSra

/-- R156. -/
def execRol (f : SF) (s : State) : Host.Outcome State Fault Refusal := s.sBin (.rol f) f 1 opRol

/-- R112, R155. -/
def execRolImmediate (f : SF) (s : State) : Host.Outcome State Fault Refusal := s.sBinImm (.rolImmediate f) f 1 opRol

/-- R155, Table 6-5. -/
def execMini (f : SF) (s : State) : Host.Outcome State Fault Refusal := s.sBin (.mini f) f 1 opMini

/-- R112, R155. -/
def execMiniImmediate (f : SF) (s : State) : Host.Outcome State Fault Refusal := s.sBinImm (.miniImmediate f) f 1 opMini

/-- R155, Table 6-5. -/
def execMaxi (f : SF) (s : State) : Host.Outcome State Fault Refusal := s.sBin (.maxi f) f 1 opMaxi

/-- R112, R155. -/
def execMaxiImmediate (f : SF) (s : State) : Host.Outcome State Fault Refusal := s.sBinImm (.maxiImmediate f) f 1 opMaxi

/-- R155, Table 6-5. -/
def execMinn (f : SF) (s : State) : Host.Outcome State Fault Refusal := s.sBin (.minn f) f 1 opMinn

/-- R112, R155. -/
def execMinnImmediate (f : SF) (s : State) : Host.Outcome State Fault Refusal := s.sBinImm (.minnImmediate f) f 1 opMinn

/-- R155, Table 6-5. -/
def execMaxn (f : SF) (s : State) : Host.Outcome State Fault Refusal := s.sBin (.maxn f) f 1 opMaxn

/-- R112, R155. -/
def execMaxnImmediate (f : SF) (s : State) : Host.Outcome State Fault Refusal := s.sBinImm (.maxnImmediate f) f 1 opMaxn

/-- R155, Table 6-5. -/
def execAdds (f : SF) (s : State) : Host.Outcome State Fault Refusal := s.sBin (.adds f) f 1 opAdds

/-- R112, R155. -/
def execAddsImmediate (f : SF) (s : State) : Host.Outcome State Fault Refusal := s.sBinImm (.addsImmediate f) f 1 opAdds

/-- R155, Table 6-5. -/
def execSubs (f : SF) (s : State) : Host.Outcome State Fault Refusal := s.sBin (.subs f) f 1 opSubs

/-- R112, R155. -/
def execSubsImmediate (f : SF) (s : State) : Host.Outcome State Fault Refusal := s.sBinImm (.subsImmediate f) f 1 opSubs

/-- R158. -/
def execBfx (f : SF) (s : State) : Host.Outcome State Fault Refusal := s.sBin (.bfx f) f 1 opBfx

/-- R112, R155. -/
def execBfxImmediate (f : SF) (s : State) : Host.Outcome State Fault Refusal := s.sBinImm (.bfxImmediate f) f 1 opBfx

/-- R157. -/
def execDivi (f : SF) (s : State) : Host.Outcome State Fault Refusal := s.sDiv (.divi f) f opDivi

/-- R112, R157. -/
def execDiviImmediate (f : SF) (s : State) : Host.Outcome State Fault Refusal := s.sDivImm (.diviImmediate f) f opDivi

/-- R157. -/
def execDivn (f : SF) (s : State) : Host.Outcome State Fault Refusal := s.sDiv (.divn f) f opDivn

/-- R112, R157. -/
def execDivnImmediate (f : SF) (s : State) : Host.Outcome State Fault Refusal := s.sDivImm (.divnImmediate f) f opDivn

/-- R157. -/
def execRemi (f : SF) (s : State) : Host.Outcome State Fault Refusal := s.sDiv (.remi f) f opRemi

/-- R112, R157. -/
def execRemiImmediate (f : SF) (s : State) : Host.Outcome State Fault Refusal := s.sDivImm (.remiImmediate f) f opRemi

/-- R157. -/
def execRemn (f : SF) (s : State) : Host.Outcome State Fault Refusal := s.sDiv (.remn f) f opRemn

/-- R112, R157. -/
def execRemnImmediate (f : SF) (s : State) : Host.Outcome State Fault Refusal := s.sDivImm (.remnImmediate f) f opRemn

/-- `BFI` reads d as a source, operand code 2 (R154, R158). -/
def execBfi (f : SF) (s : State) : Host.Outcome State Fault Refusal :=
  let x := s.tile
  s.issueSlot (.bfi f) [] (x.sCond f) (x.consumeS 0 0 f.a.toNat ++ x.consumeS 0 1 f.b.toNat ++ x.consumeS 0 2 f.d.toNat) none
    (s.sScalar 1 f.d (opBfi (x.sv f.d.toNat) (x.sv f.a.toNat) (x.sv f.b.toNat)))

/-- R112, R158. -/
def execBfiImmediate (f : SF) (s : State) : Host.Outcome State Fault Refusal :=
  let x := s.tile
  s.issueSlot (.bfiImmediate f) [] (x.sCond f) (x.consumeS 0 0 f.a.toNat ++ x.consumeS 0 2 f.d.toNat) none
    (s.sScalar 1 f.d (opBfi (x.sv f.d.toNat) (x.sv f.a.toNat) (imm64 f)))

/-- Every bit of pd takes the comparison (R159). -/
def cmpBits (b : Bool) : Nat := if b then 2 ^ 256 - 1 else 0

/-- R159: no qualifying predicate. -/
def execCmp (f : SF) (s : State) : Host.Outcome State Fault Refusal :=
  let x := s.tile
  s.issueSlot (.cmp f) [] true (x.consumeS 0 0 f.a.toNat ++ x.consumeS 0 1 f.b.toNat) none
    (s.land 0 1 [predWrite f.d.toNat (cmpBits (opCmp f.pq.toNat (x.sv f.a.toNat) (x.sv f.b.toNat)))])

/-- R159. -/
def execCmpImmediate (f : SF) (s : State) : Host.Outcome State Fault Refusal :=
  let x := s.tile
  s.issueSlot (.cmpImmediate f) [] true (x.consumeS 0 0 f.a.toNat) none
    (s.land 0 1 [predWrite f.d.toNat (cmpBits (opCmp f.pq.toNat (x.sv f.a.toNat) (imm64 f)))])

/-- R159: pq is the selector; both sources are checked. -/
def execSel (f : SF) (s : State) : Host.Outcome State Fault Refusal :=
  let x := s.tile
  s.issueSlot (.sel f) [] true (x.consumeS 0 0 f.a.toNat ++ x.consumeS 0 1 f.b.toNat) none
    (s.sScalar 1 f.d (if x.sCond f then x.sv f.a.toNat else x.sv f.b.toNat))

/-- R159. -/
def execSelImmediate (f : SF) (s : State) : Host.Outcome State Fault Refusal :=
  let x := s.tile
  s.issueSlot (.selImmediate f) [] true (x.consumeS 0 0 f.a.toNat) none
    (s.sScalar 1 f.d (if x.sCond f then x.sv f.a.toNat else imm64 f))

/-- R160. -/
def execMovi (f : SF) (s : State) : Host.Outcome State Fault Refusal :=
  s.issueSlot (.movi f) [] (s.tile.sCond f) [] none (s.sScalar 1 f.d (imm64 f))

/-- R160: reads d. -/
def execMovhi (f : SF) (s : State) : Host.Outcome State Fault Refusal :=
  let x := s.tile
  s.issueSlot (.movhi f) [] (x.sCond f) (x.consumeS 0 2 f.d.toNat) none
    (s.sScalar 1 f.d (opMovhi (x.sv f.d.toNat) f.imm32.toNat))

/-- R160, Table 6-6. -/
def execClz (f : SF) (s : State) : Host.Outcome State Fault Refusal := s.sUn (.clz f) f (opClz 64)

/-- R160, Table 6-6. -/
def execCtz (f : SF) (s : State) : Host.Outcome State Fault Refusal := s.sUn (.ctz f) f opCtz

/-- R160, Table 6-6. -/
def execPopc (f : SF) (s : State) : Host.Outcome State Fault Refusal := s.sUn (.popc f) f (opPopc 64)

/-- R160, Table 6-6. -/
def execBrev (f : SF) (s : State) : Host.Outcome State Fault Refusal := s.sUn (.brev f) f opBrev

/-- R160, Table 6-6. -/
def execSext (f : SF) (s : State) : Host.Outcome State Fault Refusal := s.sUn (.sext f) f (opSext (bits f.imm32.toNat 0 6))

/-- R161, Table 6-7. -/
def execPand (f : SF) (s : State) : Host.Outcome State Fault Refusal := s.sPred2 (.pand f) f opAnd

/-- R161, Table 6-7. -/
def execPor (f : SF) (s : State) : Host.Outcome State Fault Refusal := s.sPred2 (.por f) f opOr

/-- R161, Table 6-7. -/
def execPxor (f : SF) (s : State) : Host.Outcome State Fault Refusal := s.sPred2 (.pxor f) f opXor

/-- R161, Table 6-7. -/
def execPandn (f : SF) (s : State) : Host.Outcome State Fault Refusal := s.sPred2 (.pandn f) f (opAndn 256)

/-- R161. -/
def execPnot (f : SF) (s : State) : Host.Outcome State Fault Refusal :=
  let x := s.tile
  s.issueSlot (.pnot f) [] (x.sCond f) (x.consumeP 0 f.a.toNat) none
    (s.land 0 1 [predWrite f.d.toNat ((x.pred f.a.toNat).d.toNat ^^^ (2 ^ 256 - 1))])

/-- R161, Table 6-7. -/
def execPcnt (f : SF) (s : State) : Host.Outcome State Fault Refusal := s.sPredS (.pcnt f) f (opPopc 256)

/-- R161, Table 6-7. -/
def execPfirst (f : SF) (s : State) : Host.Outcome State Fault Refusal := s.sPredS (.pfirst f) f (fun p => (lowBit 256 p).getD 256)

/-- R161, Table 6-7. -/
def execPlast (f : SF) (s : State) : Host.Outcome State Fault Refusal := s.sPredS (.plast f) f (fun p => (topBit 256 p).getD (2 ^ 64 - 1))

/-- R161. -/
def execPfrom (f : SF) (s : State) : Host.Outcome State Fault Refusal :=
  let x := s.tile
  s.issueSlot (.pfrom f) [] (x.sCond f) (x.consumeS 0 0 f.a.toNat ++ x.consumeS 0 1 f.b.toNat) none
    (s.land 0 1 [predWrite f.d.toNat (opPfrom (x.sv f.a.toNat) (bits (x.sv f.b.toNat) 0 2))])

/-- R161. -/
def execPlen (f : SF) (s : State) : Host.Outcome State Fault Refusal :=
  let x := s.tile
  s.issueSlot (.plen f) [] (x.sCond f) (x.consumeS 0 0 f.a.toNat) none (s.land 0 1 [predWrite f.d.toNat (opPlen (x.sv f.a.toNat))])

/-- R161: granule s[b] and 3 of the predicate. -/
def execPtos (f : SF) (s : State) : Host.Outcome State Fault Refusal :=
  let x := s.tile
  s.issueSlot (.ptos f) [] (x.sCond f) (x.consumeP 0 f.a.toNat ++ x.consumeS 0 1 f.b.toNat) none
    (s.sScalar 1 f.d (bits (x.pred f.a.toNat).d.toNat (64 * bits (x.sv f.b.toNat) 0 2) 64))

/-- R110. -/
def execNop (_ : Fin 8) (s : State) : Host.Outcome State Fault Refusal := s.acted

/-! ## Special registers (R147, R162, R163, R181) -/

/-- R147, R162. -/
def execMfsr (f : SF) (s : State) : Host.Outcome State Fault Refusal :=
  let x := s.tile
  let n := sregNum f
  s.issueSlot (.mfsr f) (privErr 0 (x.sv? || !sregReadSup n)) (x.sCond f) [] none
    (s.sScalar 2 f.d (s.readSreg s.cur n))

/-- The first failing field of a BFMT value (R181): its lowest and highest bit. -/
def bfmtBad (n v : Nat) : Option (Nat × Nat) :=
  let ty := bfType v
  let g := bfGroup v
  let q := g != 0 && (ty == 1 || ty == 12)
  let r := if ty == 1 then 512 / (16 * 2 ^ g) else 1024 / (16 * 2 ^ g)
  if 12 < ty ∨ (g ≠ 0 ∧ !q) ∨ bit v 7 then some (0, 7)
  else if (!q && bfComp v != 0) || (q && bfComp v == n) then some (8, 13)
  else if bits v 14 2 != 0 then some (14, 15)
  else if (!q && bfRoff v != 0) || (q && decide (128 < bfRoff v + r)) then some (16, 22)
  else if bit v 23 then some (23, 23)
  else if bits v 27 37 != 0 then some (27, 63)
  else none

/-- R162, R181: the source is a consumer with operand code 7; the write takes effect at issue + 1. -/
def execMtsr (f : SF) (s : State) : Host.Outcome State Fault Refusal :=
  let x := s.tile
  let n := sregNum f
  let v := x.sv f.a.toNat
  let chk := if srBFMT ≤ n ∧ n < srBFMT + 64 then
      match bfmtBad (n - srBFMT) v with
      | some (lo, hi) => [x.recTrap 0 0 lo hi]
      | none => []
    else []
  s.issueSlot (.mtsr f) (privErr 0 (x.sv? || !sregWriteSup n)) (x.sCond f) (x.consumeS 0 7 f.a.toNat ++ chk) none
    (s.land 0 1 [.sreg n (BitVec.ofNat 64 (v % 2 ^ sregWidth n))])

end Sys2Proof.Machine
end

