-- ==== Sys2Proof/Machine/Vector.lean ====
section
/-! DEFINITION. The vector engine, element by element: arithmetic, logic, shifts, compares, selects, moves, conversions and
permutes (R220 to R232, R236, R237), and `VRCHK` (R78, R79). -/

namespace Sys2Proof.Machine

open Check

abbrev Ans := Host.Outcome State Fault Refusal

/-! ## Shared forms -/

def VF.t (f : VF) : Nat := f.type.toNat
def VF.w (f : VF) : Nat := tyWidth f.type.toNat

def Tile.ctl (x : Tile) : Nat := (x.sreg srFPCTL).toNat

/-- Latency 4 for float types and 2 for integer types (Table 8-2). -/
def latIF (f : VF) : Nat := if tyF f.type.toNat then 4 else 2

/-- One source. -/
def State.vOp1 (s : State) (i : Instr) (f : VF) (lat : Nat) (g : Nat → Res) : Ans :=
  s.vElementwise i f lat [(0, f.a.toNat)] ((s.tile.vElems f.a.toNat (VF.w f)).map g)

/-- Two sources. -/
def State.vOp2 (s : State) (i : Instr) (f : VF) (lat : Nat) (g : Nat → Nat → Res) : Ans :=
  let x := s.tile
  s.vElementwise i f lat [(0, f.a.toNat), (1, f.b.toNat)]
    (List.zipWith g (x.vElems f.a.toNat (VF.w f)) (x.vElems f.b.toNat (VF.w f)))

/-- Three sources. -/
def State.vOp3 (s : State) (i : Instr) (f : VF) (lat : Nat) (g : Nat → Nat → Nat → Res) : Ans :=
  let x := s.tile
  let w := VF.w f
  s.vElementwise i f lat [(0, f.a.toNat), (1, f.b.toNat), (2, f.c.toNat)]
    (List.zipWith (fun h c => h c) (List.zipWith g (x.vElems f.a.toNat w) (x.vElems f.b.toNat w)) (x.vElems f.c.toNat w))

/-- An exact integer operation, wrapped to the element width. -/
def intRes (t : Nat) (g : Int → Int → Int) (a b : Nat) : Res := (wrapI (tyWidth t) (g (ival t a) (ival t b)), 0)

/-- A float form or an exact integer form by the type. -/
def State.vArith (s : State) (i : Instr) (f : VF) (gf : Nat → Nat → Nat → Nat → Nat → Res) (gi : Int → Int → Int) : Ans :=
  let t := VF.t f
  let ctl := s.tile.ctl
  s.vOp2 i f (latIF f) (if tyF t then gf ctl t f.rnd.toNat else intRes t gi)

/-- A fused multiply-add. -/
def State.vFused (s : State) (i : Instr) (f : VF) (np nc : Bool) : Ans :=
  s.vOp3 i f 4 (fFma np nc s.tile.ctl (VF.t f) f.rnd.toNat)

def State.vMinMax (s : State) (i : Instr) (f : VF) (mx num : Bool) : Ans :=
  let t := VF.t f
  let ctl := s.tile.ctl
  s.vOp2 i f 2 (if tyF t then fMinMax mx num ctl t else intRes t (if mx then max else min))

/-- A bitwise operation. -/
def State.vBits (s : State) (i : Instr) (f : VF) (g : Nat → Nat → Nat) : Ans := s.vOp2 i f 2 fun a b => (g a b, 0)

/-- `VCLAMP` on floats: the greater of a and b, then the smaller of that and c (R221). DESIGN CHOICE: FZO acts once, on the final result (log
entry 28). -/
def fClamp (ctl t a b c : Nat) : Res :=
  let x := fin ctl t a
  let y := fin ctl t b
  let z := fin ctl t c
  fres ctl t 0 [x, y, z] (0, (x.pick true y).pick false z)

/-- The 32-bit sums of `VDOT4` (R222). -/
def dot4 (t : Nat) (sgnb sat : Bool) (a b c : Nat) : Nat :=
  let v := (List.range 4).foldl (fun (v : Int) j => v + ival t (bits a (8 * j) 8) * ival (if sgnb then 0 else 1) (bits b (8 * j) 8))
    (ival 4 c)
  satOr sat 4 v

/-- An 8-bit source read as 32-bit elements: a scalar broadcasts its low byte (R123). -/
def Tile.vBytes4 (x : Tile) (n : Nat) : List Nat :=
  if n < 324 then elems 32 (x.vreg n).d.toNat else bcast 32 ((x.sv (n - 328) % 256) * 0x01010101)

/-- Predicate bits of elements (R226): data and the bits written. -/
def predOf (w : Nat) (bs : List (Option Bool)) : Nat × Nat :=
  let one := 2 ^ (w / 8) - 1
  (packNat (w / 8) (bs.map fun b => if b = some true then one else 0), packNat (w / 8) (bs.map fun b => if b.isSome then one else 0))

/-- A predicate result of elements (R214, R226); one that writes nothing is none. -/
def vPred (f : VF) (act : List Bool) (bs : List Bool) : List RWrite :=
  let r := predOf (VF.w f) (List.zipWith (fun a b => if a then some b else if f.z then some false else none) act bs)
  if r.2 = 0 then [] else [.pred (BitVec.ofNat 5 f.d.toNat) (Reg.fresh 4 r.1) (BitVec.ofNat 256 r.2)]

/-- The element of `VEXT` and `VINS` (R230). -/
def vIndex (x : Tile) (f : VF) : Nat :=
  if f.sub.getLsbD 0 then x.sv (f.b.toNat - 328) % (2048 / VF.w f) else bits f.imm16.toNat 0 9

def vIndexCheck (x : Tile) (f : VF) : List Flt := if f.sub.getLsbD 0 then x.consumeS (vSlot f) 1 (f.b.toNat - 328) else []

/-- Marks one element of `n`. -/
def oneHot (n k : Nat) : List Bool := (List.range n).map (· == k)

/-- Which element each destination element of a permute takes: from a (0), b (1) or c (2). -/
abbrev Picks := List (Option (Nat × Nat))

/-- A permute: elements chosen from the sources, fresh rinds, and only granules that supply an active element checked (R236). -/
def State.vPermute (s : State) (i : Instr) (f : VF) (extra : List Flt) (picks : Picks) : Ans :=
  let x := s.tile
  let w := VF.w f
  let act := x.vActive f w
  let src := fun k => x.vElems (if k = 0 then f.a.toNat else if k = 1 then f.b.toNat else f.c.toNat) w
  let sa := src 0
  let sb := src 1
  let sc := src 2
  let live := List.zipWith (fun a p => if a then p else none) act picks
  let used := fun k => (List.range (2048 / w)).map fun e => live.any fun p => p == some (k, e)
  let chk := fun k (n : Nat) => if live.any fun p => match p with | some q => q.1 == k | none => false
    then x.vConsume (vSlot f) k n w (used k) else []
  let res := picks.map fun p => match p with
    | some (0, e) => sa.getD e 0
    | some (1, e) => sb.getD e 0
    | some (_, e) => sc.getD e 0
    | none => 0
  s.issueSlot i [] true (chk 0 f.a.toNat ++ (if extra.isEmpty then chk 1 f.b.toNat else extra) ++ chk 2 f.c.toNat) none
    (s.vLand f 3 (vWrite f w (vOut act f.z res)))

/-- Shuffle patterns (R236). -/
def shufPick (n pat i : Nat) : Nat × Nat :=
  match pat with
  | 0 => (i % 2, i / 2)
  | 1 => (i % 2, n / 2 + i / 2)
  | 2 => if i < n / 2 then (0, 2 * i) else (1, 2 * (i - n / 2))
  | 3 => if i < n / 2 then (0, 2 * i + 1) else (1, 2 * (i - n / 2) + 1)
  | 4 => (0, n - 1 - i)
  | _ => (i % 2, i / 2 * 2)

/-- A granule of a carrier in which elements are zeroed; one in which every element is gets RIND(0, 0) (R216). -/
def zeroedGran (src : Gran) (m : Nat) : Gran :=
  if m = 0 then .zero else mergeGran .zero { g := 0, d := src.d, r := src.r, bad := src.bad, mask := BitVec.ofNat 8 m }

/-- What a carrier writes: elements under `mask` (one bit per byte) taken from `v`, the others zeroed with Z or not written; and
the granules at which it logs an event. -/
def carryOut (v : Reg 32) (mask : Nat) (z : Bool) : Reg 32 × Nat × List Nat :=
  if z then
    (Reg.ofGrans 32 ((List.range 32).map fun j => if bits mask (8 * j) 8 = 0xFF then v.gran j else zeroedGran (v.gran j) (bits mask (8 * j) 8)),
     2 ^ 256 - 1, (List.range 32).filter fun j => bits mask (8 * j) 8 != 0xFF && bits mask (8 * j) 8 != 0 && (v.gran j).bad)
  else (v, mask, [])

/-- A carrier into a vector register. DESIGN CHOICE: the event of a granule that is written in part is logged at issue (R216, log entry 28). -/
def State.vCarry (s : State) (f : VF) (lat : Nat) (v : Reg 32) (act : List Bool) (w : Nat) : State :=
  let o := carryOut v (byteMask w (act.map fun a => if a then some 0 else none)) f.z
  if o.2.1 = 0 then s
  else (s.vLand f lat [.vec f.d.toNat o.1 (BitVec.ofNat 256 o.2.1) (some (if f.v1 then 1 else 0))]).regEvents s.cur (o.2.2.map (regGran 2 f.d.toNat))

/-- The elements of a conversion (R231): destination element and source element of each. -/
def cvtPairs (ws wd p : Nat) : List (Nat × Nat) :=
  let n := 2048 / max ws wd
  (List.range n).map fun i => if wd ≤ ws then (p * n + i, i) else (i, p * n + i)

/-- A list of `n` entries of which those named have a value. -/
def sparse {α : Type} (n : Nat) (l : List (Nat × α)) : List (Option α) := (List.range n).map fun k => (l.find? fun e => e.1 == k).map (·.2)

/-! ## Meanings -/

/-- R220. -/
def execVadd (f : VF) (s : State) : Ans :=
  s.vArith (.vadd f) f fAdd (· + ·)

/-- R220. -/
def execVsub (f : VF) (s : State) : Ans :=
  s.vArith (.vsub f) f fSub (· - ·)

/-- R220. -/
def execVmul (f : VF) (s : State) : Ans :=
  s.vArith (.vmul f) f fMul (· * ·)

/-- R220. -/
def execVfma (f : VF) (s : State) : Ans :=
  s.vFused (.vfma f) f false false

/-- R220. -/
def execVfms (f : VF) (s : State) : Ans :=
  s.vFused (.vfms f) f false true

/-- R220. -/
def execVfnma (f : VF) (s : State) : Ans :=
  s.vFused (.vfnma f) f true false

/-- R220. -/
def execVabd (f : VF) (s : State) : Ans :=
  s.vArith (.vabd f) f fAbd (fun a b => ((a - b).natAbs : Int))

/-- R221. -/
def execVmin (f : VF) (s : State) : Ans :=
  s.vMinMax (.vmin f) f false false

/-- R221. -/
def execVmax (f : VF) (s : State) : Ans :=
  s.vMinMax (.vmax f) f true false

/-- R221. -/
def execVminn (f : VF) (s : State) : Ans :=
  s.vMinMax (.vminn f) f false true

/-- R221. -/
def execVmaxn (f : VF) (s : State) : Ans :=
  s.vMinMax (.vmaxn f) f true true

/-- R220: |A|, wrapping or saturating on integers. -/
def execVabs (f : VF) (s : State) : Ans :=
  let t := VF.t f
  let ctl := s.tile.ctl
  s.vOp1 (.vabs f) f 2 (if tyF t then fAbs ctl t else fun a => (satOr f.sat t ((ival t a).natAbs : Int), 0))

/-- R220: −A, wrapping or saturating on integers. -/
def execVneg (f : VF) (s : State) : Ans :=
  let t := VF.t f
  let ctl := s.tile.ctl
  s.vOp1 (.vneg f) f 2 (if tyF t then fNeg ctl t else fun a => (satOr f.sat t (-(ival t a)), 0))

/-- R220. -/
def execVadds (f : VF) (s : State) : Ans :=
  s.vOp2 (.vadds f) f 2 fun a b => (satT (VF.t f) (ival (VF.t f) a + ival (VF.t f) b), 0)

/-- R220. -/
def execVsubs (f : VF) (s : State) : Ans :=
  s.vOp2 (.vsubs f) f 2 fun a b => (satT (VF.t f) (ival (VF.t f) a - ival (VF.t f) b), 0)

/-- R220. -/
def execVmulh (f : VF) (s : State) : Ans :=
  s.vOp2 (.vmulh f) f 2 (intRes (VF.t f) fun a b => a * b / (2 ^ VF.w f : Nat))

/-- R220. -/
def execVavg (f : VF) (s : State) : Ans :=
  s.vOp2 (.vavg f) f 2 (intRes (VF.t f) fun a b => (a + b + 1) / 2)

/-- R221. -/
def execVclamp (f : VF) (s : State) : Ans :=
  let t := VF.t f
  let ctl := s.tile.ctl
  s.vOp3 (.vclamp f) f 2 (if tyF t then fClamp ctl t else fun a b c =>
    (wrapI (VF.w f) (min (max (ival t a) (ival t b)) (ival t c)), 0))

/-- R222: 32-bit destination elements, sources read as bytes. -/
def execVdot4 (f : VF) (s : State) : Ans :=
  let x := s.tile
  let act := x.vActive f 32
  let res := List.zipWith (fun h c => h c)
    (List.zipWith (dot4 (VF.t f) (f.sub.getLsbD 0) f.sat) (x.vBytes4 f.a.toNat) (x.vBytes4 f.b.toNat)) (x.vElems f.c.toNat 32)
  let k := vSlot f
  s.issueSlot (.vdot4 f) [] true
    (x.vConsume k 0 f.a.toNat 32 act ++ x.vConsume k 1 f.b.toNat 32 act ++ x.vConsume k 2 f.c.toNat 32 act) none
    (s.vLand f 2 (vWrite f 32 (vOut act f.z res)))

/-- R223. -/
def execVand (f : VF) (s : State) : Ans :=
  s.vBits (.vand f) f (· &&& ·)

/-- R223. -/
def execVor (f : VF) (s : State) : Ans :=
  s.vBits (.vor f) f (· ||| ·)

/-- R223. -/
def execVxor (f : VF) (s : State) : Ans :=
  s.vBits (.vxor f) f (· ^^^ ·)

/-- R223. -/
def execVandn (f : VF) (s : State) : Ans :=
  s.vBits (.vandn f) f (opAndn (VF.w f))

/-- R223. -/
def execVnot (f : VF) (s : State) : Ans :=
  s.vOp1 (.vnot f) f 2 fun a => (a ^^^ (2 ^ VF.w f - 1), 0)

/-- R224. -/
def execVshl (f : VF) (s : State) : Ans :=
  s.vBits (.vshl f) f fun a b => if VF.w f ≤ b % 256 then 0 else (a <<< (b % 256)) % 2 ^ VF.w f

/-- R224. -/
def execVshr (f : VF) (s : State) : Ans :=
  s.vBits (.vshr f) f fun a b => if VF.w f ≤ b % 256 then 0 else a >>> (b % 256)

/-- R224. -/
def execVsra (f : VF) (s : State) : Ans :=
  s.vBits (.vsra f) f fun a b => wrapI (VF.w f) (Sys2Proof.sext (VF.w f) a / (2 ^ min (b % 256) (VF.w f) : Nat))

/-- R224. -/
def execVrol (f : VF) (s : State) : Ans :=
  s.vBits (.vrol f) f fun a b => rolW (VF.w f) a (b % 256)

/-- R225. -/
def execVpopc (f : VF) (s : State) : Ans :=
  s.vOp1 (.vpopc f) f 2 fun a => (opPopc (VF.w f) a, 0)

/-- R225. -/
def execVclz (f : VF) (s : State) : Ans :=
  s.vOp1 (.vclz f) f 2 fun a => (opClz (VF.w f) a, 0)

/-- R226. -/
def execVcmp (f : VF) (s : State) : Ans :=
  let x := s.tile
  let t := VF.t f
  let w := VF.w f
  let act := x.vActive f w
  let ctl := x.ctl
  let c := f.sub.toNat
  let res := List.zipWith (fun a b => if tyF t then fCmp ctl t c a b else
      (match c with
        | 0 => ival t a == ival t b | 1 => ival t a != ival t b | 2 => decide (ival t a < ival t b)
        | 3 => decide (ival t a ≤ ival t b) | 4 => decide (ival t a > ival t b) | _ => decide (ival t a ≥ ival t b), 0))
    (x.vElems f.a.toNat w) (x.vElems f.b.toNat w)
  s.issueSlot (.vcmp f) [] true (x.vConsume (vSlot f) 0 f.a.toNat w act ++ x.vConsume (vSlot f) 1 f.b.toNat w act) none
    (s.vLandF f 2 t (vPred f act (res.map (·.1))) (List.zipWith (fun a (r : Bool × Nat) => if a then r.2 else 0) act res))

/-- R227. -/
def execVclass (f : VF) (s : State) : Ans :=
  let x := s.tile
  let w := VF.w f
  let act := x.vActive f w
  s.issueSlot (.vclass f) [] true (x.vConsume (vSlot f) 0 f.a.toNat w act) none
    (s.vLand f 2 (vPred f act ((x.vElems f.a.toNat w).map fun a => bit f.imm16.toNat (fClass (VF.t f) a))))

/-- R228: every element is written. -/
def execVsel (f : VF) (s : State) : Ans :=
  let x := s.tile
  let w := VF.w f
  let act := x.vActive f w
  let res := List.zipWith (fun a (p : Nat × Nat) => some (if a then p.1 else p.2)) act
    (List.zip (x.vElems f.a.toNat w) (x.vElems f.b.toNat w))
  s.issueSlot (.vsel f) [] true
    (x.vConsume (vSlot f) 0 f.a.toNat w act ++ x.vConsume (vSlot f) 1 f.b.toNat w (act.map (!·))) none
    (s.vLand f 2 (vWrite f w res))

/-- R229: a carrier from a register or latch, a broadcast from a scalar. -/
def execVmov (f : VF) (s : State) : Ans :=
  let x := s.tile
  let w := VF.w f
  let act := x.vActive f w
  if f.a.toNat < 324 then s.issueSlot (.vmov f) [] true [] none (s.vCarry f 2 (x.vreg f.a.toNat) act w)
  else s.vOp1 (.vmov f) f 2 fun a => (a, 0)

/-- R229. -/
def execVmovi (f : VF) (s : State) : Ans :=
  let w := VF.w f
  let v := if f.type = 10 then f.imm16.toNat <<< 16 else wrapI w (Sys2Proof.sext 16 f.imm16.toNat)
  s.vElementwise (.vmovi f) f 2 [] (List.replicate (2048 / w) (v, 0))

/-- R230. -/
def execVext (f : VF) (s : State) : Ans :=
  let x := s.tile
  let w := VF.w f
  let k := vIndex x f
  let on := (x.vActive f w).getD k false
  s.issueSlot (.vext f) [] true
    ((if on then x.vConsume (vSlot f) 0 f.a.toNat w (oneHot (2048 / w) k) else []) ++ vIndexCheck x f) none
    (if on then s.land (vSlotOf f) 2
        [.scalar (BitVec.ofNat 6 (f.d.toNat - 328)) (scalarOf (wrapI 64 (ival (VF.t f) ((x.vElems f.a.toNat w).getD k 0))))]
     else s)

/-- R230: element k passes the merging lane of R216. -/
def execVins (f : VF) (s : State) : Ans :=
  let x := s.tile
  let w := VF.w f
  let k := vIndex x f
  let on := (x.vActive f w).getD k false
  s.issueSlot (.vins f) [] true ((if on then x.consumeS (vSlot f) 0 (f.a.toNat - 328) else []) ++ vIndexCheck x f) none
    (if on then s.vLand f 2 (vWrite f w ((List.range (2048 / w)).map fun i => if i = k then some (x.sv (f.a.toNat - 328) % 2 ^ w) else none))
     else s)

/-- R231: flags go to the group of the float destination, else of the float source. -/
def execVcvt (f : VF) (s : State) : Ans :=
  let x := s.tile
  let t := VF.t f
  let ts := vSrcType f
  let ws := tyWidth ts
  let wd := VF.w f
  let act := x.vActive f wd
  let ctl := x.ctl
  let src := x.vElems f.a.toNat ws
  let ps := cvtPairs ws wd (vPart f)
  let live := ps.filter fun p => act.getD p.1 false
  let res := live.map fun p => (p.1, cvt ctl ts t f.rnd.toNat f.sat (src.getD p.2 0))
  let dead := if f.z then (ps.filter fun p => !(act.getD p.1 false)).map fun p => (p.1, ((0, 0) : Res)) else []
  let out := sparse (2048 / wd) (res ++ dead)
  let need := (List.range (2048 / ws)).map fun e => live.any fun p => p.2 == e
  s.issueSlot (.vcvt f) [] true (x.vConsume (vSlot f) 0 f.a.toNat ws need) none
    (s.vLandF f 3 (if tyF t then t else ts) (vWrite f wd (out.map fun o => o.map (·.1))) (out.map fun o => match o with | some r => r.2 | none => 0))

/-- R232: T names the narrow type, twice as wide sources of the same signedness. -/
def execVpack (f : VF) (s : State) : Ans :=
  let x := s.tile
  let t := VF.t f
  let w := VF.w f
  let n := 2048 / w
  let act := x.vActive f w
  let nar := fun a => satOr f.sat t (ival (t + 2) a)
  let res := (x.vElems f.a.toNat (2 * w)).map nar ++ (x.vElems f.b.toNat (2 * w)).map nar
  s.issueSlot (.vpack f) [] true
    (x.vConsume (vSlot f) 0 f.a.toNat (2 * w) (act.take (n / 2)) ++ x.vConsume (vSlot f) 1 f.b.toNat (2 * w) (act.drop (n / 2))) none
    (s.vLand f 3 (vWrite f w (vOut act f.z res)))

/-- R232: one half of the register, from the half-width type. -/
def execVunpk (f : VF) (s : State) : Ans :=
  let x := s.tile
  let t := VF.t f
  let w := VF.w f
  let n := 2048 / w
  let act := x.vActive f w
  let h := if f.sub.getLsbD 0 then n else 0
  let res := ((x.vElems f.a.toNat (w / 2)).drop h).map fun a => wrapI w (ival (t - 2) a)
  let need := List.replicate h false ++ act
  s.issueSlot (.vunpk f) [] true (x.vConsume (vSlot f) 0 f.a.toNat (w / 2) need) none
    (s.vLand f 3 (vWrite f w (vOut act f.z (res.take n))))

/-- R236. -/
def execVperm (f : VF) (s : State) : Ans :=
  let x := s.tile
  let w := VF.w f
  let n := 2048 / w
  s.vPermute (.vperm f) f (x.vConsume (vSlot f) 1 f.b.toNat w (x.vActive f w))
    ((x.vElems f.b.toNat w).map fun j => let k := j % (2 * n); some (if k < n then (0, k) else (2, k - n)))

/-- R236. -/
def execVshuf (f : VF) (s : State) : Ans :=
  let n := 2048 / VF.w f
  s.vPermute (.vshuf f) f [] ((List.range n).map fun i => some (shufPick n f.sub.toNat i))

/-- R236. -/
def execVslide (f : VF) (s : State) : Ans :=
  let n := 2048 / VF.w f
  let k := bits f.imm16.toNat 0 10
  s.vPermute (.vslide f) f [] ((List.range n).map fun i => some (if i + k < n then (0, i + k) else (1, i + k - n)))

/-- R236. -/
def execVbcast (f : VF) (s : State) : Ans :=
  s.vPermute (.vbcast f) f [] (List.replicate (2048 / VF.w f) (some (0, bits f.imm16.toNat 0 9)))

/-- R237: the active elements of a, in order; the rest zeroed with Z, else kept. -/
def execVcomp (f : VF) (s : State) : Ans :=
  let x := s.tile
  let w := VF.w f
  let act := x.vActive f w
  let got := ((List.zip act (x.vElems f.a.toNat w)).filter (·.1)).map (·.2)
  let out := (got.map some ++ List.replicate (2048 / w) (if f.z then some 0 else none)).take (2048 / w)
  s.issueSlot (.vcomp f) [] true (x.vConsume (vSlot f) 0 f.a.toNat w act) none (s.vLand f 3 (vWrite f w out))

/-- R237: a.e[j] to the j-th active element. -/
def execVexpd (f : VF) (s : State) : Ans :=
  let x := s.tile
  let w := VF.w f
  let act := x.vActive f w
  let src := x.vElems f.a.toNat w
  let res := (List.range (2048 / w)).map fun i => src.getD ((act.take i).filter id).length 0
  let n := (act.filter id).length
  s.issueSlot (.vexpd f) [] true (x.vConsume (vSlot f) 0 f.a.toNat w ((List.range (2048 / w)).map fun e => decide (e < n))) none
    (s.vLand f 3 (vWrite f w (vOut act f.z res)))

/-- R78, R79. -/
def execVrchk (f : VF) (s : State) : Ans :=
  let x := s.tile
  let v := x.vreg f.a.toNat
  let pq := (x.pred f.pred.toNat).d.toNat
  let d := packNat 8 ((List.range 32).map fun j =>
    let g := v.gran j
    let bc := g.r.toNat % 128 != crc7 g.d.toNat
    let bp := g.r.getLsbD 7
    let t := match f.sub.toNat with | 0 => bc || bp | 1 => bp | _ => bc
    if bit pq (8 * j) && t then 0xFF else 0)
  s.issueSlot (.vrchk f) [] true [] none (s.land (vSlotOf f) 2 [predWrite f.d.toNat d])

end Sys2Proof.Machine
end

