-- ==== Sys2Proof/Machine/Pad.lean ====
section
/-! DEFINITION. Scratchpad loads and stores, tags, scratchpad atomics and `RINJ` (R177 to R200, R209 to R213, R80 to R82). -/

namespace Sys2Proof.Machine

open Check

/-! ## Elements of a load (R193 to R195) -/

/-- How a load decodes. -/
def PadLoad.decode (l : PadLoad) : Decode :=
  if l.grp && tyF l.type then .deq else if tyWidth l.st = tyWidth l.type then .copy else .cvt

/-- A load that checks its granules and produces fresh rinds (Table 7-2, R195). -/
def PadLoad.consumes (l : PadLoad) : Bool := l.decode != .copy || (l.kind == 1 && tyWidth l.type != 64)

/-- The granules a load checks: codes, and group records. -/
def PadLoad.needs (l : PadLoad) : List Nat :=
  if l.consumes then l.els.map (fun e => e.addr / 8) ++ (if l.decode = .deq then l.els.map fun e => e.recAt / 8 else []) else []

/-- The bad granule of lowest index in its row among those needed. DESIGN CHOICE: of a code granule and a group-record granule with one index
the code granule is reported, since codes stand first in `needs`; R71 gives no order between them (log entry 28). -/
def worstGran (rd : Nat → Gran) (gs : List Nat) : Option Nat :=
  gs.foldl (fun b g => if (rd g).bad then (match b with
    | none => some g
    | some h => if g % 32 < h % 32 then some g else b) else b) none

/-- Class I of a load's source (R182). -/
def memBad (rd : Nat → Gran) (slot : Nat) (gs : List Nat) : Option (BitVec 4 × Nat) :=
  (worstGran rd gs).map fun g => (badLow (rd g), badInfo slot 6 0 (g % 32) (rd g))

/-- One element's value in the register type. -/
def PadLoad.value (l : PadLoad) (rd : Nat → Gran) (e : PadEl) : Nat :=
  let raw := bits (rd (e.addr / 8)).d.toNat (8 * (e.addr % 8) + if e.hi then 4 else 0) (tyWidth l.st)
  match l.decode with
  | .cvt => (cvt 0 l.st l.type 0 false raw).1
  | .deq => (deq 0 l.type 0 l.st (bits (rd (e.recAt / 8)).d.toNat (8 * (e.recAt % 8)) 32) raw).1
  | _ => raw

/-- The bytes of the elements of a copying load, gathered by destination granule (R66). -/
def PadLoad.gathered (l : PadLoad) (rd : Nat → Gran) : List Gather :=
  let w := tyWidth l.type
  if w = 4 then
    (List.range 256).foldl (fun acc k =>
      match l.els.filter fun e => e.i / 2 == k with
      | [a, b] =>
        let v := l.value rd a + 16 * l.value rd b
        let put := fun acc (e : PadEl) => gatherByte acc k v (e.addr / 8) (e.addr % 8 == k % 8 && e.hi == (e.i % 2 == 1))
        put (put acc a) b
      | _ => acc) []
  else
    l.els.foldl (fun acc e => (List.range (w / 8)).foldl (fun acc k =>
      let to_ := e.i * (w / 8) + k
      gatherByte acc to_ (bits (rd ((e.addr + k) / 8)).d.toNat (8 * ((e.addr + k) % 8)) 8) ((e.addr + k) / 8)
        (to_ % 8 == (e.addr + k) % 8)) acc) []

/-- A vector load's value: whole granules of one source granule are carried (R66, R182). DESIGN CHOICE: a granule that a load which does not
convert builds from parts of several source granules has a fresh CRC, P = 1 when any of them is bad, and neither event nor trap; R66 calls
the load a carrier and says no more (log entry 28). -/
def PadLoad.vector (l : PadLoad) (rd : Nat → Gran) : Reg 32 :=
  if l.decode = .copy then
    let gs := l.gathered rd
    Reg.ofGrans 32 ((List.range 32).map fun j =>
      match gs.find? fun e => e.g == j with
      | none => .zero
      | some e =>
        let d : Word := BitVec.ofNat 64 e.d
        match e.mask, e.srcs with
        | 0xFF, [(k, true)] => ⟨d, (rd k).r⟩
        | _, ks => ⟨d, rindOf (ks.any fun k => (rd k.1).bad) d⟩)
  else
    let w := tyWidth l.type
    Reg.fresh 32 (l.els.foldl (fun d e => d + (l.value rd e % 2 ^ w) <<< (w * e.i)) 0)

/-- A scalar load's value, extended (R195). -/
def PadLoad.scalar (l : PadLoad) (rd : Nat → Gran) : Reg 1 :=
  match l.els with
  | e :: _ =>
    let v := l.value rd e
    if l.consumes then scalarOf (if tySigned l.type then wrapI 64 (sext (tyWidth l.type) v) else v)
    else Reg.ofGrans 1 [rd (e.addr / 8)]
  | [] => .zero 1

/-- `PLD`: 32 bytes as they stand (R195). -/
def PadLoad.pred (l : PadLoad) (rd : Nat → Gran) : Reg 4 :=
  match l.els with
  | e :: _ => Reg.ofGrans 4 ((List.range 4).map fun j => rd (e.addr / 8 + j))
  | [] => .zero 4

/-- The value into the load's writes. -/
def PadLoad.fill (l : PadLoad) (rd : Nat → Gran) (ws : List RWrite) : List RWrite :=
  ws.map fun w => match w with
    | .vec n _ m q => .vec n (l.vector rd) m q
    | .scalar n _ => .scalar n (l.scalar rd)
    | .pred n _ m => .pred n (l.pred rd) m
    | w => w

/-! ## A load performs -/

/-- The waiting result `id` raises a fault instead of its writes, at its own cycle or, with `early`, at once. -/
def Tile.fillFault (x : Tile) (id : Nat) (early : Nat) (cls low : BitVec 4) (info : Nat) : Tile :=
  let g := fun l : Landing => if l.id = id ∧ l.waiting then
    { l with waiting := false, due := l.due - early,
             fault := some { cls := cls, low := low, info := BitVec.ofNat 64 info, kind := .after, pc := l.pc } } else l
  { x with inflight := x.inflight.map g, snapshot := x.snapshot.map g }

/-- Rows that are due are read; with the last of them the result is filled. -/
def State.padRead (s : State) (t : Tid) (iss id : Nat) (l : PadLoad) (got : SMap (Reg 32)) (left : List (Nat × Nat)) : State :=
  let x := s.tileAt t
  let got := (left.filter fun r => r.2 ≤ s.now).foldl (fun m r => m.set (Reg.zero 32) r.1 (x.pad.reg (32 * r.1) 32)) got
  match left.filter fun r => s.now < r.2 with
  | r :: rs => s.schedule (rs.foldl (fun c e => min c e.2) r.2) ordRead (.padRead t iss id l got (r :: rs))
  | [] =>
    let rd := fun g => (got.get (Reg.zero 32) (g / 32)).gran (g % 32)
    s.modTile t fun x =>
      match memBad rd 4 l.needs with
      | some b => x.fillFault id 0 clsI b.1 b.2
      | none => x.fill id (l.fill rd)

/-- The cycle of each row of an access when nothing delays it: the j-th of a bank j cycles after the first, at most `lim` of
them (R187). -/
def rowCycles (t0 lim : Nat) (rows : List Nat) : List (Nat × Nat) :=
  rows.mapIdx fun k r => (r, t0 + min (((rows.take k).filter fun q => q / 128 == r / 128).length) (lim - 1))

/-- Issues a scratchpad load (R190 to R195): `own` are the faults of its operands, `legal` tells whether the bank formats admit
it, `wb` is its element's width in bytes, `one` that all elements lie in one row. -/
def State.padLoad (s : State) (i : Instr) (f : LF) (lat lim : Nat) (cond : Bool) (own : List Flt) (legal : Bool) (wb : Nat) (one chk : Bool)
    (l : PadLoad) (ws : List RWrite) : Host.Outcome State Fault Refusal :=
  let x := s.tile
  let rows := rowsOf (l.els.map (·.addr))
  let all := rowsOf (l.els.map (·.addr) ++ if l.decode = .deq then l.els.map (·.recAt) else [])
  let plan := planPorts x.readBusy (s.now + 1) lim all
  let t := padFault x 4 wb one (l.els.map (·.addr))
  let memory := match memBad x.pad.gran 4 l.needs with
    | some b => [(rankI 4, x.issueTrap clsI b.1 b.2)]
    | none => []
  let fs :=
    if l.els.isEmpty then []
    else own ++ t ++
      (if !t.isEmpty then []
       else if legal then memory ++ x.tagFault 4 chk f.tag rows ++ x.earlyFault 4 all ++ planFault x 4 plan
       else [x.bfTrap 4])
  let act :=
    if l.els.isEmpty then (if ws.isEmpty then s else s.land 4 lat ws)
    else
      let (id, s) := s.newId
      ((s.claim 0 plan).landWaiting 4 lat ws id).schedule (s.now + 1) ordRead
        (.padRead s.cur s.now id l [] (rowCycles (s.now + 1) lim all))
  s.issueFix i [] cond fs (s.bcol plan) (if l.els.isEmpty then none else s.lateWait all) act

/-- Which elements of a vector load are active. -/
def Tile.lActive (x : Tile) (f : LF) : List Bool := actives (x.pred f.pred.toNat).d.toNat f.n (tyWidth f.type.toNat)

/-- The writes of a vector load before its value is known. -/
def lVecWrites (f : LF) (act : List Bool) : List RWrite :=
  let m := byteMask (tyWidth f.type.toNat) (vOut act f.z (act.map fun _ => 0))
  if m = 0 then [] else [.vec f.d.toNat (.zero 32) (BitVec.ofNat 256 m) (some 2)]

def actMask (act : List Bool) : BitVec 512 := BitVec.ofNat 512 (packNat 1 (act.map Bool.toNat))

/-- The active elements of a list, by index. -/
def liveEls (act : List Bool) (e : Nat → PadEl) : List PadEl :=
  (List.range act.length).filterMap fun i => if act.getD i false then some (e i) else none

/-- The element at byte address `a`, in bank format `bf`. -/
def elAt (bf i a : Nat) (hi : Bool) : PadEl :=
  { i := i, addr := a, hi := hi, recAt := recAddr bf (rowOf a % 128) (2 * (a % 256) + if hi then 1 else 0) }

/-- The scalars of an L slot's address. -/
def Tile.lOwn (x : Tile) (f : LF) : List Flt := x.consumeS 4 3 f.base.toNat ++ x.consumeS 4 4 f.x.toNat

/-- `VLD` and `VLDB` (R193): a run from A, or its first element. -/
def State.padRun (s : State) (i : Instr) (f : LF) (step : Bool) : Host.Outcome State Fault Refusal :=
  let x := s.tile
  let a := x.lAddr f
  let bf := x.bfmt (bankOf a % 64)
  let ws := tyWidth (bfType bf)
  let act := x.lActive f
  let els := liveEls act fun i => if step then elAt bf i ((a + i * ws / 8) % 2 ^ 64) (ws == 4 && i % 2 == 1) else elAt bf i a false
  s.padLoad i f 6 1 true (x.lOwn f) (decodeOf bf f.type.toNat != .none) (max 1 (ws / 8)) true f.tagchk
    { kind := 0, type := f.type.toNat, st := bfType bf, grp := bfGroup bf != 0, els := els, act := actMask act, z := f.z }
    (lVecWrites f act)

/-- R193. -/
def execVld (f : LF) (s : State) : Host.Outcome State Fault Refusal := s.padRun (.vld f) f true

/-- R193. -/
def execVldb (f : LF) (s : State) : Host.Outcome State Fault Refusal := s.padRun (.vldb f) f false

/-- The byte address and nibble of element i at a signed stride from `a` (R194, R198). -/
def strideEl (w a : Nat) (stride : Int) (i : Nat) : Nat × Bool :=
  if w = 4 then
    let n : Int := 2 * a + i * stride
    (wrap64 (n / 2), n % 2 == 1)
  else (wrap64 (a + i * stride), false)

/-- A load that does not convert, from several rows (R194). -/
def State.padMany (s : State) (i : Instr) (f : LF) (lat lim : Nat) (own : List Flt) (chk : Bool) (el : Nat → Nat × Bool) :
    Host.Outcome State Fault Refusal :=
  let x := s.tile
  let t := f.type.toNat
  let act := x.lActive f
  let els := liveEls act fun i => { i := i, addr := (el i).1, hi := (el i).2, recAt := 0 }
  s.padLoad i f lat lim true own (!bankClash x (tyWidth t) (els.map (·.addr))) (max 1 (tyWidth t / 8)) false chk
    { kind := 0, type := t, st := t, grp := false, els := els, act := actMask act, z := f.z } (lVecWrites f act)

/-- R194. -/
def execVlds (f : LF) (s : State) : Host.Outcome State Fault Refusal :=
  let x := s.tile
  s.padMany (.vlds f) f 8 2 (x.lOwn f) f.tagchk (strideEl (tyWidth f.type.toNat) (x.lBase f) (s64 (x.sv f.x.toNat)))

/-- R194: the index vector stands in bits 60:52, the shift k in the x field. -/
def execVldg (f : LF) (s : State) : Host.Outcome State Fault Refusal :=
  let x := s.tile
  let w := tyWidth f.type.toNat
  let v := ldgIndex f
  let idx := x.vElems v w
  s.padMany (.vldg f) f 12 4 (x.vConsume 4 1 v w (x.lActive f) ++ x.consumeS 4 3 f.base.toNat) false fun i =>
    ((x.lBase f + (idx.getD i 0) <<< f.x.toNat) % 2 ^ 64, false)

/-- R195. -/
def execLds (f : LF) (s : State) : Host.Outcome State Fault Refusal :=
  let x := s.tile
  let a := x.lAddr f
  let bf := x.bfmt (bankOf a % 64)
  let t := f.type.toNat
  s.padLoad (.lds f) f 4 1 (x.cond f.pred.toNat f.n) (x.lOwn f) (decodeOf bf t != .none) (max 1 (tyWidth (bfType bf) / 8)) true f.tagchk
    { kind := 1, type := t, st := bfType bf, grp := bfGroup bf != 0, els := [elAt bf 0 a false], act := 1, z := false }
    [.scalar (BitVec.ofNat 6 (f.d.toNat - 328)) (.zero 1)]

/-- R195. -/
def execPld (f : LF) (s : State) : Host.Outcome State Fault Refusal :=
  let x := s.tile
  s.padLoad (.pld f) f 4 1 (x.cond f.pred.toNat f.n) (x.lOwn f) true 32 true f.tagchk
    { kind := 2, type := 0, st := 0, grp := false, els := [elAt 0 0 (x.lAddr f) false], act := 1, z := false }
    [.pred (BitVec.ofNat 5 f.d.toNat) (.zero 4) predAll]

/-- R196. -/
def execLdtag (f : LF) (s : State) : Host.Outcome State Fault Refusal :=
  let x := s.tile
  let a := x.lAddr f
  s.issueSlot (.ldtag f) [] (x.cond f.pred.toNat f.n) (x.lOwn f ++ padFault x 4 1 false [a]) none
    (s.land 4 4 [.scalar (BitVec.ofNat 6 (f.d.toNat - 328)) (scalarOf (x.tag (rowOf a)).toNat)])

/-! ## Stores (R197 to R200) -/

/-- The 4-bit elements of granule `g` by nibble: the one of highest index stands (R198). -/
def nibAt (ns : List Nib) (g k : Nat) : Option Nib := ns.reverse.find? fun n => n.addr / 8 == g && 2 * (n.addr % 8) + n.hi.toNat == k

/-- The 4-bit elements of granule `g` as one write (R198): a granule that comes whole from one source granule is carried; where a nibble is
not written, the other one of its byte is kept through the merging lane, which sees the old granule. -/
def nibWrite (m : Store) (ns : List Nib) (g : Nat) : GWrite :=
  let l := (List.range 16).map (nibAt ns g)
  let old := m.gran g
  let d : Word := BitVec.ofNat 64 (packNat 4 (l.mapIdx fun k n => match n with | some n => n.v | none => bits old.d.toNat (4 * k) 4))
  let mask := BitVec.ofNat 8 (((List.range 8).filter fun j => (nibAt ns g (2 * j)).isSome || (nibAt ns g (2 * j + 1)).isSome).map (2 ^ ·)).sum
  let bad := l.any fun n => match n with | some n => n.bad | none => false
  if l.all Option.isSome then
    let same := fun i => l.mapIdx (fun k n => (k, n)) |>.all fun e => match e.2 with | some n => n.i == 16 * i + e.1 | none => false
    match l.head? with
    | some (some n) => { g := g, d := d, r := if same (n.i / 16) then n.r else rindOf bad d, bad := bad, mask := 0xFF }
    | _ => { g := g, d := d, r := rindOf bad d, bad := bad, mask := mask }
  else { g := g, d := d, r := rindOf (bad || old.bad) d, bad := bad, mask := mask }

/-- The granules of a list of 4-bit elements, rising. -/
def nibGrans (ns : List Nib) : List Nat := ns.foldl (fun l n => insRow (n.addr / 8) l) []

/-- Granule writes at the tile's banks, with the events of the merging lanes (R68). -/
def State.padPut (s : State) (t : Tid) (ws : List GWrite) : State :=
  let x := s.tileAt t
  (s.modTile t fun x => { x with pad := x.pad.writes ws }).rindEvents srcTile t.val inPad (x.pad.mergeEvents ws)

/-- A 4-bit store's granule: a merging lane whose bytes are all touched but not all their nibbles logs a bad input as well (R68). -/
def State.nibPut (s : State) (t : Tid) (ns : List Nib) (g : Nat) : State :=
  let old := (s.tileAt t).pad.gran g
  let w := nibWrite (s.tileAt t).pad ns g
  let part := w.mask == 0xFF && (List.range 16).any fun k => (nibAt ns g k).isNone
  let s := s.padPut t [w]
  if part && (old.bad || w.bad) then s.rindEvents srcTile t.val inPad [g] else s

/-- A scratchpad write performs. -/
def State.padWrite (s : State) (t : Tid) (ws : List GWrite) (nibs : List Nib) (rows : List Nat) : State :=
  let s := s.padPut t ws
  let s := (nibGrans nibs).foldl (fun s g => s.nibPut t nibs g) s
  s.modTile t fun x => x.subPend rows

/-- A tag write performs (R189, R200). -/
def State.tagWrite (s : State) (t : Tid) (row : Nat) (tag : Byte) : State :=
  s.modTile t fun x => (x.subPend [row]).putTag row tag

/-- Schedules the writes of each row (R191, R197). -/
def State.padRows (s : State) (lim : Nat) (rows : List Nat) (ws : List GWrite) (nibs : List Nib) : State :=
  (rowCycles (s.now + 4) lim rows).foldl (fun s r =>
    (s.onTile fun x => x.addPend [r.1]).schedule r.2 (ordWrite s.cur 1)
      (.padWrite s.cur s.now (ws.filter fun w => w.g / 32 == r.1) (nibs.filter fun n => rowOf n.addr == r.1) [r.1])) s

/-- Issues a scratchpad store of elements at `addrs`. -/
def State.padStore (s : State) (i : Instr) (lim : Nat) (cond : Bool) (own : List Flt) (legal : Bool) (wb : Nat) (one : Bool) (addrs : List Nat)
    (ws : List GWrite) (nibs : List Nib) : Host.Outcome State Fault Refusal :=
  let x := s.tile
  let rows := rowsOf addrs
  let plan := planPorts (x.writeBusy s.now) (s.now + 4) lim rows
  let t := padFault x 5 wb one addrs
  let fs := if addrs.isEmpty then []
    else own ++ t ++ (if !t.isEmpty then [] else if legal then planFault x 5 plan else [x.bfTrap 5])
  s.issueFix i [] cond fs (s.bcol plan) none (if addrs.isEmpty then s else (s.claim 2 plan).padRows lim rows ws nibs)

def Tile.tOwn (x : Tile) (f : TF) : List Flt := x.consumeS 5 3 f.base.toNat

def Tile.tCond (x : Tile) (f : TF) : Bool := x.cond f.pred.toNat false

/-- Which elements of a vector store are active (R197). -/
def Tile.tActive (x : Tile) (f : TF) (w : Nat) : List Bool := actives (x.pred f.pred.toNat).d.toNat false w

/-- R198. -/
def execVst (f : TF) (s : State) : Host.Outcome State Fault Refusal :=
  let x := s.tile
  let w := tyWidth f.type.toNat
  let wb := max 1 (w / 8)
  let es := runEls (x.tAddr f) wb (x.tActive f (8 * wb))
  let as_ := es.map (·.1)
  s.padStore (.vst f) 1 true (x.tOwn f) (!bankClash x w as_) wb true as_ (scatter (x.vreg f.data.toNat) es) []

/-- 4-bit element `i` of a register, placed at a byte and nibble. -/
def nibOf (v : Reg 32) (i : Nat) (p : Nat × Bool) : Nib :=
  { addr := p.1, hi := p.2, v := bits v.d.toNat (4 * i) 4, i := i, r := (v.gran (i / 16)).r, bad := (v.gran (i / 16)).bad }

/-- R198: the stride scalar stands in bits 26:21. -/
def execVsts (f : TF) (s : State) : Host.Outcome State Fault Refusal :=
  let x := s.tile
  let w := tyWidth f.type.toNat
  let v := x.vreg f.data.toNat
  let sx := f.imm11.toNat % 64
  let stride := s64 (x.sv sx)
  let act := x.tActive f w
  let live := (List.range (2048 / w)).filter fun i => act.getD i false
  let pos := live.map fun i => (i, strideEl w (x.sv f.base.toNat) stride i)
  let as_ := pos.map fun p => p.2.1
  let ws := if w = 4 then [] else scatter v (pos.map fun p => (p.2.1, p.1 * (w / 8), w / 8))
  let nibs := if w = 4 then pos.map fun p => nibOf v p.1 p.2 else []
  s.padStore (.vsts f) 2 true (x.tOwn f ++ x.consumeS 5 4 sx) (!bankClash x w as_) (max 1 (w / 8)) false as_ ws nibs

/-- R198: the index operand stands in bits 29:21, k in bits 31:30. -/
def execVstx (f : TF) (s : State) : Host.Outcome State Fault Refusal :=
  let x := s.tile
  let w := tyWidth f.type.toNat
  let vi := bits f.imm11.toNat 0 9
  let k := bits f.imm11.toNat 9 2
  let idx := x.vElems vi w
  let act := x.tActive f w
  let es := ((List.range (2048 / w)).filter fun i => act.getD i false).map fun i =>
    ((x.sv f.base.toNat + (idx.getD i 0) <<< k) % 2 ^ 64, i * (w / 8), w / 8)
  let as_ := es.map (·.1)
  s.padStore (.vstx f) 4 true (x.vConsume 5 1 vi w act ++ x.tOwn f) (!bankClash x w as_) (w / 8) false as_
    (scatter (x.vreg f.data.toNat) es) []

/-- The low `n` bytes of a scalar as a store at `a`: 8 bytes are carried, fewer are a partial write (R199). -/
def scalarStore (a n : Nat) (v : Reg 1) : List GWrite :=
  if n = 8 then gwCarry (a / 8) v 0xFF else gwBytes a n (v.d.toNat % 2 ^ (8 * n)) (v.gran 0).bad

/-- R199. -/
def execSts (f : TF) (s : State) : Host.Outcome State Fault Refusal :=
  let x := s.tile
  let w := tyWidth f.type.toNat
  let a := x.tAddr f
  s.padStore (.sts f) 1 (x.tCond f) (x.tOwn f) (!bankClash x w [a]) (w / 8) true [a]
    (scalarStore a (w / 8) (x.scalar (f.data.toNat - 328))) []

/-- R199. -/
def execPst (f : TF) (s : State) : Host.Outcome State Fault Refusal :=
  let x := s.tile
  let a := x.tAddr f
  s.padStore (.pst f) 1 (x.tCond f) (x.tOwn f) true 32 true [a] (gwCarry (a / 8) (x.pred f.data.toNat) (2 ^ 32 - 1)) []

/-- R200: a tag array has ports of its own. -/
def execSttag (f : TF) (s : State) : Host.Outcome State Fault Refusal :=
  let x := s.tile
  let a := x.tAddr f
  let k := f.data.toNat - 328
  s.issueSlot (.sttag f) [] (x.tCond f) (x.consumeS 5 0 k ++ x.tOwn f ++ padFault x 5 1 false [a]) none
    ((s.onTile fun x => x.addPend [rowOf a]).schedule (s.now + 4) (ordWrite s.cur 1)
      (.tagWrite s.cur s.now (rowOf a) (BitVec.ofNat 8 (x.sv k))))

/-! ## Atomics (R209 to R211) -/

/-- Fields of the atomic column (Table 5-8). -/
structure Amo where
  op : Nat
  type : Nat
  global : Bool
  acq : Bool
  rel : Bool
  scope : Nat
  ret : Nat
  val : Nat
  addr : Nat
deriving DecidableEq, Repr

/-- The new value, or none where nothing is written (R210). -/
def amoNew (op t old v cmp : Nat) : Option Nat :=
  let w := tyWidth t
  let v := v % 2 ^ w
  match op with
  | 0x08 => some ((old + v) % 2 ^ w)
  | 0x09 => some (uAdd t old v)
  | 0x0A => some (if tyF t then uMinMax false t old v else if ival t old ≤ ival t v then old else v)
  | 0x0B => some (if tyF t then uMinMax true t old v else if ival t old ≤ ival t v then v else old)
  | 0x0C => some (old &&& v)
  | 0x0D => some (old ||| v)
  | 0x0E => some (old ^^^ v)
  | 0x0F => some v
  | _ => if old = cmp % 2 ^ w then some v else none

/-- The old value as it is returned. -/
def amoOld (t old : Nat) : Nat := if tySigned t then wrapI 64 (sext (tyWidth t) old) else old

/-- The fields of an atomic. -/
def Tile.amo (x : Tile) (op : Nat) (f : TF) : Amo :=
  let im := f.imm11.toNat
  { op := op, type := f.type.toNat, global := bit im 8, acq := bit im 9, rel := bit im 10, scope := f.sc.toNat,
    ret := bits f.data.toNat 6 3 + 8 * f.hi.toNat, val := bits f.data.toNat 0 6,
    addr := wrap64 (x.sv f.base.toNat + Sys2Proof.sext 8 im) }

/-- An atomic or an `RINJ` of a row has lost a port that it has reserved for this cycle (R185): an L-slot or A-row read that issued later
holds the read port, or an `MDRAIN` row or another T-slot access the write port beside its own reservation. -/
def Tile.portsTaken (x : Tile) (now row : Nat) : Bool :=
  x.resv.any (fun r => r.1 == now && r.2.1 == row / 128 && (r.2.2 == 0 || r.2.2 == 3)) ||
  decide (2 ≤ (x.resv.filter fun r => r.1 == now && r.2.1 == row / 128 && r.2.2 == 2).length)

/-- The access retries in the next cycle (R185). -/
def State.retryPorts (s : State) (t : Tid) (row : Nat) (ev : Ev) : State :=
  (s.modTile t fun x => { x.raiseBcol with resv := x.resv ++ [(s.now + 1, row / 128, 1), (s.now + 1, row / 128, 2)] }).schedule (s.now + 1)
    (ordWrite t 1) ev

/-- A scratchpad atomic has lost a port to an access that issued later: DESIGN CHOICE (log entry 28), since its own bundle has issued. In
timed mode nothing is displaced (R5): it raises class S at its perform cycle and neither memory nor sR is written. In free mode it retries,
and the tile freezes for the cycle, so that it performs and its result lands at their tile cycles (R186). -/
def State.atomicLost (s : State) (t : Tid) (id row : Nat) (ev : Ev) : State :=
  let x := s.tileAt t
  if x.timed then s.modTile t fun x => ((x.raiseBcol.subPend [row]).fillFault id 2 clsS 3 (sInfo 5 row 0 0))
  else
    let s := s.retryPorts t row ev
    if x.run = .running ∧ x.frozen.isNone then
      s.modTile t fun x => { (x.setSt stTDL true) with
        frozen := some (.cycles 1), inflight := x.inflight.map fun l => if l.id = id then { l with due := l.due + 1 } else l }
    else s

/-- A scratchpad atomic performs at its bank (R211): a bad old granule raises class I at once, and nothing is written. -/
def State.padAtomic (s : State) (t : Tid) (id : Nat) (type op addr v cmp : Nat) (acq : Bool) : State :=
  let x := s.tileAt t
  let g := x.pad.gran (addr / 8)
  let w := tyWidth type
  let s := (s.acquireLate t acq).modTile t fun x => x.subPend [rowOf addr]
  if g.bad then s.modTile t fun x => x.fillFault id 2 clsI (badLow g) (badInfo 5 6 0 (addr / 8 % 32) g)
  else
    let old := bits g.d.toNat (8 * (addr % 8)) w
    let s := match amoNew op type old v cmp with
      | some new => s.padPut t (gwBytes addr (w / 8) new false)
      | none => s
    s.modTile t fun x => x.fill id (fillScalar (scalarOf (amoOld type old)))

/-- The faults of an atomic before its access: operands, alignment (R209). -/
def Tile.amoOwn (x : Tile) (a : Amo) (f : TF) : List Flt :=
  x.consumeS 5 1 a.val ++ (if a.op = 0x10 then x.consumeS 5 2 a.ret else []) ++ x.tOwn f

/-- A scratchpad atomic. -/
def State.padAmo (s : State) (i : Instr) (f : TF) (a : Amo) (gate : List Flt × Option (Wait × State)) : Host.Outcome State Fault Refusal :=
  let x := s.tile
  let row := rowOf a.addr
  let wb := tyWidth a.type / 8
  let t := padFault x 5 wb false [a.addr]
  let plan := planPorts (x.bothBusy s.now) (s.now + 4) 1 [row]
  let fs := x.amoOwn a f ++ t ++ (if t.isEmpty then
    gate.1 ++ x.earlyFault 5 [row] ++ planFault x 5 plan else [])
  let act :=
    let (id, s) := s.newId
    let s := (((if a.acq then s.acquireTile s.cur (s.now + 1) else s).claim 1 plan).claim 2 plan).onTile fun x => x.addPend [row]
    (s.landWaiting 5 6 [.scalar (BitVec.ofNat 6 a.ret) (.zero 1)] id).schedule (s.now + 4) (ordWrite s.cur 1)
      (.padAtomic s.cur s.now id x.pc a.type a.op a.addr (x.sv a.val) (x.sv a.ret) a.acq)
  s.issueFix i [] (x.tCond f) fs (s.bcol plan) (match gate.2 with | some w => some w | none => s.lateWait [row]) act

/-! ## RINJ (R80 to R82) -/

/-- R81 on one granule. -/
def injectGran (act mask pat j : Nat) (g : Gran) : Gran :=
  if !bit mask j then g
  else match act with
    | 0 => { g with r := g.r ^^^ BitVec.ofNat 8 pat }
    | 1 => { g with d := g.d ^^^ BitVec.ofNat 64 pat }
    | _ => { g with r := rindOf true g.d }

def injectReg {n : Nat} (act mask pat : Nat) (v : Reg n) : Reg n :=
  Reg.ofGrans n ((List.range n).map fun j => injectGran act mask pat j (v.gran j))

/-- The bits, `w` for each granule, of the granules below `n` that a mask selects. -/
def selMask (w n mask : Nat) : Nat := (List.range n).foldl (fun m j => if bit mask j then m ||| ((2 ^ w - 1) <<< (w * j)) else m) 0

/-- The register write of an injection, if it selects a granule (R81): it leaves the other granules alone. -/
def injectWrite (n mask : Nat) (w : RWrite) : List RWrite := if selMask 1 n mask = 0 then [] else [w]

/-- A row is read and written at its bank (R82). -/
def State.padInject (s : State) (t : Tid) (row act mask pat : Nat) : State :=
  s.modTile t fun x => { x.subPend [row] with
    pad := (List.range 32).foldl (fun m j => m.setGran (32 * row + j) (injectGran act mask pat j (x.pad.gran (32 * row + j)))) x.pad }

/-- R80 to R82. -/
def execRinj (f : SF) (s : State) : Host.Outcome State Fault Refusal :=
  let x := s.tile
  let act := rinjAct f
  let n := rinjTarget f
  let mask := x.sv f.a.toNat
  let pat := x.sv f.b.toNat
  let ops := x.consumeS 0 5 f.a.toNat ++ x.consumeS 0 5 f.b.toNat
  let priv := privErr 0 x.sv?
  match rinjClass f with
  | 0 => s.issueSlot (.rinj f) priv (x.sCond f) ops none
      (s.land 0 1 (injectWrite 32 mask (.vec n (injectReg act mask pat (x.vec n)) (BitVec.ofNat 256 (selMask 8 32 mask)) none)))
  | 1 => s.issueSlot (.rinj f) priv (x.sCond f) ops none
      (s.land 0 1 (injectWrite 1 mask (.scalar (BitVec.ofNat 6 n) (injectReg act mask pat (x.scalar n)))))
  | 2 => s.issueSlot (.rinj f) priv (x.sCond f) ops none
      (s.land 0 1 (injectWrite 4 mask (.pred (BitVec.ofNat 5 n) (injectReg act mask pat (x.pred n)) (BitVec.ofNat 256 (selMask 64 4 mask)))))
  | _ =>
    let a := x.sv f.d.toNat
    let row := rowOf a
    let t := if padSize ≤ a then [x.localT 0 1 a] else []
    let plan := planPorts (x.bothBusy s.now) (s.now + 4) 1 [row]
    let now := { plan with delay := 0 }
    s.issueSlot (.rinj f) priv (x.sCond f) (x.consumeS 0 3 f.d.toNat ++ ops ++ t) none
      ((((s.claim 1 now).claim 2 now).onTile fun x => x.addPend [row]).schedule (s.now + 4 + plan.delay) (ordWrite s.cur 1)
        (.padInject s.cur s.now row act mask pat))

end Sys2Proof.Machine
end

