-- ==== Sys2Proof/Machine/Quant.lean ====
section
/-! DEFINITION. Quantising (R98, R99, R233 to R235) and the accumulator file from vector code (R242 to R245). -/

namespace Sys2Proof.Machine

open Check

/-! ## Quantising -/

/-- The group size of a group code. -/
def groupSize (f : VF) : Nat := 16 * 2 ^ vGroup f

/-- The group record of code k (R233). -/
def recOf (rs : List Nat) (g k : Nat) : Nat := rs.getD (k / g) 0

/-- The 32-bit records that the codes need. -/
def recNeed (g : Nat) (ks : List Nat) : List Bool := (List.range 64).map fun e => ks.any fun k => k / g == e

/-- The state of the loop of R233: codes and flags, the entries written, the capacity left, and OFL. -/
structure QntAcc where
  out : List (Nat × Res)
  entries : List Nat
  cap : Nat
  ofl : Bool

/-- One element of the loop of R233. -/
def qntStep (ctl ts tq mode g : Nat) (outMode : Bool) (base : Nat) (rs : List Nat) (a : QntAcc) (e : Nat × Nat) : QntAcc :=
  let k := e.1
  match quantise ctl ts tq mode (recOf rs g k) e.2 with
  | .code q fl => { a with out := a.out ++ [(k, (q, fl))] }
  | .badScale q => { a with out := a.out ++ [(k, (q, flIV))] }
  | .out sat nan sn =>
    let zp := grpZp tq (recOf rs g k)
    let iv := if sn then flIV else 0
    if outMode then
      if a.cap = 0 then { a with out := a.out ++ [(k, (if nan then zp else sat, iv))], ofl := true }
      else { a with out := a.out ++ [(k, (zp, iv))], cap := a.cap - 1,
                    entries := a.entries ++ [(base + k) % 2 ^ 32 + asF32 ts e.2 * 2 ^ 32] }
    else { a with out := a.out ++ [(k, (sat, flIV))] }

/-- Port cycles of the outlier rows: the j-th at issue + 3 + j, later by what is missing (R234). -/
def outlierPlan (busy : Nat → Nat → Bool) (t0 : Nat) (rows : List Nat) : PortPlan :=
  rows.foldl (fun (p : PortPlan) r =>
    let j := p.at_.length
    let t := firstFree (fun c => busy c (r / 128)) 256 (t0 + j + p.delay)
    { at_ := p.at_ ++ [(r, t)], delay := t - (t0 + j), busy := if p.busy.isNone && t != t0 + j then some r else p.busy, past := none })
    ⟨[], 0, none, none⟩

/-- The address check of an outlier list (R234). DESIGN CHOICE: every entry slot that may be used must lie in scratchpad, else class T 0x1 with
its first address past it (log entry 28). -/
def outlierFault (x : Tile) (slot addr n : Nat) : List Flt :=
  if padSize ≤ addr then [x.localT slot 1 addr]
  else if addr % 8 ≠ 0 then [x.localT slot 3 addr]
  else if padSize < addr + 8 * n then [x.localT slot 1 padSize] else []

/-- The entry writes, row by row (R99, R234). -/
def State.outlierWrites (s : State) (addr : Nat) (entries rows : List Nat) : State :=
  (rows.mapIdx fun j r => (j, r)).foldl (fun s p =>
    let ws := (entries.mapIdx fun m v => (addr + 8 * m, v)).filterMap fun e =>
      if e.1 / 256 = p.2 then
        let d : Word := BitVec.ofNat 64 e.2
        some ({ g := e.1 / 8, d := d, r := rindOf false d, bad := false, mask := 0xFF } : GWrite)
      else none
    if ws.isEmpty then s
    else (s.onTile fun x => x.addPend [p.2]).schedule (s.now + 3 + p.1) (ordWrite s.cur 1) (.padWrite s.cur s.now ws [] [p.2])) s

/-- R233, R234. DESIGN CHOICE: STATUS.OFL is set also where the instruction takes class A: R234 names codes, entries and scalars as not
written, and not OFL (log entry 28). DESIGN CHOICE: with nothing active and Z = 0 both scalars are written (R214 against R233, log entry
28). -/
def execVqnt (f : VF) (s : State) : Ans :=
  let x := s.tile
  let k := vSlot f
  let tq := VF.t f
  let ts := vSrcType f
  let ws := tyWidth ts
  let n := 2048 / ws
  let g := groupSize f
  let p := vPart f
  let outMode := f.sub.getLsbD 0
  let l := f.c.toNat - 328
  let act := x.vActive f (tyWidth tq)
  let codes := (List.range n).map fun i => (p * n + i, i)
  let live := codes.filter fun c => act.getD c.1 false
  let src := x.vElems f.a.toNat ws
  let rs := x.vElems f.b.toNat 32
  let addr := x.sv l
  let cap := x.sv (l + 1)
  let r := (live.map fun c => (c.1, src.getD c.2 0)).foldl (qntStep x.ctl ts tq f.rnd.toNat g outMode (x.sv (l + 2)) rs)
    ⟨[], [], cap, false⟩
  let zeros := if f.z then (codes.filter fun c => !(act.getD c.1 false)).map fun c => (c.1, ((0, 0) : Res)) else []
  let out := sparse (2048 / tyWidth tq) (r.out ++ zeros)
  let fls := out.map fun o => match o with | some r => r.2 | none => 0
  let slots := min cap live.length
  let rows := if outMode ∧ slots ≠ 0 then (List.range ((addr + 8 * slots - 1) / 256 - addr / 256 + 1)).map (· + addr / 256) else []
  let plan := outlierPlan (x.writeBusy s.now) (s.now + 3) rows
  let need := (List.range n).map fun i => live.any fun c => c.2 == i
  let faults := x.vConsume k 0 f.a.toNat ws need ++ x.vConsume k 1 f.b.toNat 32 (recNeed g (live.map (·.1))) ++
    (if outMode then x.consumeS k 3 l ++ x.consumeS k 4 (l + 2) ++ x.consumeS k 5 (l + 1) ++ outlierFault x k addr slots ++
      (if x.timed then (match plan.busy with | some r => [x.classS k 3 (sInfo k r 0 0)] | none => []) else [])
     else [])
  let c := classA x k ts fls
  let writes := vWrite f (tyWidth tq) (out.map fun o => o.map (·.1)) ++
    (if outMode then [.scalar (BitVec.ofNat 6 l) (scalarOf ((addr + 8 * r.entries.length) % 2 ^ 64)),
                      .scalar (BitVec.ofNat 6 (l + 1)) (scalarOf r.cap)] else [])
  let acts := (s.claim 2 plan).landFlags (vSlotOf f) 3 writes (fpFlags ts c.1) (BitVec.ofNat 64 (if r.ofl then 2 ^ stOFL else 0)) c.2
  s.issueFix (.vqnt f) [] true faults (s.bcol plan) none
    (if c.2.isSome then acts else acts.outlierWrites addr r.entries rows)

/-- R235. -/
def execVdqnt (f : VF) (s : State) : Ans :=
  let x := s.tile
  let t := VF.t f
  let tq := vSrcType f
  let wd := VF.w f
  let n := 2048 / wd
  let g := groupSize f
  let act := x.vActive f wd
  let src := x.vElems f.a.toNat (tyWidth tq)
  let rs := x.vElems f.b.toNat 32
  let k := fun i => vPart f * n + i
  let res := (List.range n).map fun i => deq x.ctl t f.rnd.toNat tq (recOf rs g (k i)) (src.getD (k i) 0)
  let live := ((List.range n).filter fun i => act.getD i false).map k
  let need := (List.range (2048 / tyWidth tq)).map fun e => live.contains e
  s.issueSlot (.vdqnt f) [] true
    (x.vConsume (vSlot f) 0 f.a.toNat (tyWidth tq) need ++ x.vConsume (vSlot f) 1 f.b.toNat 32 (recNeed g live)) none
    (s.vLandF f 3 t (vWrite f wd (vOut act f.z (res.map (·.1)))) (vFlags act res))

/-! ## Accumulator rows (R242) -/

/-- The row that imm16 names: z * 128 + row. -/
def accRow (f : VF) : Nat := bits f.imm16.toNat 0 3 * 128 + bits f.imm16.toNat 3 7

def accElems (v : Reg 64) : List Nat := (List.range 128).map fun i => bits v.d.toNat (32 * i) 32

/-- The check of a row's granules, two elements each. -/
def Tile.accConsume (x : Tile) (slot opnd n : Nat) (act : List Bool) : List Flt :=
  match (x.acc n).firstBad fun j => act.getD (2 * j) false || act.getD (2 * j + 1) false with
  | none => []
  | some (j, g) => [(rankI slot, x.issueTrap clsI (badLow g) (badInfo slot opnd (n % 128) j g))]

/-- A row write: one mask bit per element. -/
def accWrite (n : Nat) (out : List (Option Nat)) : List RWrite :=
  let m := packNat 1 (out.map fun o => if o.isSome then 1 else 0)
  if m = 0 then [] else [.acc n (Reg.fresh 64 (packNat 32 (out.map fun o => o.getD 0))) (BitVec.ofNat 128 m)]

/-- The product-sum of one element of `VMACW` (R243). -/
def macEl (ctl t mode : Nat) (sat : Bool) (z a b : Nat) : Res :=
  if tyF t then
    let x := fin ctl t a
    let y := fin ctl t b
    let c := fin ctl 10 z
    let p := mulV x y
    let r := addV mode p.2 c
    fres ctl 10 mode [x, y, c] (p.1 ||| r.1, r.2)
  else (satOr sat 4 (ival 4 z + ival t a * ival t b), 0)

/-- R243. -/
def execVmacw (f : VF) (s : State) : Ans :=
  let x := s.tile
  let t := VF.t f
  let n := accRow f
  let act := x.vActive f 16
  let res := List.zipWith (fun h b => h b)
    (List.zipWith (fun z a b => macEl x.ctl t f.rnd.toNat f.sat z a b) (accElems (x.acc n)) (x.vElems f.a.toNat 16)) (x.vElems f.b.toNat 16)
  s.issueSlot (.vmacw f) [] true
    (x.vConsume (vSlot f) 0 f.a.toNat 16 act ++ x.vConsume (vSlot f) 1 f.b.toNat 16 act ++ x.accConsume (vSlot f) 2 n act) none
    (s.vLandF f 6 10 (accWrite n (vOut act f.z (res.map (·.1)))) (if tyF t then vFlags act res else []))

/-- R244. DESIGN CHOICE: the accumulator row has operand code 2, as for `VMACW` (log entry 28). -/
def execZmovn (f : VF) (s : State) : Ans :=
  let x := s.tile
  let t := VF.t f
  let n := accRow f
  let sh := bits f.imm16.toNat 10 5
  let act := x.vActive f 16
  let res : List Res := (accElems (x.acc n)).map fun z =>
    if tyF t then cvt x.ctl 10 t f.rnd.toNat false z
    else
      let v := ival 4 z
      (satOr f.sat t (rndi f.rnd.toNat (decide (v < 0)) v.natAbs (-(sh : Int))).1, 0)
  s.issueSlot (.zmovn f) [] true (x.accConsume (vSlot f) 2 n act) none
    (s.vLandF f 4 t (vWrite f 16 (vOut act f.z (res.map (·.1)))) (if tyF t then vFlags act res else []))

/-- R245: a carrier; a scalar source is broadcast by R123. DESIGN CHOICE: the event of a granule written in part is logged at issue (log entry
28). -/
def execZmovw (f : VF) (s : State) : Ans :=
  let x := s.tile
  let n := accRow f
  let h := if f.sub.getLsbD 1 then 32 else 0
  let act := x.vActive f 32
  if f.sub.getLsbD 0 then
    let scal := decide (324 ≤ f.a.toNat)
    let v : Reg 32 := if scal then Reg.fresh 32 (packNat 32 (x.vElems f.a.toNat 32)) else x.vreg f.a.toNat
    let o := carryOut v (byteMask 32 (act.map fun a => if a then some 0 else none)) f.z
    let m := packNat 1 (act.map fun a => if a || f.z then 1 else 0)
    let row : Reg 64 := Reg.ofGrans 64 ((List.range 64).map fun j => if h ≤ j ∧ j < h + 32 then o.1.gran (j - h) else .zero)
    s.issueSlot (.zmovw f) [] true (if scal then x.vConsume (vSlot f) 0 f.a.toNat 32 act else []) none
      (if m = 0 then s
       else (s.land (vSlotOf f) 4 [.acc n row (BitVec.ofNat 128 (m <<< (2 * h)))]).regEvents s.cur (o.2.2.map fun j => regGran 3 n (h + j)))
  else
    s.issueSlot (.zmovw f) [] true [] none
      (s.vCarry f 4 (Reg.ofGrans 32 ((List.range 32).map fun j => (x.acc n).gran (h + j))) act 32)

end Sys2Proof.Machine
end

