-- ==== Sys2Proof/Machine/Matrix.lean ====
section
/-! DEFINITION. The matrix engine (R249 to R275): weight images, streaming, accumulation, zero points, draining, and the
engine's cycle. -/

namespace Sys2Proof.Machine

open Check

/-! ## Modes and images (Tables 9-2 and 9-4) -/

/-- Element width of a multiply mode: 0 BF16, 1 FP16, 2 INT8, 3 INT4. -/
def modeBits (m : Nat) : Nat := if m < 2 then 16 else if m = 2 then 8 else 4

/-- Float type of a mode. -/
def modeType (m : Nat) : Nat := if m = 0 then 8 else 9

/-- Mode, K positions of a pair and the most pairs, by fmt byte (Table 9-4). -/
def imageOf (fmt : Nat) : Option (Nat × Nat × Nat) :=
  let t := fmt % 32
  if bits fmt 5 2 ≠ 0 then
    if t = 12 then some (0, 8, 16) else some (0, 4, 32)
  else if t = 8 then some (0, 2, 64)
  else if t = 9 then some (1, 2, 64)
  else if t = 0 ∨ t = 1 then some (2, 4, 64)
  else if t = 11 ∨ t = 12 then some (3, 8, 64)
  else none

def imageMode (fmt : Nat) : Nat := match imageOf fmt with | some m => m.1 | none => 0
def imageK (fmt p : Nat) : Nat := match imageOf fmt with | some m => m.2.1 * p | none => 0

/-- Group size of a QG image. -/
def imageG (fmt : Nat) : Nat := 16 * 2 ^ bits fmt 5 2

def isQg (fmt : Nat) : Bool := bits fmt 5 2 != 0

def MCmd.isLoad (c : MCmd) : Bool := c.o == mMLDB || c.o == mMLDBT

/-- The command uses a weight slot (R255). -/
def MCmd.usesW (c : MCmd) : Bool := [mMMA, mMMAZ, mMMAC, mMROWSUM, mMZPC].contains c.o

/-- The last event of a command (Table 9-6). -/
def MCmd.last (c : MCmd) : Nat :=
  if c.isLoad then
    let recs := if isQg c.fmtA then 512 * c.rows * 8 / tyWidth (c.fmtA % 32) / imageG c.fmtA else 0
    c.s + 16 + ceilDiv (512 * c.rows + 4 * recs) 512
  else if [mMMA, mMMAZ, mMMAC, mMROWSUM].contains c.o then c.s + 19 + c.rows
  else if c.o = mMZLD then c.s + 3 + c.rows
  else if c.o = mMZPC then c.s + 2 + c.rows
  else if c.o = mMDRAIN then c.s + 7 + c.rows
  else c.s + c.rows

/-- Cycles from S to the first row written. -/
def MCmd.lat (c : MCmd) : Nat :=
  if [mMMA, mMMAZ, mMMAC, mMROWSUM].contains c.o then 20
  else if c.o = mMZLD then 4
  else if c.o = mMZPC then 3
  else if c.o = mMDRAIN then 8
  else 1

/-- The current image of a slot (R250), that of the latest-issued load into it: its number, its ready cycle and its mode. Numbers rise in
issue order. -/
def Tile.curImage (x : Tile) (w : Nat) : Option (Nat × Nat × Nat) :=
  let v := x.w.get .empty w
  match (x.mq.filter fun c => c.isLoad && c.f.w.toNat == w).getLast? with
  | some c => if c.id < v.img then v.ready.map fun r => (v.img, r, v.mode) else some (c.id, c.last, imageMode c.fmtA)
  | none => v.ready.map fun r => (v.img, r, v.mode)

/-! ## Images as elements -/

/-- The codes of an image, in image order. -/
def WSlot.codes (v : WSlot) : Array Nat :=
  let w := tyWidth (v.fmt.toNat % 32)
  ((List.range (v.kl * 128 * w / 2048)).flatMap fun r => elems w (v.rows.get (.zero 32) r).d.toNat).toArray

/-- Position of B[k][j] in the image (R253). -/
def WSlot.pos (v : WSlot) (k j : Nat) : Nat := if v.trans then j * v.kl + k else 128 * k + j

/-- The group record of code n of an image: it stands in its row's own records (R184, R253). -/
def WSlot.recOf (v : WSlot) (n : Nat) : Nat :=
  let e := 2048 / tyWidth (v.fmt.toNat % 32)
  let g := imageG v.fmt.toNat
  bits (v.recs.get (.zero 32) (n / e)).d.toNat (32 * (n % e / g)) 32

/-- B[k][j] of a float image after FZI, expanded when it is a QG image (R92, R255). -/
def WSlot.fEl (v : WSlot) (ctl : Nat) (codes : Array Nat) (k j : Nat) : FVal :=
  let n := v.pos k j
  let q := codes.getD n 0
  let t := modeType v.mode
  fin ctl t (if isQg v.fmt.toNat then (deq 0 8 0 (v.fmt.toNat % 32) (v.recOf n) q).1 else q)

/-- B[k][j] of an integer image. -/
def WSlot.iEl (v : WSlot) (sgn : Bool) (codes : Array Nat) (k j : Nat) : Int :=
  let q := codes.getD (v.pos k j) 0
  if sgn then Sys2Proof.sext (modeBits v.mode) q else q

/-- The 32-bit elements of a sum that is kept per column. -/
def columnReg (l : List Int) : Reg 64 := Reg.fresh 64 (packNat 32 (l.map (wrapI 32)))

def columnAt (v : Reg 64) (j : Nat) : Int := Sys2Proof.sext 32 (bits v.d.toNat (32 * j) 32)

/-- Column sums (R254). -/
def WSlot.sums (v : WSlot) : Reg 64 :=
  if v.mode < 2 then .zero 64
  else
    let c := v.codes
    columnReg ((List.range 128).map fun j => ((List.range v.kl).map fun k => v.iEl v.sgnB c k j).sum)

/-! ## Products (R104, R105, R258) -/

/-- One rounding stage: the exact sum, rounded once. -/
def stage : List FVal → FVal × Nat
  | [] => (.fin false 0 0, 0)
  | v :: vs =>
    let r := vs.foldl (fun (a : Nat × FVal) x => let b := addV 0 a.2 x; (a.1 ||| b.1, b.2)) (0, v)
    let o := roundF 10 0 r.2
    (fval 10 o.1, r.1 ||| o.2)

/-- Lists of eight. -/
def eights (l : List FVal) : List (List FVal) := (List.range 16).map fun g => (l.drop (8 * g)).take 8

/-- `mmasum` of R104 on the products of one element, with the flags of every stage. A NaN product raises IV. The last
stage adds from `z` on: DESIGN CHOICE: with `z` a quiet NaN and opposite infinities to add it raises no IV (log entry 8). -/
def mmasum (ctl : Nat) (z : FVal) (ps : List (Nat × FVal)) : Res :=
  let f0 := ps.foldl (fun f p => f ||| p.1 ||| if p.2.isNan then flIV else 0) (ivOf [z])
  let s1 := (eights (ps.map (·.2) ++ List.replicate (128 - ps.length) (.fin false 0 0))).map stage
  let s2 := [stage ((s1.take 8).map (·.1)), stage ((s1.drop 8).map (·.1))]
  let r := (s2.map (·.1)).foldl (fun (a : Nat × FVal) x => let b := addV 0 a.2 x; (a.1 ||| b.1, b.2)) (0, z)
  let o := fzo ctl 10 (roundF 10 0 r.2)
  (o.1, (s1 ++ s2).foldl (fun f s => f ||| s.2) (f0 ||| r.1 ||| o.2))

/-- Elements of an A row for k < Kl as floats after FZI. -/
def aFloats (ctl mode kl : Nat) (row : Reg 32) : List FVal := ((elems 16 row.d.toNat).take kl).map (fin ctl (modeType mode))

/-- Elements of an A row for k < Kl as integers. -/
def aInts (mode kl : Nat) (sgn : Bool) (row : Reg 32) : List Int :=
  ((elems (modeBits mode) row.d.toNat).take kl).map fun a => if sgn then Sys2Proof.sext (modeBits mode) a else a

/-- Row results of `MMA`, `MMAZ`, `MMAC` (R258): `old` is none where rows start from zero. -/
def mmaRow (ctl : Nat) (f : MF) (v : WSlot) (row : Reg 32) (old : Option (List Nat)) : List Res :=
  let codes := v.codes
  if v.mode < 2 then
    let as_ := aFloats ctl v.mode v.kl row
    (List.range 128).map fun j =>
      let z := match old with | some o => fval 10 (o.getD j 0) | none => .fin true 0 0
      mmasum ctl z (as_.mapIdx fun k a => mulV a (v.fEl ctl codes k j))
  else
    let as_ := aInts v.mode v.kl f.sgnA row
    (List.range 128).map fun j =>
      let z := match old with | some o => ival 4 (o.getD j 0) | none => 0
      (satOr f.sat 4 ((as_.mapIdx fun k a => a * v.iEl f.sgnB codes k j).sum + z), 0)

/-- A fill row (R260). -/
def fillRow (mode fill : Nat) : Reg 32 :=
  let w := modeBits mode
  Reg.fresh 32 (packNat w (List.replicate (2048 / w) (fill % 2 ^ w)))

/-- `MZPC` on one row (R263). -/
def zpcRow (f : MF) (v : WSlot) (zb : Reg 32) (rs : Int) (old : List Nat) : List Nat :=
  let za : Int := if f.sgnA then Sys2Proof.sext 8 f.pitch.toNat else f.pitch.toNat
  old.mapIdx fun j z =>
    let b := bits zb.d.toNat (8 * j) 8
    let zb : Int := if f.sgnB then Sys2Proof.sext 8 b else b
    satOr f.sat 4 (ival 4 z + (-(zb * rs) - za * columnAt v.colsum j + v.kl * za * zb))

/-- Drain output of one row with its flags (R265): the elements and their width. -/
def drainRow (fmt ctl : Nat) (params : List (Reg 32)) (zs : List Nat) : List Res × Nat :=
  if fmt < 2 then
    let m := (params.take 2).flatMap fun r => elems 32 r.d.toNat
    let p := (params.getD 2 (.zero 32)).d.toNat
    let zo := Sys2Proof.sext 32 (bits p 1024 32)
    (zs.mapIdx fun j z =>
      let sh := bits p (8 * j) 6
      let y := ival 4 z * ival 4 (m.getD j 0)
      let y := if sh = 0 then y else y + 2 ^ (sh - 1)
      (satT (1 - fmt) (y / 2 ^ sh + zo), 0), 8)
  else if fmt = 2 then (zs.map fun z => cvt (ctl &&& (2 ^ 64 - 2)) 10 8 0 false z, 16)
  else (zs.map fun z => (z, 0), 32)

/-! ## Faults of a command -/

/-- TRAPINFO of Table 9-8. -/
def MCmd.info (c : MCmd) (sub row off : Nat) : Nat :=
  sub * 2 ^ 8 + c.f.z.toNat * 2 ^ 12 + c.f.w.toNat * 2 ^ 15 + row % 128 * 2 ^ 17 + min off 0xFFFFF * 2 ^ 24

abbrev DueFault := Nat × Nat × TrapReq

def MCmd.flt (c : MCmd) (cls low : BitVec 4) (info : Nat) : DueFault :=
  (c.issue, 3, { cls := cls, low := low, info := BitVec.ofNat 64 info, kind := .after, pc := c.pc })

/-- Class I of a stream or accumulator granule (R271). -/
def MCmd.bad (c : MCmd) (row : Nat) (b : Nat × Gran) : DueFault := c.flt clsI (badLow b.2) (badInfo 3 6 row b.1 b.2)

/-- The lowest row left unwritten at engine cycle e, or the failing pair (Table 9-8). -/
def MCmd.unwritten (c : MCmd) (e : Nat) : Nat := if c.isLoad then e - c.s - 1 else min c.rows (e - c.s - c.lat)

/-- A row that is not available at its read cycle (R270): the subcode; `erc` is STATUS.ERC at the command's issue (R163). -/
def Tile.rowLate (x : Tile) (erc : Bool) (now row : Nat) : Option Nat :=
  if x.readBusy now (row / 128) then some 1
  else if (erc && x.pend.get 0 row != 0) || x.isLate row then some 2
  else none

/-! ## Start of a command at S (R252, R255, R265) -/

/-- The first bad granule of an image, with the row it is reported for. -/
def WSlot.firstBad (v : WSlot) : Option (Nat × Nat × Gran) :=
  let n := v.kl * 128 * tyWidth (v.fmt.toNat % 32) / 2048
  (List.range n).findSome? fun r =>
    match (v.rows.get (.zero 32) r).firstBad fun _ => true with
    | some b => some (r, b)
    | none => ((v.recs.get (.zero 32) r).firstBad fun _ => isQg v.fmt.toNat).map fun b => (r, b)

/-- What happens at S: the image is latched, the drain's parameters are read. -/
def MCmd.begin_ (c : MCmd) (x : Tile) : MCmd × Option DueFault :=
  if c.usesW then
    let v := x.w.get .empty c.f.w.toNat
    if v.ready.isNone ∨ v.img ≠ c.img then (c, some (c.flt clsS 6 (c.info 3 0 c.start)))
    else match v.firstBad with
      | some b => (c, some (c.bad b.1 b.2))
      | none => ({ c with image := some v }, none)
  else if c.o = mMDRAIN ∧ c.dfmt < 2 then
    let q := 308 + 3 * c.f.w.toNat
    let ps := [x.vec q, x.vec (q + 1), x.vec (q + 2)]
    match (ps.mapIdx fun i p => (p.firstBad fun j => i < 2 || decide (j < 17))).findSome? fun o => o with
    | some b => (c, some (c.bad 0 b))
    | none => ({ c with params := ps }, none)
  else (c, none)

/-- A failed command leaves the queue: its pending drain rows are no longer pending, and a failing load leaves its slot EMPTY
(R270). -/
def Tile.dropCmd (x : Tile) (c : MCmd) (e : Nat) : Tile :=
  let x := { x with mq := x.mq.filter fun d => d.id != c.id }
  let x := if c.isLoad then { x with w := x.w.set .empty c.f.w.toNat { WSlot.empty with img := max c.id (x.w.get .empty c.f.w.toNat).img } } else x
  x.subPend ((List.range c.rows).flatMap fun i => if e ≤ c.s + 8 + i then c.drains i else [])

/-- Commands whose start cycle is this one. -/
def Tile.beginDue (x : Tile) : Tile :=
  if x.mheld then x
  else
    (x.mq.filter fun c => c.s == x.mclk).foldl (fun x c =>
      match c.begin_ x with
      | (_, some f) => { x.dropCmd c x.mclk with dueF := x.dueF ++ [f] }
      | (d, none) => { x with mq := x.mq.map fun a => if a.id = c.id then d else a }) x

/-! ## One engine cycle -/

/-- The records of one code row of a QG image, from its bank's companion. -/
def recRowReg (pad : Store) (bf r : Nat) : Reg 32 :=
  let n := 2048 / tyWidth (bfType bf) / (16 * 2 ^ bfGroup bf) / 2
  let a := recAddr bf (r % 128) 0 / 8
  Reg.ofGrans 32 ((List.range 32).map fun j => if j < n then pad.gran (a + j) else .zero)

/-- Reads of engine cycle e: the command with what it read, or its fault, and whether a port collision was met. DESIGN CHOICE: class I of a
pair's granule in integer mode reports the pair's number for both of its bank rows, and the check at the latch the image row; the spec says
row and no more (log entry 28). -/
def MCmd.readAt (c : MCmd) (x : Tile) (now e : Nat) : MCmd × Option DueFault × Bool :=
  if e ≤ c.s then (c, none, false)
  else
    let i := e - c.s - 1
    let rows := c.reads i
    match rows.findSome? fun r => x.rowLate c.erc now r with
    | some sub => (c, some (c.flt clsS 7 (c.info sub (c.unwritten e) (e + c.start - c.s))), sub == 1)
    | none =>
      let rd := fun r => x.pad.reg (32 * r) 32
      let got := fun (v : Reg 32) (need : Nat) =>
        match v.firstBad fun j => decide (j < need) with
        | some b => (c, some (c.bad i b), false)
        | none => ({ c with src := c.src.set (.zero 32) i v }, none, false)
      let kneed := fun v : WSlot => ceilDiv (v.kl * modeBits v.mode) 64
      match rows, c.image with
      | r :: _, _ =>
        if c.isLoad then
          let a := rd r
          let b := rd (r + 128)
          let chk := fun v : Reg 32 => if imageMode c.fmtA < 2 then none else v.firstBad fun _ => true
          match chk a, chk b with
          | some g, _ => (c, some (c.bad i g), false)
          | none, some g => (c, some (c.bad i g), false)
          | none, none =>
            let d := { c with src := (c.src.set (.zero 32) (2 * i) a).set (.zero 32) (2 * i + 1) b }
            match c.cv with
            | [b0, b1] =>
              let recs := (d.src2.set (.zero 32) (2 * i) (recRowReg x.pad b0.toNat r)).set (.zero 32) (2 * i + 1)
                (recRowReg x.pad b1.toNat r)
              (if isQg c.fmtA then { d with src2 := recs } else d, none, false)
            | _ => (d, none, false)
        else if c.o = mMZLD then
          ({ c with src := c.src.set (.zero 32) i (rd r), src2 := c.src2.set (.zero 32) i (rd (r + 128)) }, none, false)
        else if c.o = mMZPC then got (rd r) 16
        else got (rd r) (match c.image with | some v => kneed v | none => 32)
      | [], some v =>
        if c.o = mMMAC ∧ i < c.rows ∧ c.conv i = .fill then
          ({ c with src := c.src.set (.zero 32) i (fillRow v.mode (bits (c.cv.getD 2 0).toNat 48 16)) }, none, false)
        else (c, none, false)
      | [], none => (c, none, false)

/-- What a command writes in a cycle. -/
structure MOut where
  land : Option Landing
  rs : Option (Nat × Reg 1)
  pad : List GWrite
  rows : List Nat

def MOut.none : MOut := { land := .none, rs := .none, pad := [], rows := [] }

def MCmd.result (c : MCmd) (ws : List RWrite) (fp st : Word) : Landing :=
  { id := 0, due := 0, issue := c.issue, tc := c.tc, slot := 3, pc := c.pc, writes := ws, fp := fp, st := st, fault := none, waiting := false,
    hold := false }

/-- A whole accumulator row. -/
def MCmd.accRow (c : MCmd) (i : Nat) : Nat := c.f.z.toNat * 128 + c.f.zrow0.toNat + i

def MCmd.rowOut (c : MCmd) (i : Nat) (v : Reg 64) (fp : Nat) : MOut :=
  { MOut.none with land := some (c.result [.acc (c.accRow i) v (BitVec.ofNat 128 (2 ^ 128 - 1))] (fpFlags 10 fp) 0) }

/-- The check of an old accumulator row (R271). -/
def MCmd.oldBad (c : MCmd) (x : Tile) (i : Nat) : Option DueFault :=
  ((x.acc (c.accRow i)).firstBad fun _ => true).map (c.bad (c.f.zrow0.toNat + i))

/-- Writes of engine cycle e (R257: from the rows as they stood after the cycle before). -/
def MCmd.writeAt (c : MCmd) (x : Tile) (e : Nat) : MCmd × MOut × Option DueFault :=
  let start := c.s + c.lat
  let i := e - start
  let ctl := c.fpctl.toNat
  if c.o = mMDRAIN then
    let rd : MCmd × Option DueFault :=
      if c.s + 2 ≤ e ∧ e < c.s + 2 + c.rows then
        let k := e - c.s - 2
        match c.oldBad x k with
        | some f => (c, some f)
        | none =>
          let o := drainRow c.dfmt ctl c.params (accElems (x.acc (c.accRow k)))
          let d := packNat o.2 (o.1.map (·.1))
          ({ c with src := c.src.set (.zero 32) k (Reg.fresh 32 (d % 2 ^ 2048)),
                    src2 := c.src2.set (.zero 32) k (Reg.fresh 32 (d / 2 ^ 2048)),
                    fls := c.fls.set 0 k (o.1.foldl (fun f r => f ||| r.2) 0) }, none)
      else (c, none)
    match rd with
    | (c, some f) => (c, .none, some f)
    | (c, none) =>
      if start ≤ e ∧ i < c.rows then
        let a := c.addr i
        let v := c.src.get (.zero 32) i
        let n := if c.dfmt < 2 then 128 else 256
        (c, { MOut.none with
              land := some (c.result [.latch 3 v (BitVec.ofNat 256 (2 ^ 256 - 1))] (fpFlags 8 (c.fls.get 0 i)) 0),
              pad := gwCarry (a / 8) v (2 ^ n - 1) ++
                (if c.dfmt = 3 then gwCarry ((a + 32768) / 8) (c.src2.get (.zero 32) i) (2 ^ 256 - 1) else []),
              rows := c.drains i }, none)
      else (c, .none, none)
  else if e < start ∨ c.rows ≤ i ∨ c.isLoad then (c, .none, none)
  else if c.o = mMZERO then (c, c.rowOut i (.zero 64) 0, none)
  else if c.o = mMZSET then (c, c.rowOut i (Reg.fresh 64 (packNat 32 (List.replicate 128 c.base.d.toNat))) 0, none)
  else if c.o = mMZLD then
    let l := c.src.get (.zero 32) i
    let h := c.src2.get (.zero 32) i
    (c, c.rowOut i (Reg.ofGrans 64 (l.grans ++ h.grans)) 0, none)
  else match c.image with
    | none => (c, .none, none)
    | some v =>
      let row := c.src.get (.zero 32) i
      if c.o = mMROWSUM then
        (c, { MOut.none with rs := some (c.f.zrow0.toNat + i, scalarOf (wrapI 32 (aInts v.mode v.kl c.f.sgnA row).sum)) }, none)
      else if c.o = mMZPC then
        match c.oldBad x i with
        | some f => (c, .none, some f)
        | none =>
          let rs := x.rowSum (c.f.zrow0.toNat + i)
          match rs.firstBad fun _ => true with
          | some b => (c, .none, some (c.bad (c.f.zrow0.toNat + i) b))
          | none =>
            match v.colsum.firstBad fun _ => true with
            | some b => (c, .none, some (c.bad 0 b))
            | none => (c, c.rowOut i (Reg.fresh 64 (packNat 32 (zpcRow c.f v (c.src.get (.zero 32) 0)
              (Sys2Proof.sext 32 rs.d.toNat) (accElems (x.acc (c.accRow i)))))) 0, none)
      else if c.o = mMMAC ∧ c.conv i = .past then
        (c, { MOut.none with land := some (c.result [] 0 (BitVec.ofNat 64 (2 ^ stCVO))) }, none)
      else
        match if c.o = mMMAZ then none else c.oldBad x i with
        | some f => (c, .none, some f)
        | none =>
          let r := mmaRow ctl c.f v row (if c.o = mMMAZ then none else some (accElems (x.acc (c.accRow i))))
          (c, c.rowOut i (Reg.fresh 64 (packNat 32 (r.map (·.1)))) (if v.mode < 2 then r.foldl (fun f a => f ||| a.2) 0 else 0), none)

/-- A load ends: its image is in the slot (R254), unless a later-issued load has ended: the slot has its image, or is EMPTY
when it failed (R250). -/
def MCmd.loaded (c : MCmd) (x : Tile) : Tile :=
  let o := x.w.get .empty c.f.w.toNat
  if c.id < o.img then x
  else
  let v : WSlot := { ready := some c.last, img := c.id, mode := imageMode c.fmtA, kl := imageK c.fmtA c.rows, fmt := BitVec.ofNat 8 c.fmtA,
                     trans := c.o == mMLDBT, sgnB := c.f.sgnB, rows := c.src, recs := c.src2, colsum := .zero 64 }
  { x with w := x.w.set .empty c.f.w.toNat { v with colsum := v.sums } }

/-- Replaces or drops a command after a step of it. -/
def Tile.stepCmd (x : Tile) (c : MCmd) (e : Nat) (f : Option DueFault) : Tile :=
  match f with
  | some f => { x.dropCmd c e with dueF := x.dueF ++ [f] }
  | none => { x with mq := x.mq.map fun d => if d.id = c.id then c else d }

/-- The engine's cycle e: all reads, then all writes; the rows it drains are written now, and the accumulator rows land with the
other results of the cycle (R257). -/
def Tile.matrixStep (x : Tile) (now : Nat) : Tile :=
  let e := x.mclk + 1
  let x := { x with mclk := e }
  let x := x.mq.foldl (fun y c =>
    let r := c.readAt x now e
    let y := if r.2.2 then y.raiseBcol else y
    y.stepCmd r.1 e r.2.1) x
  let x := { x with resv := x.resv ++ x.mq.flatMap fun (c : MCmd) =>
    if c.s < e then (c.reads (e - c.s - 1)).map fun r => (now, r / 128, 3) else [] }
  let old := x
  let a := x.mq.foldl (fun (a : Tile × List MOut) c =>
    let r := c.writeAt old e
    (a.1.stepCmd r.1 e r.2.2, a.2 ++ [r.2.1])) (x, [])
  let x := a.2.foldl (fun (x : Tile) o =>
    let x := { x with mxNow := x.mxNow ++ o.land.toList, pad := x.pad.writes o.pad,
                      resv := x.resv ++ o.rows.map fun r => (now, r / 128, 2) }
    let x := x.subPend o.rows
    match o.rs with
    | some r => x.setRowSum r.1 r.2
    | none => x) a.1
  (x.mq.filter fun c => c.last ≤ e).foldl (fun x c =>
    let x := if c.isLoad then c.loaded x else x
    { x with mq := x.mq.filter fun d => d.id != c.id }) x

/-- The matrix engine of a tile in a cycle; held engines (R272, R430) and throttled ones (R27) stand still. -/
def State.matrixCycle (s : State) (t : Tid) : State :=
  let x := s.tileAt t
  if x.mheld || x.throttled.isSome then s else s.setTile t (x.matrixStep s.now)

/-! ## Issue (R251 to R256, R269) -/

/-- A command as it is issued. -/
def State.command (s : State) (op : Nat) (f : MF) (cv : List Word) : MCmd :=
  let x := s.tile
  { id := s.nextId, op := BitVec.ofNat 6 op, f := f, pc := x.pc, issue := x.rclk, tc := x.tcyc.toNat, s := x.mclk + f.start.toNat,
    start := f.start.toNat, base := x.scalar f.abase.toNat, cv := cv, fpctl := x.sreg srFPCTL, erc := x.st stERC, img := 0, image := none, fmtA := 0, src := [],
    src2 := [], params := [], fls := [] }

/-- Alignment of abase, then the range of every row, `ext` bytes from its address (R253, R256). -/
def Tile.mRows (x : Tile) (align base ext : Nat) (addrs : List Nat) : List Flt :=
  if base % align ≠ 0 then [x.localT 3 3 base]
  else match addrs.find? fun a => padSize < a + ext with
    | none => []
    | some a => [x.localT 3 1 (if padSize ≤ a then a else a + 32768)]

def windowsMeet (a b : MCmd) : Bool :=
  a.window != 0 && b.window != 0 && decide (a.s < b.s + b.window) && decide (b.s < a.s + a.window)

/-- Table 9-7, in subcode order. -/
def Tile.mSched (x : Tile) (c : MCmd) : List Flt :=
  let no := fun sub => [x.classS 3 6 (c.info sub 0 0)]
  let img := x.curImage c.f.w.toNat
  (if x.mq.any (windowsMeet c) then no 1 else []) ++
  (if 8 ≤ x.mq.length then no 2 else []) ++
  (if c.usesW && (match img with | none => true | some m => decide (c.s < m.2.1)) then no 3 else []) ++
  (if c.isLoad ∧ x.mq.any (fun q => q.usesW && q.f.w == c.f.w && decide (c.s < q.s)) then no 4 else []) ++
  (if (c.o == mMROWSUM || c.o == mMZPC) && (match img with | some m => decide (m.2.2 < 2) | none => false) then no 5 else [])

/-- In a handler only `MXSAVE` and `MXREST` stand in the M slot (R425). -/
def Tile.mHandler (x : Tile) : List EncErr := comboErr x.trp

/-- Issues a command: local class T before record checks before class S (R413). -/
def State.mIssue (s : State) (i : Instr) (c : MCmd) (own t e : List Flt) : Host.Outcome State Fault Refusal :=
  let x := s.tile
  let c := { c with img := match x.curImage c.f.w.toNat with | some m => m.1 | none => 0 }
  let fs := own ++ t ++ (if t.isEmpty then e ++ (if e.isEmpty then x.mSched c else []) else [])
  let act :=
    let s := { s with nextId := s.nextId + 1 }
    s.onTile fun x =>
      let x := { x with mq := x.mq ++ [c] }
      let x := x.addPend ((List.range c.rows).flatMap c.drains)
      if c.start = 0 then
        match c.begin_ x with
        | (_, some f) => { x.dropCmd c x.mclk with dueF := x.dueF ++ [f] }
        | (d, none) => { x with mq := x.mq.map fun a => if a.id = c.id then d else a }
      else x
  s.issueSlot i x.mHandler true fs none act

def rowAddrs (c : MCmd) : List Nat := (List.range c.rows).map c.addr

/-- Banks whose format is not the A element format of the image's mode (R256). -/
def Tile.aFormat (x : Tile) (w : Nat) (addrs : List Nat) : List Flt :=
  match x.curImage w with
  | none => []
  | some m =>
    let ok := fun b => let t := bfType b; bfGroup b == 0 &&
      (match m.2.2 with | 0 => t == 8 | 1 => t == 9 | 2 => t == 0 || t == 1 | _ => t == 11 || t == 12)
    if addrs.all fun a => ok (x.bfmt (bankOf a)) then [] else [x.recTrap 3 0 0 7]

/-- `MLDB` and `MLDBT` (R253). -/
def State.mLoad (s : State) (i : Instr) (f : MF) (op : Nat) : Host.Outcome State Fault Refusal :=
  let x := s.tile
  let a := x.sv f.abase.toNat
  let b0 := x.bfmt (bankOf a % 64)
  let b1 := x.bfmt ((bankOf a + 1) % 64)
  let fmt := b0 % 256
  let c := { s.command op f [BitVec.ofNat 64 b0, BitVec.ofNat 64 b1] with fmtA := fmt }
  let ok := match imageOf fmt with
    | none => false
    | some m => b1 % 256 == fmt && decide (f.rows.toNat ≤ m.2.2) &&
        !(op == mMLDBT && isQg fmt && imageK fmt f.rows.toNat % imageG fmt != 0)
  s.mIssue i c (x.consumeS 3 3 f.abase.toNat) (x.mRows 256 a (32768 + 256) (rowAddrs c)) (if ok then [] else [x.recTrap 3 0 0 7])

/-- R253 to R255. -/
def execMldb (f : MF) (s : State) : Host.Outcome State Fault Refusal := s.mLoad (.mldb f) f mMLDB

/-- R253 to R255. -/
def execMldbt (f : MF) (s : State) : Host.Outcome State Fault Refusal := s.mLoad (.mldbt f) f mMLDBT

/-- A command that streams A rows at a pitch (R256). -/
def State.mStream (s : State) (i : Instr) (f : MF) (op : Nat) : Host.Outcome State Fault Refusal :=
  let x := s.tile
  let c := s.command op f []
  s.mIssue i c (x.consumeS 3 3 f.abase.toNat) (x.mRows 256 c.base.d.toNat 256 (rowAddrs c)) (x.aFormat f.w.toNat (rowAddrs c))

/-- R258. -/
def execMma (f : MF) (s : State) : Host.Outcome State Fault Refusal := s.mStream (.mma f) f mMMA

/-- R258. -/
def execMmaz (f : MF) (s : State) : Host.Outcome State Fault Refusal := s.mStream (.mmaz f) f mMMAZ

/-- R262. -/
def execMrowsum (f : MF) (s : State) : Host.Outcome State Fault Refusal := s.mStream (.mrowsum f) f mMROWSUM

/-- The first field of the convolution descriptor that is not admitted, as bits of the 192-bit record (R259). -/
def convErr (r : Nat) : Option (Nat × Nat) :=
  [(0, 16), (16, 16), (32, 16), (64, 16), (80, 16), (96, 4), (100, 4), (104, 4), (108, 4)].foldl
    (fun b p => if b.isSome then b else if bits r p.1 p.2 = 0 then some (p.1, p.1 + p.2 - 1) else none) none

/-- R259, R260. -/
def execMmac (f : MF) (s : State) : Host.Outcome State Fault Refusal :=
  let x := s.tile
  let cv := (List.range 3).map fun k => x.sreg (srCVDIM + k)
  let r := packNat 64 (cv.map (·.toNat))
  let c := s.command mMMAC f cv
  let addrs := (List.range c.rows).filterMap fun i => match c.conv i with | .bank a => some a | _ => none
  let rec_ := match convErr r with
    | some p => if bits r 48 16 ≠ 0 ∧ 48 < p.1 then [x.recTrap 3 0 48 63] else [x.recTrap 3 0 p.1 p.2]
    | none => if bits r 48 16 ≠ 0 then [x.recTrap 3 0 48 63] else []
  s.mIssue (.mmac f) c (x.consumeS 3 3 f.abase.toNat) (x.mRows 256 c.base.d.toNat 256 (if rec_.isEmpty then addrs else []))
    (if rec_.isEmpty then x.aFormat f.w.toNat addrs else rec_)

/-- R261. -/
def execMzero (f : MF) (s : State) : Host.Outcome State Fault Refusal := s.mIssue (.mzero f) (s.command mMZERO f []) [] [] []

/-- R261. DEDUCED: its scalar is reported with operand code 0, against the list of R271 (log entry 8). -/
def execMzset (f : MF) (s : State) : Host.Outcome State Fault Refusal :=
  s.mIssue (.mzset f) (s.command mMZSET f []) (s.tile.consumeS 3 0 f.abase.toNat) [] []

/-- R263. -/
def execMzpc (f : MF) (s : State) : Host.Outcome State Fault Refusal :=
  let x := s.tile
  let c := s.command mMZPC f []
  s.mIssue (.mzpc f) c (x.consumeS 3 3 f.abase.toNat) (x.mRows 256 c.base.d.toNat 256 [c.base.d.toNat]) []

/-- R264 to R266. -/
def execMdrain (f : MF) (s : State) : Host.Outcome State Fault Refusal :=
  let x := s.tile
  let c := s.command mMDRAIN f []
  let d := c.dfmt
  let w := if d < 2 then 8 else if d = 2 then 16 else 32
  let ext := if d < 2 then 128 else if d = 2 then 256 else 32768 + 256
  let addrs := rowAddrs c ++ (if d = 3 then (rowAddrs c).map (· + 32768) else [])
  s.mIssue (.mdrain f) c (x.consumeS 3 3 f.abase.toNat) (x.mRows (if d < 2 then 128 else 256) c.base.d.toNat ext (rowAddrs c))
    (if bankClash x w addrs then [x.recTrap 3 0 0 7] else [])

/-- R267. -/
def execMzld (f : MF) (s : State) : Host.Outcome State Fault Refusal :=
  let x := s.tile
  let c := s.command mMZLD f []
  s.mIssue (.mzld f) c (x.consumeS 3 3 f.abase.toNat) (x.mRows 256 c.base.d.toNat (32768 + 256) (rowAddrs c)) []

/-! ## The array image (R425, R426) -/

/-- Row 0 of an array image. -/
def mxHeader (tcyc : Word) : Reg 32 := Reg.fresh 32 (0x4D584131 + 2 ^ 32 + tcyc.toNat * 2 ^ 64)

/-- A granule of rows 1 to 191: its word has no published meaning, and its rind is carried out of the array, which can hold a bad one
only while a command is held (log entry 3). -/
def mxGran (held : Bool) (n : Nat) : Gran := ⟨Config.freeWord n, rindOf (held && Config.freeBit n) (Config.freeWord n)⟩

/-- The rows of an array image (R425, R426). -/
def mxRows (tcyc : Word) (held : Bool) (free : Nat) : List (Reg 32) :=
  mxHeader tcyc :: (List.range 191).map fun j => Reg.ofGrans 32 ((List.range 32).map fun k => mxGran held (free + 32 * j + k))

/-- Faults of the image's address. -/
def Tile.mxAddr (x : Tile) (f : MF) : List Flt :=
  x.consumeS 3 3 f.abase.toNat ++ x.mRows 256 (x.sv f.abase.toNat) 256 ((List.range 192).map fun j => x.sv f.abase.toNat + 256 * j)

/-- Conditions of `MXSAVE` and `MXREST`: supervisor level (R127), and in a handler (R425). Outside one the slot combination is reported, whose
field begins at bit 0 of the bundle (R130). -/
def Tile.mxErrs (x : Tile) : List EncErr := privErr 3 x.sv? ++ comboErr (!x.trp)

/-- R425, R426. -/
def execMxsave (f : MF) (s : State) : Host.Outcome State Fault Refusal :=
  let x := s.tile
  let a := x.sv f.abase.toNat
  let rows := mxRows x.tcyc (!x.mq.isEmpty) s.free
  let s1 := { s with free := s.free + 6112, mxImages := (rows, x.mclk, x.mq) :: s.mxImages }
  let s1 := s1.onTile fun x => { x with
    mxAt := some a, mxBusy := max x.mxBusy (s.now + 192),
    resv := x.resv ++ (List.range 192).map fun j => (s.now + 1 + j, bankOf (a + 256 * j), 2) }
  s.issueSlot (.mxsave f) x.mxErrs true (x.mxAddr f) none
    ((rows.mapIdx fun j r => (j, r)).foldl (fun s r => s.schedule (s.now + 1 + r.1) (ordWrite s.cur 0) (.mxRow s.cur (a / 256 + r.1) r.2)) s1)

/-- A row of an array image is written. -/
def State.mxRow (s : State) (t : Tid) (row : Nat) (v : Reg 32) : State := s.padPut t (gwCarry (32 * row) v (2 ^ 256 - 1))

/-- The image's header, by its first wrong field: magic or version. -/
def mxHeaderErr (v : Reg 32) : Option (Nat × Nat) :=
  if bits v.d.toNat 0 32 ≠ 0x4D584131 then some (0, 31) else if bits v.d.toNat 32 8 ≠ 1 then some (32, 39) else none

/-- What `MXREST` reads at issue of the header at `a`: a bad granule is class I in the record's place, else a wrong field is class E
(R131, R426). -/
def Tile.mxHeaderFlt (x : Tile) (a : Nat) : List Flt :=
  let g := x.pad.gran (a / 8)
  if g.bad then [(rankI 3, x.issueTrap clsI (badLow g) (badInfo 3 6 0 (a / 8 % 32) g))]
  else match mxHeaderErr (x.pad.reg (a / 8) 32) with
    | some p => [x.recTrap 3 0 p.1 p.2]
    | none => []

/-- R426. -/
def execMxrest (f : MF) (s : State) : Host.Outcome State Fault Refusal :=
  let x := s.tile
  let a := x.sv f.abase.toNat
  let fs := x.mxAddr f ++ x.mxHeaderFlt a
  s.issueSlot (.mxrest f) x.mxErrs true fs none
    ((s.onTile fun x => { x with mxBusy := max x.mxBusy (s.now + 193) }).schedule (s.now + 1) ordRead (.mxrest s.cur (a / 256) 0 []))

/-- A held command queue comes back: its rows are pending again, and the slots hold the images that its commands were issued with. -/
def Tile.putQueue (x : Tile) (q : List MCmd) : Tile :=
  let img := fun (w : Nat) => (q.find? fun c => c.usesW && c.f.w.toNat == w && !q.any fun l => l.isLoad && l.id == c.img).map (·.img)
  let x := (List.range 4).foldl (fun (x : Tile) w => { x with w := x.w.modify .empty w fun v => { v with img := (img w).getD 0 } }) x
  { x.addPend (q.flatMap fun c => c.undrained x.mclk) with mq := q }

/-- `MXREST` reads row j, or has read them all: the held state of the image that `MXSAVE` wrote comes back, counted from now. An
image that none wrote leaves the array empty (log entry 13). -/
def State.mxrestRow (s : State) (t : Tid) (row j : Nat) (got : List (Reg 32)) : State :=
  if j < 192 then s.schedule (s.now + 1) ordRead (.mxrest t row (j + 1) (got ++ [(s.tileAt t).pad.reg (32 * (row + j)) 32]))
  else s.modTile t fun x =>
    let x := x.subPend (x.mq.flatMap fun c => c.undrained x.mclk)
    match s.mxImages.find? fun m => m.1 == got with
    | some m =>
      x.putQueue (m.2.2.map fun (c : MCmd) => { c with s := c.s + x.mclk - m.2.1 })
    | none => { x with mq := [] }

/-! ## The tile's cycle -/

/-- TILE_CYCLE (R413): results land, commands start (R252), then a trap is taken. -/
def State.tileCycle (s : State) (t : Tid) : State :=
  if (s.tileAt t).throttled.isSome then s else ((s.tileLand t).modTile t Tile.beginDue).tileTrap t

/-- TILE_CYCLE (R413). -/
def execTileCycle (s : State) : Host.Outcome State Fault Refusal := .next (s.tileCycle s.arg.t)

end Sys2Proof.Machine
end

