-- ==== Sys2Proof/Machine/Control.lean ====
section
/-! DEFINITION. The Y slot's control flow: branches, jumps, calls, loops, fences, traps, returns, halting and break points
(R45 to R47, R164 to R170, R407, R420, R421, R429). -/

namespace Sys2Proof.Machine

open Check

/-! ## Fields (Table 5-10) -/


def Tile.yCond (x : Tile) (f : YF) : Bool := x.cond f.pred.toNat f.neg

/-- The address `n` bundles from the bundle due. -/
def Tile.codeAt (x : Tile) (n : Int) : Word := x.pc + BitVec.ofInt 64 (64 * n)

/-- The target of the immediate form (R120). -/
def Tile.immTarget (x : Tile) (f : YF) : Word := x.codeAt (Sys2Proof.sext 20 f.arg.toNat)

/-- A taken transfer (R164). -/
def State.transfer (s : State) (t : Word) : State := s.onTile fun x => { x with branch := some (clear6 t) }

/-- The link of a call: the bundle after the two delay bundles (R167). -/
def State.link (s : State) : State := s.land 7 1 [.scalar 62 (scalarOf (s.tile.pc + 192).toNat)]

/-! ## Branches (R166) -/

/-- R166. -/
def execBr (f : YF) (s : State) : Host.Outcome State Fault Refusal :=
  s.issueSlot (.br f) [] (s.tile.yCond f) [] none (s.transfer (s.tile.immTarget f))

/-- R166: some bit of the predicate xor neg. -/
def execBrp (f : YF) (s : State) : Host.Outcome State Fault Refusal :=
  let p := (s.tile.pred f.pred.toNat).d.toNat
  s.issueSlot (.brp f) [] (if f.neg then p != 2 ^ 256 - 1 else p != 0) [] none (s.transfer (s.tile.immTarget f))

/-- The conditions of `BRS`. -/
def brsHolds (cc a : Nat) : Bool :=
  match cc with
  | 0 => a != 0
  | 1 => a == 0
  | 2 => decide (s64 a < 0)
  | 3 => decide (0 ≤ s64 a)
  | 4 => decide (0 < s64 a)
  | _ => decide (s64 a ≤ 0)

/-- R166. -/
def execBrs (f : YF) (s : State) : Host.Outcome State Fault Refusal :=
  let x := s.tile
  s.issueSlot (.brs f) [] (x.yCond f) (x.consumeS 7 0 (YF.a f)) none
    (if brsHolds (YF.b f) (x.sv (YF.a f)) then s.transfer (x.codeAt (Sys2Proof.sext 8 (YF.x f))) else s)

/-! ## Jumps and calls (R167) -/

/-- R167. -/
def execJr (f : YF) (s : State) : Host.Outcome State Fault Refusal :=
  let x := s.tile
  s.issueSlot (.jr f) [] (x.yCond f) (x.consumeS 7 3 (YF.a f)) none (s.transfer (BitVec.ofNat 64 (x.sv (YF.a f))))

/-- R167. -/
def execCall (f : YF) (s : State) : Host.Outcome State Fault Refusal :=
  s.issueSlot (.call f) [] (s.tile.yCond f) [] none (s.link.transfer (s.tile.immTarget f))

/-- R167. -/
def execCallr (f : YF) (s : State) : Host.Outcome State Fault Refusal :=
  let x := s.tile
  s.issueSlot (.callr f) [] (x.yCond f) (x.consumeS 7 3 (YF.a f)) none (s.link.transfer (BitVec.ofNat 64 (x.sv (YF.a f))))

/-- R167. -/
def execRet (f : YF) (s : State) : Host.Outcome State Fault Refusal :=
  let x := s.tile
  s.issueSlot (.ret f) [] (x.yCond f) (x.consumeS 7 3 62) none (s.transfer (BitVec.ofNat 64 (x.sv 62)))

/-! ## Loops (R168, R169) -/

/-- Opens a level (R169). -/
def Tile.openLoop (x : Tile) (len count : Nat) : Tile :=
  let l := (x.sreg srLLVL).toNat
  (((x.setSreg (srLBEG + l) (x.pc + 64)).setSreg (srLFIN + l) (x.pc + BitVec.ofNat 64 (64 * len))).setSreg (srLCNT + l)
    (BitVec.ofNat 64 (max count 1))).setSreg srLLVL (BitVec.ofNat 64 (l + 1))

def Tile.loopFull (x : Tile) : List Flt := if 4 ≤ (x.sreg srLLVL).toNat then [x.classS 7 9 0] else []

/-- R168, R169. -/
def execLoop (f : YF) (s : State) : Host.Outcome State Fault Refusal :=
  let x := s.tile
  s.issueSlot (.loop f) [] (x.yCond f) (x.consumeS 7 0 (YF.a f) ++ x.loopFull) none
    (s.onTile fun x => x.openLoop (YF.x f) (x.sv (YF.a f)))

/-- R168, R169. -/
def execLoopi (f : YF) (s : State) : Host.Outcome State Fault Refusal :=
  s.issueSlot (.loopi f) [] (s.tile.yCond f) s.tile.loopFull none (s.onTile fun x => x.openLoop (YF.x f) (bits f.arg.toNat 0 12))

/-! ## Fences (R45 to R48) -/

/-- R45 to R48. -/
def execFence (f : YF) (s : State) : Host.Outcome State Fault Refusal :=
  let k := bits f.arg.toNat 0 2
  let scope := bits f.arg.toNat 2 3
  let gate := if bit k 1 then s.releaseGate 7 scope (bit f.arg.toNat 5) else ([], none)
  let act := if bit k 1 && decide (2 ≤ scope) then s.closeCombine s.cur else s
  s.issueSlot (.fence f) [] (s.tile.yCond f) gate.1 gate.2 (if bit k 0 then act.acquireTile s.cur s.now else act)

/-! ## Traps, returns, halting (R407, R420, R421, R424, R429) -/

/-- R420: class X after the bundle. -/
def execTrap (f : YF) (s : State) : Host.Outcome State Fault Refusal :=
  let x := s.tile
  let q : TrapReq := { cls := clsX, low := BitVec.ofNat 4 (bits f.arg.toNat 12 4), info := BitVec.ofNat 64 (x.sv (YF.a f)),
                       kind := .after, pc := x.pc }
  s.issueSlot (.trap f) [] (x.yCond f) (x.consumeS 7 3 (YF.a f)) none (s.onTile fun x => { x with trapDue := some q })

/-- R421: the handler's issue ends. After a class M trap the task fails (R424). -/
def execEret (f : YF) (s : State) : Host.Outcome State Fault Refusal :=
  let x := s.tile
  let errs := privErr 7 x.sv? ++ errIf (x.sv? && !x.trp) (encErr 7 .operandKind 0 5)
  s.issueSlot (.eret f) errs (x.yCond f) [] none
    (if x.gaveUp then s.failTile s.cur 5 0 0 else s.onTile fun x => { x with run := .returning })

/-- R407. After a class M trap the task fails (R424). -/
def execHalt (f : YF) (s : State) : Host.Outcome State Fault Refusal :=
  let x := s.tile
  s.issueSlot (.halt f) [] (x.yCond f) [] none
    (if x.gaveUp then s.failTile s.cur 5 0 0 else s.startHalt)

/-- R429: a debug stop after the bundle; none in a handler. -/
def execBkpt (f : YF) (s : State) : Host.Outcome State Fault Refusal :=
  let x := s.tile
  let q : TrapReq := { cls := clsD, low := 2, info := BitVec.ofNat 64 (YF.x f), kind := .after, pc := x.pc, host := x.dbgHost }
  s.issueSlot (.bkpt f) [] (x.yCond f) [] none (if x.trp then s else s.onTile fun x => { x with trapDue := some q })

end Sys2Proof.Machine
end

