-- ==== Sys2Proof/Machine/Global.lean ====
section
/-! DEFINITION. Basin memory through L1: loads, stores, prefetch, flush, global atomics, fills and ownership (R201 to R211). -/

namespace Sys2Proof.Machine

open Check

/-! ## L1 lines (R201) -/

/-- Bits `lo` to `lo + n - 1`. -/
def field (lo n : Nat) : Nat := (2 ^ n - 1) <<< lo

/-- The tree pseudo-LRU state of a set after way `w` is used: each node on its path points away from it. -/
def plruTouch (b : BitVec 7) (w : Nat) : BitVec 7 :=
  let n1 := w / 4
  let n2 := w / 2 % 2
  let p := BitVec.ofNat 7 (1 + 2 ^ (1 + n1) + 2 ^ (3 + 2 * n1 + n2))
  let v := BitVec.ofNat 7 ((1 - n1) + (1 - n2) * 2 ^ (1 + n1) + (1 - w % 2) * 2 ^ (3 + 2 * n1 + n2))
  (b &&& ~~~p) ||| v

/-- The way that the tree points to. -/
def plruVictim (b : BitVec 7) : Nat :=
  let n1 := (b.getLsbD 0).toNat
  let n2 := (b.getLsbD (1 + n1)).toNat
  4 * n1 + 2 * n2 + (b.getLsbD (3 + 2 * n1 + n2)).toNat

def Tile.touch (x : Tile) (slot : Nat) : Tile :=
  if slot < l1Ways then { x with plru := x.plru.modify 0 (slot / 8) fun b => plruTouch b (slot % 8) } else x

def L1Line.fresh (line : Nat) : L1Line := { tag := line, v := 0, pend := 0, own := 0, dirty := 0, data := .zero 32 }

/-- The way that a line which is not in L1 takes: a free way of its set, else the victim. -/
def Tile.wayFor (x : Tile) (line : Nat) : Nat :=
  let set_ := line % 64
  match (List.range 8).find? fun w => (x.l1.get none (8 * set_ + w)).isNone with
  | some w => 8 * set_ + w
  | none => 8 * set_ + plruVictim (x.plru.get 0 set_)

/-- The first slot behind the ways that holds no line. -/
def Tile.l1Spare (x : Tile) : Nat :=
  match (List.range (x.l1.length + 1)).find? fun k => (x.l1.get none (l1Ways + k)).isNone with
  | some k => l1Ways + k
  | none => l1Ways

/-- Makes room for a line in its set. A victim with dirty bytes or a word whose grant has not come gives its way up at once and leaves
by the writes of this cycle, or when its grants have come (Table 7-6); any other is relinquished. -/
def State.allocLine (s : State) (t : Tid) (line : Nat) : Nat × State :=
  let x := s.tileAt t
  let slot := x.wayFor line
  match x.l1.get none slot with
  | none => (slot, s.modTile t fun x => x.l1Set slot (some (.fresh line)))
  | some l =>
    (slot, if l.pend = 0 ∧ l.dirty = 0 then (s.relinquishLine t l.tag).modTile t fun x => x.l1Set slot (some (.fresh line))
      else (s.modTile t fun x => (x.l1Set x.l1Spare (some l)).l1Set slot (some (.fresh line))).schedule s.now (ordWrite t 1) (.l1Leave t l.tag))

/-- The slot of a line, which is allocated when it is missing. -/
def State.lineSlot (s : State) (t : Tid) (line : Nat) : Nat × State :=
  match (s.tileAt t).l1Find line with
  | some (k, _) => (k, s)
  | none => s.allocLine t line

/-- An evicted line leaves L1 once no word of it waits for a grant: write-back, relinquish (Table 7-6). -/
def State.l1Leave (s : State) (t : Tid) (line : Nat) : State :=
  match (s.tileAt t).l1Leaving line with
  | none => s
  | some (k, l) =>
    if l.pend ≠ 0 then s else ((s.writeBackLine t k).relinquishLine t line).modTile t fun x => x.l1Set k none

/-- What a write of part of granule `j` of a line merges into (R69): where neither word of it is valid, its dirty bytes over zeros; without
any, zeros with a good rind. -/
def L1Line.base (l : L1Line) (j : Nat) : Gran :=
  let old := l.data.gran j
  if bits l.v.toNat (2 * j) 2 ≠ 0 then old
  else
    let m := bits l.dirty.toNat (8 * j) 8
    let d : Word := BitVec.ofNat 64 (((List.range 8).filter fun i => bit m i).map fun i => bits old.d.toNat (8 * i) 8 * 2 ^ (8 * i)).sum
    if m = 0 then .zero else if d = old.d then old else ⟨d, rindOf old.bad d⟩

/-- Granule writes into a line's data, through the merging lane of L1 (R68, R69); the second result is the granules it logs. -/
def L1Line.put (l : L1Line) (ws : List GWrite) : L1Line × List Nat :=
  (ws.filter fun w => w.mask != 0).foldl (fun (a : L1Line × List Nat) w =>
    let j := w.g % 32
    let old := a.1.base j
    ({ a.1 with data := Reg.ofGrans 32 (a.1.data.grans.set j (mergeGran old w)),
                dirty := a.1.dirty ||| BitVec.ofNat 256 (w.mask.toNat <<< (8 * j)) },
     if mergeLogs old w then a.2 ++ [w.g] else a.2)) (l, []) |> fun r => ({ r.1 with dirty := l.dirty }, r.2)

/-- The bytes of a line that granule writes cover. -/
def lineMask (ws : List GWrite) : Nat := ws.foldl (fun m w => m ||| (w.mask.toNat <<< (8 * (w.g % 32)))) 0

/-- The words of a line that a byte mask touches. -/
def wordsOf (m : Nat) : Nat := (List.range 64).foldl (fun x i => if bits m (4 * i) 4 ≠ 0 then x ||| (1 <<< i) else x) 0

/-- The 32-bit words that a global atomic of a type at `pa` addresses. -/
def amoWords (type pa : Nat) : List Nat := if tyWidth type = 64 then [pa / 4, pa / 4 + 1] else [pa / 4]

/-! ## Ownership (R43, R202) -/

/-- The L2 takes a word from its owner: dirty bytes are written back, the copy is invalidated (Table 7-6). -/
def State.revoke (s : State) (u : Tid) (word : Nat) : State :=
  let s := { s with owner := s.owner.set 0 word 0 }
  match (s.tileAt u).l1Find (word / 64) with
  | none => s
  | some (k, l) =>
    let i := word % 64
    let m := l.dirty.toNat &&& field (4 * i) 4
    let s := s.memWrites (some u) (gwCarry (32 * l.tag) l.data m)
    s.modTile u fun x => x.l1Set k (some { l with
      dirty := l.dirty &&& ~~~(BitVec.ofNat 256 m), v := l.v &&& ~~~(BitVec.ofNat 64 (2 ^ i)), own := l.own &&& ~~~(BitVec.ofNat 64 (2 ^ i)) })

/-- Takes a word from whatever tile owns it. -/
def State.takeWord (s : State) (word : Nat) : State :=
  match s.owner.get 0 word with
  | 0 => s
  | n => s.revoke (tid (n - 1)) word

/-- The L2 takes a word from its owner in this cycle, as a write of that tile (R38). -/
def State.planTake (s : State) (word : Nat) : State :=
  match s.owner.get 0 word with
  | 0 => s
  | n => s.plan s.now (ordWrite (tid (n - 1)) 1) .revocation { EvArg.none with t := tid (n - 1), n := word }

/-- The L2 evicts a line to HBM (R202): it first revokes every owner of the line's words. -/
def State.l2Evict (s : State) (line : Nat) : State := (List.range 64).foldl (fun s i => s.planTake (64 * line + i)) s

/-- A global atomic takes its words from any owner, in the cycle before it performs (R43, R211); dirty bytes of the atomic's own tile in
them are written back with it. -/
def State.l2Take (s : State) (t : Tid) (words : List Nat) : State :=
  (words.foldl State.planTake s).schedule s.now (ordWrite t 1) (.wordsBack t words)

/-- The dirty bytes of some words of a line in a tile's L1 are written back; the words keep their state. -/
def State.wordsBack (s : State) (t : Tid) (words : List Nat) : State :=
  match (s.tileAt t).l1Find (words.headD 0 / 64) with
  | none => s
  | some (k, l) =>
    let m := l.dirty.toNat &&& words.foldl (fun m k => m ||| field (4 * (k % 64)) 4) 0
    (s.memWrites (some t) (gwCarry (32 * l.tag) l.data m)).modTile t fun x =>
      x.l1Set k (some { l with dirty := l.dirty &&& ~~~(BitVec.ofNat 256 m) })

/-- REVOCATION (R202): an eviction from the L2 takes a word from its owner. -/
def execRevocation (s : State) : Host.Outcome State Fault Refusal :=
  .next (if s.owner.get 0 s.arg.n = s.arg.t.val + 1 then s.revoke s.arg.t s.arg.n else s)

/-- OWNERSHIP_GRANT (R43, R202): the earlier owner gives the word up first. When the L2 evicts the line later is open (log
entry 3). -/
def execOwnershipGrant (s : State) : Host.Outcome State Fault Refusal :=
  let t := s.arg.t
  let word := s.arg.n
  let b := BitVec.ofNat 64 (2 ^ (word % 64))
  match (s.tileAt t).l1Find (word / 64) with
  | none => .next s
  | some (k, l) =>
    if l.pend &&& b = 0 then .next s
    else
      let s := s.takeWord word
      let s := { s with owner := s.owner.set 0 word (t.val + 1) }
      let s := s.modTile t fun x => x.l1Set k (some { l with pend := l.pend &&& ~~~b, own := l.own ||| b })
      let s := if l1Ways ≤ k then s.schedule (s.now + 1) (ordWrite t 1) (.l1Leave t l.tag) else s
      let (e, s) := s.drawBit
      let (n, s) := s.drawNat
      .next (if e then s.schedule (s.now + 1 + n) ordRead (.l2Evict (word / 64)) else s)

/-- The L2 is busy with a word: it grants the word to another tile in this cycle, or an atomic on it performs by the next. -/
def State.wordBusy (s : State) (word : Nat) : Bool :=
  s.agenda.any fun e => match e.ev with
    | .event .ownershipGrant a => a.n == word
    | .l2Atomic _ _ _ ty _ pa .. => decide (e.at_ ≤ s.now + 1) && (amoWords ty pa).contains word
    | _ => false

/-- A registration request is at the L2, which takes one for a word at a time: the grant is a write of the earlier owner, whose bytes are
written back first (R38, R43). -/
def State.grantDue (s : State) (t : Tid) (word : Nat) : State :=
  if s.wordBusy word then
    s.schedule (s.now + 1) ordRead (.grantDue t word)
  else
    s.plan s.now (ordWrite (match s.owner.get 0 word with | 0 => t | n => tid (n - 1)) 1) .ownershipGrant { EvArg.none with t := t, n := word }

/-- Requests registration of words of a line (R43). -/
def State.register (s : State) (t : Tid) (line words : Nat) : State :=
  (List.range 64).foldl (fun s i =>
    if bit words i then
      let (n, s) := s.drawNat
      s.schedule (s.now + 1 + n) ordRead (.grantDue t (64 * line + i))
    else s) s

/-! ## Fills (R201, R204) -/

/-- Starts the fill of a sector, unless it is on its way; its arrival is open (log entry 3). -/
def State.startFill (s : State) (t : Tid) (sector : Nat) : State :=
  if (s.tileAt t).fills.contains sector then s
  else
    let (n, s) := s.drawNat
    (s.modTile t fun x => { x with fills := x.fills ++ [sector] }).plan (s.now + 1 + n) ordRead .l1Fill
      { EvArg.none with t := t, n := sector }

/-- The bytes of a sector that are not dirty, as writes from the L2. -/
def State.fillWrites (s : State) (t : Tid) (sector : Nat) (l : L1Line) : List GWrite :=
  (List.range 8).map fun j =>
    let g := s.memGran (some t) (8 * sector + j)
    { g := 8 * sector + j, d := g.d, r := g.r, bad := g.bad,
      mask := BitVec.ofNat 8 (255 - bits l.dirty.toNat (8 * (8 * (sector % 4) + j)) 8) }

/-- A sector is read at the L2 and written into L1 (R201). -/
def State.fillSector (s : State) (t : Tid) (sec : Nat) : State :=
  let p := s.lineSlot t (sec / 4)
  match (p.2.tileAt t).l1.get none p.1 with
  | none => p.2
  | some l =>
    let r := l.put (p.2.fillWrites t sec l)
    let l := { r.1 with v := r.1.v ||| BitVec.ofNat 64 (field (16 * (sec % 4)) 16) }
    (p.2.modTile t fun x => ({ x.l1Set p.1 (some l) with fills := x.fills.erase sec } : Tile).touch p.1).rindEvents srcTile t.val inL1 r.2

/-- L1_FILL (R201): a sector arrives. -/
def execL1Fill (s : State) : Host.Outcome State Fault Refusal :=
  .next (if (s.tileAt s.arg.t).fills.contains s.arg.n then s.fillSector s.arg.t s.arg.n else s)

/-! ## Loads (R204) -/

/-- The sectors of an access's elements in which a word is not valid. -/
def Tile.missing (x : Tile) (l : PadLoad) : List Nat :=
  let ws := l.els.flatMap fun e => [e.addr / 4, (e.addr + max 1 (tyWidth l.st / 8) - 1) / 4]
  (ws.filter fun w => match x.l1Find (w / 64) with
    | none => true
    | some (_, c) => !c.v.getLsbD (w % 64)).foldl (fun acc w => if acc.contains (w / 16) then acc else acc ++ [w / 16]) []

/-- The lines that an access's elements lie in. -/
def PadLoad.lines (l : PadLoad) : List Nat := l.els.map fun e => e.addr / 256

/-- A store that the tile issued with a load or behind it is about to write the load's line in L1: in free mode the load's fills arrive
first, so that it reads no later store of its own tile. -/
def State.overtaken (s : State) (t : Tid) (iss : Nat) (l : PadLoad) : Bool :=
  s.agenda.any fun e => match e.ev with
    | .l1Write u i ws => u == t && decide (iss ≤ i) && decide (e.at_ ≤ s.now) && ws.any fun w => l.lines.contains (w.g / 32)
    | _ => false

/-- An atomic with `.acq` that issued before cycle `iss` has not performed: in free mode the accesses behind it wait (R50, R51). -/
def State.acquiring (s : State) (t : Tid) (iss : Nat) : Bool :=
  !(s.tileAt t).timed && s.agenda.any fun e => match e.ev with
    | .l2Atomic u i _ _ _ _ _ _ acq => acq && u == t && decide (i < iss)
    | .padAtomic u i _ _ _ _ _ _ _ acq => acq && u == t && decide (i < iss)
    | _ => false

/-- The fills of a free-mode load that has an acquire behind it arrive at once: they perform before the loads behind the acquire (R50). -/
def State.loadForced (s : State) (t : Tid) (iss : Nat) (l : PadLoad) : Bool :=
  !(s.tileAt t).timed && decide (iss < (s.tileAt t).acqAt) || s.overtaken t iss l

/-- A load has its value, or its fault. -/
def State.l1Take (s : State) (t : Tid) (id : Nat) (l : PadLoad) (rd : Nat → Gran) : State :=
  let k := match l.els with
    | e :: _ => ((s.tileAt t).l1Find (e.addr / 256)).map (·.1)
    | [] => none
  s.modTile t fun x =>
    let x := match k with | some k => x.touch k | none => x
    match memBad rd 4 l.needs with
    | some b => x.fillFault id 0 clsI b.1 b.2
    | none => x.fill id (l.fill rd)

/-- A granule as L1 holds it. -/
def Tile.l1Gran (x : Tile) (g : Nat) : Gran :=
  match x.l1Find (g / 32) with
  | some (_, c) => c.data.gran (g % 32)
  | none => .zero

/-- A load reads L1 (R204): when every word is valid its value comes, else its sectors are filled. -/
def State.l1Read (s : State) (t : Tid) (iss id : Nat) (l : PadLoad) : State :=
  let x := s.tileAt t
  if !((x.inflight ++ x.snapshot).any fun e => e.id == id && e.waiting) then s
  else if s.acquiring t iss then s.schedule (s.now + 1) ordRead (.l1Read t iss id l)
  else if x.missing l = [] then s.l1Take t id l x.l1Gran
  else if s.loadForced t iss l then
    let s := (x.missing l).foldl (fun s m => s.fillSector t m) s
    s.l1Take t id l (s.tileAt t).l1Gran
  else ((x.missing l).foldl (fun s m => s.startFill t m) s).schedule (s.now + 1) ordRead (.l1Read t iss id l)

/-- Local checks of a global access: element alignment, and one 256-byte line (R204, R206, R212). -/
def lineFault (x : Tile) (slot wb : Nat) (addrs : List Nat) : List Flt :=
  match addrs with
  | [] => []
  | a :: _ =>
    match addrs.find? fun b => b % wb != 0 || b / 256 != a / 256 with
    | none => []
    | some b => [x.localT slot (if b % wb ≠ 0 then 3 else 2) b]

/-- Class T of a slot's global access at issue + 1 (R415). -/
def State.laterT (s : State) (slot cause level va req : Nat) : State :=
  s.onTile fun x => { x with logTraps := x.logTraps ++
    [(slot, { cls := clsT, low := BitVec.ofNat 4 cause, info := BitVec.ofNat 64 (walkInfo va level req), kind := .after, pc := x.pc })] }

/-- The wait and the fault of a translation that is not in the micro-TLB (R208). -/
def State.missGate (s : State) (slot va : Nat) : List Flt × Option (Wait × State) :=
  let x := s.tile
  if x.timed then ([x.classS slot 5 (sInfo slot 0 0 0)], none)
  else ([], some (.walk x.pdom (BitVec.ofNat 64 va), s.startWalk s.cur va slot))

/-- In timed mode the walk is started nevertheless (R208). -/
def State.walkOnMiss (s : State) (slot va : Nat) (f : Flt) : State :=
  if f.2.cls = clsS ∧ f.2.low = 5 then s.startWalk s.cur va slot else s

/-- Issues a global access at `va` (R208, R415): `own` are the faults of its operands and local checks, `gate` what else it waits
for, and `act` its effect at a physical address. -/
def State.globalSlot (s : State) (i : Instr) (cond : Bool) (slot va need : Nat) (own : List Flt) (gate : List Flt × Option (Wait × State))
    (act : State → Nat → State) : Host.Outcome State Fault Refusal :=
  match s.tile.translate va need with
  | .pa a => s.issueFix i [] cond (own ++ gate.1) (fun _ => s) gate.2 (act s a)
  | .fault c l => s.issueFix i [] cond (own ++ gate.1) (fun _ => s) gate.2 (s.laterT slot c l va slot)
  | .miss =>
    let g := s.missGate slot va
    s.issueFix i [] cond (own ++ gate.1 ++ g.1) (s.walkOnMiss slot va) g.2 s

def noGate : List Flt × Option (Wait × State) := ([], none)

/-- Elements at physical addresses: the line of `pa`, at the offsets of their virtual addresses. -/
def toPhys (pa : Nat) (a : Nat) : Nat := pa / 256 * 256 + a % 256

/-- R204. -/
def execGld (f : LF) (s : State) : Host.Outcome State Fault Refusal :=
  let x := s.tile
  let t := f.type.toNat
  let a := x.lAddr f
  s.globalSlot (.gld f) (x.cond f.pred.toNat f.n) 4 a needR (x.lOwn f ++ lineFault x 4 (tyWidth t / 8) [a]) noGate fun s pa =>
    let (id, s) := s.newId
    (s.landHeld 4 48 [.scalar (BitVec.ofNat 6 (f.d.toNat - 328)) (.zero 1)] id).schedule (s.now + 4) ordRead
      (.l1Read s.cur s.now id
        { kind := 1, type := t, st := t, grp := false, els := [{ i := 0, addr := pa, hi := false, recAt := 0 }], act := 1, z := false })

/-- R204. -/
def execGldv (f : LF) (s : State) : Host.Outcome State Fault Refusal :=
  let x := s.tile
  let t := f.type.toNat
  let w := tyWidth t
  let a := x.lAddr f
  let act := x.lActive f
  let els := liveEls act fun i => { i := i, addr := (a + i * w / 8) % 2 ^ 64, hi := w == 4 && i % 2 == 1, recAt := 0 }
  let ws := lVecWrites f act
  match els with
  | [] => s.issueSlot (.gldv f) [] true [] none (if ws.isEmpty then s else s.land 4 48 ws)
  | e :: _ =>
    s.globalSlot (.gldv f) true 4 e.addr needR (x.lOwn f ++ lineFault x 4 (max 1 (w / 8)) (els.map (·.addr))) noGate fun s pa =>
      let (id, s) := s.newId
      (s.landHeld 4 48 ws id).schedule (s.now + 4) ordRead
        (.l1Read s.cur s.now id
          { kind := 0, type := t, st := t, grp := false, els := els.map (fun e => { e with addr := toPhys pa e.addr }), act := actMask act,
            z := f.z })

/-! ## Prefetch (R205, R431) -/

/-- Fills the sectors of a line that are not valid or on their way, and the fetch buffer's line when the page has X. -/
def State.prefetch (s : State) (t : Tid) (va : Nat) : State :=
  let x := s.tileAt t
  let s := match x.translate va needR with
    | .pa a =>
      let s := match x.l1Find (a / 256) with | some (k, _) => s.modTile t fun x => x.touch k | none => s
      (List.range 4).foldl (fun s k =>
        let ok := match (s.tileAt t).l1Find (a / 256) with
          | some (_, l) => bits l.v.toNat (16 * k) 16 == 2 ^ 16 - 1
          | none => false
        if ok then s else s.startFill t (4 * (a / 256) + k)) s
    | _ => s
  match x.translate va needX with
  | .pa _ =>
    let (n, s) := s.drawNat
    s.plan (s.now + 1 + n) ordRead .fetchLineArrival { EvArg.none with t := t, n := va / 256 }
  | _ => s

/-- A prefetch whose walk has not ended waits for it. -/
def State.gprefWait (s : State) (t : Tid) (va : Nat) : State :=
  match (s.tileAt t).translate va needR with
  | .miss =>
    if s.walks.any fun w => w.tile == t && w.pdom == (s.tileAt t).pdom && w.va.toNat / 2 ^ 16 == va / 2 ^ 16 then
      s.schedule (s.now + 1) ordRead (.gprefWait t va)
    else s
  | _ => s.prefetch t va

/-- R205. -/
def execGpref (f : LF) (s : State) : Host.Outcome State Fault Refusal :=
  let x := s.tile
  let a := x.lAddr f
  s.issueSlot (.gpref f) [] (x.cond f.pred.toNat f.n) (x.lOwn f) none
    (match x.translate a needR with
     | .miss => (s.startWalk s.cur a 16).schedule (s.now + 1) ordRead (.gprefWait s.cur a)
     | _ => s.prefetch s.cur a)

/-! ## Stores (R206) -/

/-- A free-mode store reaches L1: bytes dirty, registration of the words that have none (Table 7-6). -/
def State.l1Write (s : State) (t : Tid) (ws : List GWrite) : State :=
  match ws with
  | [] => s
  | w :: _ =>
    let p := s.lineSlot t (w.g / 32)
    match (p.2.tileAt t).l1.get none p.1 with
    | none => p.2
    | some l =>
      let r := l.put ws
      let m := lineMask ws
      let new := wordsOf m &&& (((l.pend ||| l.own).toNat) ^^^ (2 ^ 64 - 1))
      let l := { r.1 with dirty := r.1.dirty ||| BitVec.ofNat 256 m, pend := r.1.pend ||| BitVec.ofNat 64 new }
      ((p.2.modTile t fun x => (x.l1Set p.1 (some l)).touch p.1).rindEvents srcTile t.val inL1 r.2).register t (w.g / 32) new

/-- Updates the tile's copy of a line that it holds; the word states do not change (R206). -/
def State.l1Update (s : State) (t : Tid) (ws : List GWrite) : State :=
  match ws with
  | [] => s
  | w :: _ =>
    match (s.tileAt t).l1Find (w.g / 32) with
    | none => s
    | some (k, l) =>
      let r := l.put ws
      (s.modTile t fun x => (x.l1Set k (some r.1)).touch k).rindEvents srcTile t.val inL1 r.2

/-- A timed-mode store performs at the L2 (R41, R206). -/
def State.l2Write (s : State) (t : Tid) (ws : List GWrite) : State := (s.memWrites (some t) ws).l1Update t ws

/-- Schedules a global store by mode (R206). -/
def State.globalStore (s : State) (ws : List GWrite) : State :=
  if s.tile.timed then s.schedule (s.now + 24) (ordWrite s.cur 1) (.l2Write s.cur s.now ws)
  else s.schedule (s.now + 4) (ordWrite s.cur 1) (.l1Write s.cur s.now ws)

/-- R206. -/
def execGst (f : TF) (s : State) : Host.Outcome State Fault Refusal :=
  let x := s.tile
  let n := tyWidth f.type.toNat / 8
  let a := x.tAddr f
  s.globalSlot (.gst f) (x.tCond f) 5 a needW (x.tOwn f ++ lineFault x 5 n [a]) noGate fun s pa =>
    s.globalStore (scalarStore pa n (s.tile.scalar (f.data.toNat - 328)))

/-- R206. -/
def execGstv (f : TF) (s : State) : Host.Outcome State Fault Refusal :=
  let x := s.tile
  let wb := max 1 (tyWidth f.type.toNat / 8)
  let es := runEls (x.tAddr f) wb (x.tActive f (8 * wb))
  match es with
  | [] => s.issueSlot (.gstv f) [] true [] none s
  | e :: _ =>
    s.globalSlot (.gstv f) true 5 e.1 needW (x.tOwn f ++ lineFault x 5 wb (es.map (·.1))) noGate fun s pa =>
      s.globalStore (scatter (s.tile.vreg f.data.toNat) (es.map fun e => (toPhys pa e.1, e.2.1, e.2.2)))

/-! ## Flush (R207) -/

/-- The ways that a flush covers. -/
def Tile.flushSlots (x : Tile) (line : Option Nat) : List Nat :=
  match line with
  | none => x.l1Slots
  | some l => match x.l1Find l with | some (k, _) => [k] | none => []

def Tile.flushDirty (x : Tile) (line : Option Nat) : Bool :=
  (x.flushSlots line).any fun k => match x.l1.get none k with | some l => l.dirty != 0 | none => false

def State.flushBack (s : State) (t : Tid) (line : Option Nat) : State :=
  ((s.tileAt t).flushSlots line).foldl (fun s k => s.writeBackLine t k) s

/-- The tile waits for write-backs: a release or a flush holds it. -/
def Tile.writesBack (x : Tile) : Bool :=
  (match x.frozen with | some (.release ..) => true | some (.l1wb _) => true | _ => false) ||
  (match x.run with | .sync _ _ _ none => true | .halted => true | .draining => true | .cleaning => true | _ => false)

/-- The tile's dirty bytes are written back as its write of this cycle (R38, R46, R207); stores that have not reached L1 yet follow. -/
def State.l1Back (s : State) (t : Tid) (line : Option Nat) : State :=
  let s := s.flushBack t line
  if (s.tileAt t).writesBack && s.l1Stores t line then s.schedule (s.now + 1) (ordWrite t 1) (.l1Back t line) else s

/-- Invalidation: V := 0 and ownership is relinquished. -/
def State.flushInv (s : State) (t : Tid) (line : Option Nat) : State :=
  ((s.tileAt t).flushSlots line).foldl (fun s k =>
    match (s.tileAt t).l1.get none k with
    | none => s
    | some l => (s.relinquishLine t l.tag).modTile t fun x => x.l1Set k (some { l with v := 0, own := 0 })) s

/-- What a flush does at issue. -/
def State.flushSlot (s : State) (f : TF) (own : List Flt) (line : Option Nat) : Host.Outcome State Fault Refusal :=
  let x := s.tile
  let dirty := x.flushDirty line || s.l1Stores s.cur line
  let inv := f.data.getLsbD 0
  s.issueSlot (.gflush f) [] (x.tCond f) (own ++ if x.timed && dirty then [x.classS 5 5 (sInfo 5 0 0 0)] else [])
    (if !x.timed && dirty then some (.l1wb line, s.schedule (s.now + 1) (ordWrite s.cur 1) (.l1Back s.cur line)) else none) (if inv then s.flushInv s.cur line else s)

/-- R207. -/
def execGflush (f : TF) (s : State) : Host.Outcome State Fault Refusal :=
  let x := s.tile
  let a := x.tAddr f
  if f.data.getLsbD 1 then s.flushSlot f (x.tOwn f) none
  else match x.translate a 0 with
    | .pa pa => s.flushSlot f (x.tOwn f) (some (pa / 256))
    | _ => s.globalSlot (.gflush f) (x.tCond f) 5 a 0 (x.tOwn f) noGate fun s _ => s

/-! ## Global atomics (R211) -/

/-- A global atomic performs at the L2; its word has been taken from any owner in the cycle before (State.l2Take). A bad old granule
poisons the new one and is returned as R73 gives. A narrow one is a partial write (R68). The return's arrival is open (log entry 3). -/
def State.l2Atomic (s : State) (t : Tid) (id type op pa v cmp : Nat) (acq : Bool) : State :=
  let w := tyWidth type
  let g := s.memGran (some t) (pa / 8)
  let old := bits g.d.toNat (8 * (pa % 8)) w
  let new := amoNew op type old v cmp
  let s := match new with
    | some new =>
      let d : Word := BitVec.ofNat 64 (new <<< (8 * (pa % 8)))
      let ws : List GWrite := [{ g := pa / 8, d := d, r := rindOf g.bad d, bad := g.bad, mask := BitVec.ofNat 8 ((2 ^ (w / 8) - 1) <<< (pa % 8)) }]
      (s.memWrites (some t) ws).l1Update t ws
    | none => s
  let s := if g.bad && (w == 64 || new.isNone) then s.event srcMem 0 evRind pa else s
  let s := s.acquireLate t acq
  let r : Gran := if w = 64 then g else let d : Word := BitVec.ofNat 64 (amoOld type old); ⟨d, rindOf g.bad d⟩
  let (n, s) := s.drawNat
  s.plan (s.now + 1 + n) ordRead .globalAtomicReturn { EvArg.none with t := t, n := id, w := r.d, m := r.r.toNat }

/-- GLOBAL_ATOMIC_RETURN (R211): the value `arg.w` with rind `arg.m` fills the waiting result. -/
def execGlobalAtomicReturn (s : State) : Host.Outcome State Fault Refusal :=
  .next (s.modTile s.arg.t fun x => x.fill s.arg.n (fillScalar ⟨s.arg.w, BitVec.ofNat 8 s.arg.m⟩))

/-- A global atomic. -/
def State.globalAmo (s : State) (i : Instr) (f : TF) (a : Amo) (gate : List Flt × Option (Wait × State)) :
    Host.Outcome State Fault Refusal :=
  let x := s.tile
  s.globalSlot i (x.tCond f) 5 a.addr needRW (x.amoOwn a f ++ lineFault x 5 (tyWidth a.type / 8) [a.addr]) gate fun s pa =>
    let (id, s) := (s.markEffect s.cur).newId
    (((if a.acq then s.acquireTile s.cur (s.now + 1) else s).landHeld 5 64 [.scalar (BitVec.ofNat 6 a.ret) (.zero 1)] id).schedule (s.now + 31)
      ordRead (.l2Take s.cur (amoWords a.type pa))).schedule (s.now + 32)
      (ordWrite s.cur 1) (.l2Atomic s.cur s.now id a.type a.op pa (x.sv a.val) (x.sv a.ret) a.acq)

/-- An atomic in scratchpad or in basin memory, with its ordering (R51, R209). -/
def State.amoSlot (s : State) (i : Instr) (f : TF) (op : Nat) : Host.Outcome State Fault Refusal :=
  let a := s.tile.amo op f
  let gate := if a.rel then s.releaseGate 5 a.scope false else noGate
  if a.global then s.globalAmo i f a gate else s.padAmo i f a gate

/-- R210. -/
def execAadd (f : TF) (s : State) : Host.Outcome State Fault Refusal := s.amoSlot (.aadd f) f 0x08
/-- R210. -/
def execAaddf (f : TF) (s : State) : Host.Outcome State Fault Refusal := s.amoSlot (.aaddf f) f 0x09
/-- R210. -/
def execAmin (f : TF) (s : State) : Host.Outcome State Fault Refusal := s.amoSlot (.amin f) f 0x0A
/-- R210. -/
def execAmax (f : TF) (s : State) : Host.Outcome State Fault Refusal := s.amoSlot (.amax f) f 0x0B
/-- R210. -/
def execAand (f : TF) (s : State) : Host.Outcome State Fault Refusal := s.amoSlot (.aand f) f 0x0C
/-- R210. -/
def execAor (f : TF) (s : State) : Host.Outcome State Fault Refusal := s.amoSlot (.aor f) f 0x0D
/-- R210. -/
def execAxor (f : TF) (s : State) : Host.Outcome State Fault Refusal := s.amoSlot (.axor f) f 0x0E
/-- R210. -/
def execAswp (f : TF) (s : State) : Host.Outcome State Fault Refusal := s.amoSlot (.aswp f) f 0x0F
/-- R210. -/
def execAcas (f : TF) (s : State) : Host.Outcome State Fault Refusal := s.amoSlot (.acas f) f 0x10

end Sys2Proof.Machine
end

