-- ==== Sys2Proof/Machine/Nest.lean ====
section
/-! DEFINITION. What the copies of a nest are: addresses, rows, pace and latency (R276 to R280), tensor layout records and windows
(R297 to R300), and the granules that a run writes (R284 to R286). -/

namespace Sys2Proof.Machine

open Check

/-! ## Tensor layout records (Table 10-6b) -/

def trVersion (r : Nat) : Nat := bits r 0 8
def trEfmt (r : Nat) : Nat := bits r 8 8
def trRank (r : Nat) : Nat := bits r 16 3
def trId (r : Nat) : Nat := bits r 24 16
def trBase (r : Nat) : Nat := bits r 40 64
def trDim (r l : Nat) : Nat := bits r (128 + 20 * l) 20
def trStride (r l : Nat) : Int := sext 40 (bits r (256 + 40 * l) 40)
def trExt (r l : Nat) : Nat := bits r (512 + 12 * l) 12
def trFill (r : Nat) : Nat := bits r 584 32
def trFmode (r : Nat) : Nat := bits r 616 2
def trBs (r : Nat) : Nat := bits r 618 6
def trNb (r : Nat) : Nat := bits r 624 7
def trIlv (r : Nat) : Nat := bits r 631 3
def trPitch (r : Nat) : Nat := bits r 634 12
def trPol (r : Nat) : Nat := bits r 646 2

/-- Element width in bits. -/
def trWidth (r : Nat) : Nat := tyWidth (trEfmt r % 32)

/-- The levels below the rank. -/
def trLevels (r : Nat) : List Nat := List.range (trRank r)

/-- An extent, 1 at and above the rank. -/
def trSpan (r l : Nat) : Nat := max 1 (trExt r l)

/-- Lines of a window (R300). -/
def trLines (r : Nat) : Nat := ((List.range 5).map fun l => trSpan r (l + 1)).foldl (· * ·) 1

/-- Window coordinate `l` of line `k`; coordinate 0 is the element's place in the line. -/
def trCoord (r k l : Nat) : Nat :=
  if l = 0 then 0 else k / (((List.range (l - 1)).map fun i => trSpan r (i + 1)).foldl (· * ·) 1) % trSpan r l

/-- Image rows of a line in code 4 (R298). -/
def trLineRows (r : Nat) : Nat := ceilDiv (trExt r 0 * trWidth r) 2048

/-- Where a line starts in the image, in nibbles. -/
def trStart (r k : Nat) : Nat := if trIlv r = 4 then k * trLineRows r * 512 else k * trExt r 0 * (trWidth r / 4)

/-- A line's length in nibbles. -/
def trLen (r : Nat) : Nat := trExt r 0 * (trWidth r / 4)

/-- Rows of the image of a window. -/
def trImageRows (r : Nat) : Nat :=
  if trIlv r = 4 then trLines r * trLineRows r else ceilDiv (trLines r * trLen r) 512

/-- Bank and row of image row `j` (R298), computed without a limit. -/
def trPlace (r rb j : Nat) : Nat × Nat :=
  let nb := trNb r
  let p : Nat × Nat := match trIlv r with
    | 0 => (0, j)
    | 1 => (j % nb, j / nb)
    | 2 => (j / 2 % nb, 2 * (j / (2 * nb)) + j % 2)
    | 3 => (j / 4 % nb, 4 * (j / (4 * nb)) + j % 4)
    | _ => (j / trLineRows r % nb, trLineRows r * (j / trLineRows r / nb) + j % trLineRows r)
  (trBs r + p.1, rb + p.2 * trPitch r)

def trImageRow (r rb j : Nat) : Nat := let p := trPlace r rb j; p.1 * 128 + p.2

/-- Tensor coordinates of an element of a line (R300). -/
def TensorCfg.elem (c : TensorCfg) (k i : Nat) : List Int :=
  let r := c.record.toNat
  (trLevels r).map fun l => c.org.getD l 0 + ((if l = 0 then i else trCoord r k l : Nat) : Int)

def TensorCfg.inRange (c : TensorCfg) (xs : List Int) : Bool :=
  (xs.mapIdx fun l x => decide (0 ≤ x) && decide (x < (trDim c.record.toNat l : Int))).all fun b => b

/-- Virtual address of a tensor element, in nibbles. -/
def TensorCfg.nibAddr (c : TensorCfg) (xs : List Int) : Nat :=
  let r := c.record.toNat
  let o := (xs.mapIdx fun l x => x * trStride r l).sum
  wrapI 65 (2 * (trBase r : Int) + o * (trWidth r / 4 : Nat))

/-- The element of basin memory that a line's element stands for: none where it is filled, or not written. -/
def TensorCfg.memNib (c : TensorCfg) (k i : Nat) : Option Nat :=
  let xs := c.elem k i
  if c.inRange xs then some (c.nibAddr xs)
  else if c.op = 0 ∧ trFmode c.record.toNat = 1 then
    some (c.nibAddr (xs.mapIdx fun l x => min (max x 0) ((trDim c.record.toNat l : Int) - 1)))
  else none

/-! ## Copies of a nest (R276 to R280) -/

/-- Copies of the nest. -/
def CopyCfg.copies (c : CopyCfg) : Nat :=
  match c.tensor with
  | some t => trLines t.record.toNat
  | none => (c.lv.map fun l => l.n.toNat).foldl (· * ·) 1

/-- Index `i_l` of copy `k`. -/
def CopyCfg.index (c : CopyCfg) (k l : Nat) : Nat :=
  k / (((c.lv.take l).map fun v => v.n.toNat).foldl (· * ·) 1) % ((c.lv.map fun v => v.n.toNat).getD l 1)

def CopyCfg.addr (c : CopyCfg) (base : Word) (stride : CLevel → Word) (k : Nat) : Nat :=
  (c.lv.mapIdx fun l v => c.index k l * (stride v).toNat).foldl (· + ·) base.toNat % 2 ^ 64

/-- Image address of a line's first byte. -/
def TensorCfg.imageAt (t : TensorCfg) (k : Nat) : Nat :=
  let r := t.record.toNat
  trImageRow r t.rb.toNat (trStart r k / 512) * 256 + trStart r k % 512 / 2

/-- `SA_c` (R277); for a line, the address of its first element or of its image. -/
def CopyCfg.sa (c : CopyCfg) (k : Nat) : Nat :=
  match c.tensor with
  | none => c.addr c.src (·.ss) k
  | some t => if c.path = 1 then t.nibAddr (t.elem k 0) / 2 else t.imageAt k

/-- `DA_c`. -/
def CopyCfg.da (c : CopyCfg) (k : Nat) : Nat :=
  match c.tensor with
  | none => c.addr c.dst (·.ds) k
  | some t => if c.path = 1 then t.imageAt k else t.nibAddr (t.elem k 0) / 2

def bfOf (m : SMap Word) (bank : Nat) : Nat := (m.get 0 bank).toNat

/-- Element width in bits of the source, and of the destination. -/
def CopyCfg.width (c : CopyCfg) (bf : SMap Word) (a : Nat) : Nat :=
  match c.tensor with
  | some t => trWidth t.record.toNat
  | none => if c.cvt then tyWidth (bfType (bfOf bf (bankOf (a % padSize)))) else tyWidth c.type.toNat

def CopyCfg.count (c : CopyCfg) : Nat :=
  match c.tensor with
  | some t => trExt t.record.toNat 0
  | none => c.m.toNat

/-- Twice `B`: whole when `B` is. -/
def CopyCfg.nibs (c : CopyCfg) (bf : SMap Word) (k : Nat) : Nat :=
  c.count * (max (c.width bf (c.sa k)) (c.width bf (c.da k)) / 4)

def CopyCfg.bytes (c : CopyCfg) (bf : SMap Word) (k : Nat) : Nat := ceilDiv (c.nibs bf k) 2

def CopyCfg.srcBytes (c : CopyCfg) (bf : SMap Word) (k : Nat) : Nat := ceilDiv (c.count * (c.width bf (c.sa k) / 4)) 2
def CopyCfg.dstBytes (c : CopyCfg) (bf : SMap Word) (k : Nat) : Nat := ceilDiv (c.count * (c.width bf (c.da k) / 4)) 2

/-- The tile that a scratchpad-side address names (R278). -/
def padTile (t : Tid) (a : Nat) : Option Tid :=
  let f := bits a 21 4
  if 2 ^ 25 ≤ a then none
  else if f = 0 then some t
  else if 8 ≤ f then some (tid (8 * spanOf t + (f - 8))) else none

/-- Rows of `n` bytes from byte `a`. -/
def runRows (a n : Nat) : List Nat := if n = 0 then [] else (List.range ((a + n - 1) / 256 - a / 256 + 1)).map (· + a / 256)

/-- The scratchpad rows of a line, in address order. -/
def TensorCfg.rows (t : TensorCfg) (k : Nat) : List Nat :=
  let r := t.record.toNat
  if trLen r = 0 then []
  else ((List.range ((trStart r k + trLen r - 1) / 512 - trStart r k / 512 + 1)).map fun j =>
    trImageRow r t.rb.toNat (j + trStart r k / 512)).foldl (fun l x => insRow x l) []

def CopyCfg.srcRows (c : CopyCfg) (bf : SMap Word) (k : Nat) : List Nat :=
  if c.path = 1 then []
  else match c.tensor with
    | some t => t.rows k
    | none => runRows (c.sa k % padSize) (c.srcBytes bf k)

def CopyCfg.dstRows (c : CopyCfg) (bf : SMap Word) (k : Nat) : List Nat :=
  if 2 ≤ c.path.toNat then []
  else match c.tensor with
    | some t => t.rows k
    | none => runRows (c.da k % padSize) (c.dstBytes bf k)

/-- `n_c` of R280. -/
def CopyCfg.nRows (c : CopyCfg) (bf : SMap Word) (k : Nat) : Nat := max (c.srcRows bf k).length (c.dstRows bf k).length

/-- Cycles from the emission of copy `k` to the next (R280, Table 10-2). -/
def CopyCfg.pace (c : CopyCfg) (bf : SMap Word) (k : Nat) : Nat :=
  max (max (ceilDiv (c.bytes bf k) (if c.path = 0 then 256 else 128)) (c.nRows bf k)) (c.nRows bf (k + 1))

/-- `L(B)` of Table 10-2. -/
def copyLat (path : BitVec 2) (b : Nat) : Nat :=
  match path.toNat with
  | 0 => 10 + ceilDiv b 256
  | 1 => 420 + ceilDiv b 128
  | _ => 40 + ceilDiv b 128

/-- Virtual pages of 64 KiB that a copy's basin-side run touches (R283), each by its first byte there. -/
def CopyCfg.pages (c : CopyCfg) (bf : SMap Word) (k : Nat) : List Nat :=
  let keep := fun (l : List Nat) a => if l.any fun b => b / 2 ^ 16 == a / 2 ^ 16 then l else l ++ [a]
  match c.path, c.tensor with
  | 0, _ => []
  | p, none =>
    let a := if p = 1 then c.sa k else c.da k
    let n := c.bytes bf k
    if n = 0 then [] else (List.range ((a % 2 ^ 16 + n - 1) / 2 ^ 16 + 1)).foldl (fun l j =>
      keep l (if j = 0 then a else (a / 2 ^ 16 + j) * 2 ^ 16 % 2 ^ 64)) []
  | _, some t => (List.range (trExt t.record.toNat 0)).foldl (fun l i => match t.memNib k i with
    | some a => keep (keep l (a / 2)) ((a + trWidth t.record.toNat / 4 - 1) / 2)
    | none => l) []

/-! ## Checks of a copy at its emission (Table 10-6) -/

/-- The local causes of class T that a copy meets, lowest first, with TRAPINFO (R306). -/
def CopyCfg.faults (c : CopyCfg) (bf : SMap Word) (t : Tid) (k : Nat) : List (Nat × Nat) :=
  let sa := c.sa k
  let da := c.da k
  let side := fun (p : Nat → Nat → Bool) (low : Nat) =>
    if p sa 0 then [(low, sa)] else if p da 1 then [(low, da)] else []
  let pad := fun s => if s = 0 then c.path ≠ 1 else c.path.toNat < 2
  let len := fun s => if s = 0 then c.srcBytes bf k else c.dstBytes bf k
  let plain := c.tensor.isNone
  (if plain then side (fun a s => pad s && ((padTile t a).isNone || decide (padSize < a % padSize + len s))) 1 else []) ++
  (if c.cvt then side (fun a s => decide (0 < len s) && bankOf (a % padSize) != bankOf (a % padSize + len s - 1)) 2 else []) ++
  (if plain then side (fun a s => let w := c.width bf (if s = 0 then sa else da) / 8; w != 0 && a % w != 0) 3 else []) ++
  (if c.nibs bf k % 2 ≠ 0 ∨ 2 * 16384 < c.nibs bf k ∨ (c.cvt ∧ bfGroup (bfOf bf (bankOf (da % padSize))) ≠ 0) then [(6, sa)] else [])

/-! ## What a run writes -/

/-- A nibble of what has been read. -/
def readNib (got : SMap Gran) (a : Nat) : Nat := bits (got.get .zero (a / 16)).d.toNat (4 * (a % 16)) 4

/-- One nibble to write: its value, and the source granules it draws from with "same position". -/
abbrev NibSrc := Nat × List (Nat × Bool)

def copyNib (got : SMap Gran) (src dst : Nat) : NibSrc := (readNib got src, [(src / 16, src % 16 == dst % 16)])

/-- One destination granule (R286): carried when each nibble comes from one source granule in its own place, else gathered, or written in part
over `old`; the second result tells that a lane met a bad granule. A write of a nibble of every byte passes the merging lane here. -/
def buildGran (got : SMap Gran) (old : Gran) (g : Nat) (f : Nat → Option NibSrc) : Option GWrite × Bool :=
  let ns := (List.range 16).map fun p => f (16 * g + p)
  if ns.all Option.isNone then (none, false)
  else
    let d : Word := BitVec.ofNat 64 (packNat 4 (ns.mapIdx fun p n => match n with
      | some v => v.1
      | none => bits old.d.toNat (4 * p) 4))
    let srcs := (ns.flatMap fun n => match n with | some v => v.2 | none => []).foldl
      (fun l x => if l.contains x then l else l ++ [x]) []
    let bad := srcs.any fun x => (got.get .zero x.1).bad
    if ns.all Option.isSome then
      match srcs, ns.all fun n => match n with | some v => v.2 == srcs | none => false with
      | [(k, true)], true => (some { g := g, d := d, r := (got.get .zero k).r, bad := bad, mask := 0xFF }, false)
      | _, _ => (some { g := g, d := d, r := rindOf bad d, bad := bad, mask := 0xFF }, bad)
    else
      let m := (List.range 8).foldl (fun m k =>
        if (ns.getD (2 * k) none).isSome || (ns.getD (2 * k + 1) none).isSome then m + 2 ^ k else m) 0
      if m = 255 then (some { g := g, d := d, r := rindOf (old.bad || bad) d, bad := old.bad || bad, mask := 0xFF }, old.bad || bad)
      else (some { g := g, d := d, r := rindOf bad d, bad := bad, mask := BitVec.ofNat 8 m }, false)

/-- The group record of the code at nibble `n` of scratchpad (R184). -/
def cvtRec (bf : SMap Word) (n : Nat) : Nat := recAddr (bfOf bf (bankOf (n / 2))) (n / 512 % 128) (n % 512)

/-- A converted element (R284). -/
def CopyRun.cvtEl (r : CopyRun) (i : Nat) : NibSrc :=
  let sb := bfOf r.bfmt (bankOf (r.sa % padSize))
  let db := bfOf r.bfmt (bankOf (r.da % padSize))
  let w := tyWidth (bfType sb) / 4
  let n := 2 * (r.sa % padSize) + i * w
  let raw := bits (r.got.get .zero (n / 16)).d.toNat (4 * (n % 16)) (4 * w)
  if bfGroup sb ≠ 0 then
    let a := cvtRec r.bfmt n
    let rec_ := bits (r.got.get .zero (a / 8)).d.toNat (8 * (a % 8)) 32
    let v := if tyF (bfType db) then (deq 0 (bfType db) (bfRnd db) (bfType sb) rec_ raw).1
      else (cvt 0 10 (bfType db) (bfRnd db) (bfSat db) (deq 0 10 0 (bfType sb) rec_ raw).1).1
    (v, [(n / 16, false), (a / 8, false)])
  else ((cvt 0 (bfType sb) (bfType db) (bfRnd db) (bfSat db) raw).1, [(n / 16, false)])

/-- Nibble `n` of the scratchpad destination of a run: `n` counts from the start of the tile's scratchpad. -/
def CopyRun.padNib (r : CopyRun) (n : Nat) : Option NibSrc :=
  match r.cfg.tensor with
  | none =>
    let d := 2 * (r.da % padSize)
    if n < d then none
    else if r.cfg.cvt then
      let w := tyWidth (bfType (bfOf r.bfmt (bankOf (r.da % padSize)))) / 4
      if r.cfg.m.toNat * w ≤ n - d then none
      else
        let e := r.cvtEl ((n - d) / w)
        some (bits e.1 (4 * ((n - d) % w)) 4, e.2)
    else if 2 * r.bytes ≤ n - d then none
    else some (copyNib r.got (2 * (if r.cfg.path = 1 then r.sa else r.sa % padSize) + (n - d)) n)
  | some t =>
    let tr := t.record.toNat
    let w := trWidth tr / 4
    let first := trStart tr r.cn / 512
    match (List.range ((trStart tr r.cn + trLen tr - 1) / 512 - first + 1)).find? fun j =>
        trImageRow tr t.rb.toNat (first + j) == n / 512 with
    | none => none
    | some j =>
      let o := 512 * (first + j) + n % 512
      if o < trStart tr r.cn ∨ trStart tr r.cn + trLen tr ≤ o then none
      else
        let k := o - trStart tr r.cn
        match t.memNib r.cn (k / w) with
        | some a => some (copyNib r.got (a + k % w) n)
        | none => some (bits (trFill tr) (4 * (k % w)) 4, [])

/-- Granule writes of one scratchpad row, and how many gathering lanes met a bad granule. -/
def CopyRun.rowWrites (r : CopyRun) (pad : Store) (row : Nat) : List GWrite × List Nat :=
  let l := (List.range 32).map fun j => (32 * row + j, buildGran r.got (pad.gran (32 * row + j)) (32 * row + j) r.padNib)
  (l.filterMap (·.2.1), (l.filter (·.2.2)).map (·.1))

/-- Where the elements of a stored line stand in memory and in the image, in nibbles. -/
def TensorCfg.stores (t : TensorCfg) (k : Nat) : List (Nat × Nat) :=
  let r := t.record.toNat
  (List.range (trExt r 0)).filterMap fun i =>
    let o := trStart r k + i * (trWidth r / 4)
    (t.memNib k i).map fun a => (a, trImageRow r t.rb.toNat (o / 512) * 512 + o % 512)

/-- Nibble `n` of basin memory (by virtual address) that a run on path 2 writes. -/
def CopyRun.memNib (r : CopyRun) (els : List (Nat × Nat)) (w n : Nat) : Option NibSrc :=
  match r.cfg.tensor with
  | none =>
    if n < 2 * r.da ∨ 2 * r.bytes ≤ n - 2 * r.da then none
    else some (copyNib r.got (2 * (r.sa % padSize) + (n - 2 * r.da)) n)
  | some _ => (els.reverse.find? fun e => e.1 ≤ n && n < e.1 + w).map fun e => copyNib r.got (e.2 + (n - e.1)) n

/-- Granules of virtual memory that a run reads or writes. -/
def CopyRun.memGrans (r : CopyRun) : List Nat :=
  let a := if r.cfg.path = 1 then r.sa else r.da
  match r.cfg.tensor with
  | none => if r.bytes = 0 then [] else (List.range ((a + r.bytes - 1) / 8 - a / 8 + 1)).map (· + a / 8)
  | some t =>
    let w := trWidth t.record.toNat / 4
    (((List.range (trExt t.record.toNat 0)).filterMap fun i => t.memNib r.cn i).flatMap fun n => [n / 16, (n + w - 1) / 16]).foldl
      (fun l g => insRow g l) []

/-- The physical granule of a virtual one. -/
def CopyRun.phys (r : CopyRun) (g : Nat) : Nat := (r.pages.get 0 (g / 8192) + 8 * (g % 8192)) / 8

/-- Elements of a reducing run (R285): virtual byte address and the source's bits, with its granule. -/
def CopyRun.redEls (r : CopyRun) : List (Nat × Nat) :=
  match r.cfg.tensor with
  | none =>
    let w := tyWidth r.cfg.type.toNat / 8
    (List.range r.cfg.m.toNat).map fun i => (r.da + i * w, r.sa % padSize + i * w)
  | some t => (t.stores r.cn).map fun e => (e.1 / 2, e.2 / 2)

/-- The type of a reducing run's elements, and its operator. -/
def CopyRun.redType (r : CopyRun) : Nat := match r.cfg.tensor with | some t => trEfmt t.record.toNat % 32 | none => r.cfg.type.toNat
def CopyRun.redOp (r : CopyRun) : Nat := match r.cfg.tensor with | some t => t.op.toNat - 2 | none => r.cfg.op.toNat

/-- The L2 reduction operators: add, min, max, and, or, xor, replace (R285, Table 11-4). -/
def redValue (op t old v : Nat) : Nat :=
  match op with
  | 0 => if tyF t then uAdd t old v else (old + v) % 2 ^ tyWidth t
  | 1 => if tyF t then uMinMax false t old v else if ival t old ≤ ival t v then old else v
  | 2 => if tyF t then uMinMax true t old v else if ival t old ≤ ival t v then v else old
  | 3 => old &&& v
  | 4 => old ||| v
  | 5 => old ^^^ v
  | _ => v

/-- A reduction's result is poisoned by a bad input (R73); replacing reads no old value. -/
def State.redBad (s : State) (v : Option Tid) (op pa : Nat) (bad : Bool) : Bool := bad || (op != 6 && (s.memGran v (pa / 8)).bad)

/-- One element reduced at the L2 (R59, R285): a bad input poisons the result and logs an event (R73). -/
def State.memReduce (s : State) (v : Option Tid) (op t pa new : Nat) (bad : Bool) : State :=
  let w := tyWidth t
  let g := s.memGran v (pa / 8)
  let r := redValue op t (bits g.d.toNat (8 * (pa % 8)) w) (new % 2 ^ w)
  let p := s.redBad v op pa bad
  let s := (gwBytes pa (w / 8) r p).foldl (fun s x => s.memWrite v x) s
  if p ∧ w = 64 then s.event srcMem 0 evRind pa else s

end Sys2Proof.Machine
end

