-- ==== Sys2Proof/Machine/Copy.lean ====
section
/-! DEFINITION. The copy engines (R276 to R301): emission, source reads, destination writes, stops, and the instructions that
stage, start, stop and read a nest. -/

namespace Sys2Proof.Machine

open Check

def Tile.engine (x : Tile) (e : Bool) : CopyEngine := x.ce.get .init e.toNat

def Tile.setEngine (x : Tile) (e : Bool) (g : CopyEngine) : Tile := { x with ce := x.ce.set .init e.toNat g }

def Tile.modEngine (x : Tile) (e : Bool) (f : CopyEngine → CopyEngine) : Tile := x.setEngine e (f (x.engine e))

def Tile.run? (x : Tile) (id : Nat) : Option CopyRun := x.copies.find? fun r => r.id == id

/-- The engines emit unless the trap unit or a throttle holds them, or the tile is being suspended (R296). -/
def Tile.emits (x : Tile) : Bool :=
  !x.mheld && x.throttled.isNone && !(x.susp.isSome && x.run == .running && x.rpt == 0 && !x.trp && !x.inPart) && (match x.run with
    | .draining => false
    | .writing => false
    | .restoring => false
    | _ => true)

/-! ## Stops (R283, R289, R306, R307) -/

/-- Rows of tiles, as tile * 8192 + row, that no longer count as pending. -/
def State.rowsGone (s : State) (rows late : List Nat) : State :=
  rows.foldl (fun s k => s.modTile (tid (k / 8192)) fun x =>
    let x := x.subPend [k % 8192]
    if late.contains k then { x with late := x.late.modify 0 (k % 8192) (· - 1) } else x) s

/-- Copies `cn` and later of a nest are not emitted: the rows already queued stand (R289). -/
def State.cancelRuns (s : State) (t : Tid) (nest cn : Nat) : State :=
  let x := s.tileAt t
  let hit := fun r : CopyRun => r.nest == nest && decide (cn ≤ r.cn)
  let queued := fun r : CopyRun => r.dstLeft.filter fun k => [false, true].any fun e => (x.engine e).wq.contains (r.id, k)
  let s := (x.copies.filter hit).foldl (fun s r => s.rowsGone (r.dstLeft.filter fun k => !(queued r).contains k) r.lateRows) s
  let cut := fun r : CopyRun =>
    if hit r then
      (if (queued r).isEmpty then none else some { r with dstLeft := queued r, tags := false, lastCopy := false })
    else some r
  s.modTile t fun x => { x with copies := x.copies.filterMap cut }

/-- The nest of a copy stops before it; the fault is taken as R270 gives. -/
def State.copyStop (s : State) (t : Tid) (e : Bool) (nest cn issue : Nat) (pc : Word) (cls low : BitVec 4) (info : Nat) : State :=
  (s.cancelRuns t nest cn).modTile t fun x =>
    let x := x.modEngine e fun g =>
      if g.nest = nest then ({ g with st := .stopped, cn := cn, lasts := g.lasts.filter (fun l => decide (l.1 < cn)), cause := if cls = clsT then 2 else 3 } : CopyEngine) else g
    if x.task.isNone then x
    else { x with dueF := x.dueF ++ [(issue, 6, { cls := cls, low := low, info := BitVec.ofNat 64 info, kind := .after, pc := pc })] }

/-- TRAPINFO of R307. -/
def copyInfo (e : Bool) (sub cn : Nat) : Nat := e.toNat * 2 ^ 8 + sub * 2 ^ 12 + cn % 2 ^ 32 * 2 ^ 32

def State.runStop (s : State) (t : Tid) (r : CopyRun) (cls low : BitVec 4) (info : Nat) : State :=
  s.copyStop t r.e r.nest r.cn r.issue r.pc cls low info

def State.runStopS (s : State) (t : Tid) (r : CopyRun) (sub : Nat) : State := s.runStop t r clsS 0xC (copyInfo r.e sub r.cn)

/-! ## Destination rows (R280, R282, R287, R289) -/

/-- Stamps rows with a tag. -/
def State.stamp (s : State) (rows : List Nat) (tag : Byte) : State :=
  rows.foldl (fun s k => s.modTile (tid (k / 8192)) fun x => x.putTag (k % 8192) tag) s

/-- Another copy of the nest has this row still to write. -/
def Tile.rowOut (x : Tile) (r : CopyRun) (k : Nat) : Bool := x.copies.any fun q => q.nest == r.nest && q.id != r.id && q.dstLeft.contains k

/-- The last destination perform of copy `cn` is in this cycle, later than its formula (R295). -/
def CopyEngine.movedLast (g : CopyEngine) (nest cn : Nat) (ftime : Word) : CopyEngine :=
  if g.nest = nest then { g with lasts := g.lasts.map fun l => if l.1 = cn then (cn, ftime) else l } else g

/-- A copy has made all its writes. At the latest write of its nest's last copy the end tags are stamped; a row with a write
outstanding gets its own with that write (R282, R287). -/
def State.runDone (s : State) (t : Tid) (r : CopyRun) : State :=
  let x := s.tileAt t
  let s := s.modTile t fun x =>
    ({ x with copies := x.copies.filter fun q => q.id != r.id } : Tile).modEngine r.e fun g => g.movedLast r.nest r.cn s.ftime
  if r.lastCopy && r.tags && r.cfg.tagmode == 2 then
    (s.stamp (r.rowmap.filter fun k => !x.rowOut r k) r.cfg.tag).modTile t fun x =>
      { x with copies := x.copies.map fun q => if q.nest = r.nest then { q with fin := true } else q }
  else s

/-- A destination row is written at its bank. -/
def State.copyRow (s : State) (t : Tid) (r : CopyRun) (k : Nat) : State :=
  let u := tid (k / 8192)
  let row := k % 8192
  let w := r.rowWrites (s.tileAt u).pad row
  let s := s.padPut u w.1
  let s := s.rindEvents srcEngine (2 * t.val + r.e.toNat) inPad (w.2.map (· + u.val * 2 ^ 18))
  let stamped := r.tags && (r.cfg.tagmode == 1 || (r.cfg.tagmode == 2 && r.fin && !(s.tileAt t).rowOut r k))
  let s := if stamped then s.stamp [k] r.cfg.tag else s
  let s := (s.rowsGone [k] r.lateRows).modTile u fun x => { x with resv := x.resv ++ [(s.now, row / 128, 2)] }
  let r := { r with dstLeft := r.dstLeft.erase k, lateRows := r.lateRows.erase k }
  if r.dstLeft.isEmpty then s.runDone t r
  else s.modTile t fun x => { x with copies := x.copies.map fun q => if q.id = r.id then r else q }

/-- The write port of a bank is taken in this cycle. -/
def State.padTaken (s : State) (u : Tid) (bank : Nat) : Bool :=
  (s.tileAt u).resv.any fun v => v.1 == s.now && v.2.1 == bank && v.2.2 == 2

def State.planQueue (s : State) (t u : Tid) (e : Bool) : State :=
  s.plan (s.now + 1) (ordCopyWrite u t e true) .writeQueueRowWrite { EvArg.none with t := t, n := u.val, flag := e }

/-- A row is written, or waits in the write queue; the seventeenth stops the nest (R289). -/
def State.copyPut (s : State) (t : Tid) (r : CopyRun) (k : Nat) : State :=
  let u := tid (k / 8192)
  let bank := k % 8192 / 128
  let q := ((s.tileAt t).engine r.e).wq
  if s.padTaken u bank || q.any fun p => p.2 / 128 == k / 128 then
    let s := s.modTile t fun x => x.raiseBcol
    if 16 ≤ q.length then s.runStopS t r 3
    else
      let s := if q.any fun p => p.2 / 8192 == u.val then s else s.planQueue t u r.e
      s.modTile t fun x => x.modEngine r.e fun g => { g with wq := g.wq ++ [(r.id, k)] }
  else s.copyRow t r k

/-- Destination row `k` of a copy at its cycle. Past the guarantee of R281 a path-1 row may be late by a free time (log entry 3). -/
def State.copyDst (s : State) (t : Tid) (id k : Nat) : State :=
  match (s.tileAt t).run? id with
  | none => s
  | some r =>
    let row := r.dst.getD k 0
    if !r.dstLeft.contains row then s
    else if r.cfg.path == 1 && (match s.overAt with | some c => decide (r.at_ ≤ c) | none => false) then
      let (late, s) := s.drawBit
      if late then
        let (n, s) := s.drawNat
        let s := s.modTile (tid (row / 8192)) fun x => { x with late := x.late.modify 0 (row % 8192) (· + 1) }
        let s := s.modTile t fun x => { x with copies := x.copies.map fun q =>
          if q.id = id then { q with lateRows := row :: q.lateRows } else q }
        s.plan (s.now + 1 + n) (ordCopyWrite (tid (row / 8192)) t r.e false) .lateRowWrite { EvArg.none with t := t, n := id, m := row }
      else s.copyPut t r row
    else s.copyPut t r row

/-- LATE_ROW_WRITE (R282): the data of a late row arrive. -/
def execLateRowWrite (s : State) : Host.Outcome State Fault Refusal :=
  match (s.tileAt s.arg.t).run? s.arg.n with
  | none => .next s
  | some r => .next (if r.dstLeft.contains s.arg.m then s.copyPut s.arg.t r s.arg.m else s)

/-- Writes the queued rows of tile `u` whose ports are free, those of one bank in emission order. -/
def State.queueRows (s : State) (t u : Tid) (e : Bool) : List (Nat × Nat) → List Nat → State
  | [], _ => s
  | (id, k) :: l, seen =>
    let bank := k / 128
    if k / 8192 ≠ u.val then s.queueRows t u e l seen
    else if seen.contains bank || s.padTaken u (k % 8192 / 128) then s.queueRows t u e l (bank :: seen)
    else
      let s := s.modTile t fun x => x.modEngine e fun g => { g with wq := g.wq.erase (id, k) }
      match (s.tileAt t).run? id with
      | none => s.queueRows t u e l (bank :: seen)
      | some r => (s.copyRow t r k).queueRows t u e l (bank :: seen)

/-- WRITE_QUEUE_ROW_WRITE (R289): rows for the tile `arg.n`. -/
def execWriteQueueRowWrite (s : State) : Host.Outcome State Fault Refusal :=
  let t := s.arg.t
  let e := s.arg.flag
  let u := tid s.arg.n
  let s := s.queueRows t u e ((s.tileAt t).engine e).wq []
  .next (if ((s.tileAt t).engine e).wq.any fun p => p.2 / 8192 == u.val then s.planQueue t u e else s)

/-! ## Source rows (R279, R289) -/

/-- The read port of a bank is taken: by an L-slot access, the A stream, an atomic, or another copy read (R185). -/
def State.padReadTaken (s : State) (u : Tid) (bank : Nat) : Bool :=
  let x := s.tileAt u
  (x.throttled.isNone && x.streamAt (s.now - 1) s.now bank) || x.resv.any fun v => v.1 == s.now && v.2.1 == bank && v.2.2 != 2

/-- The rows of group records that a converting run reads with a row, through the companion bank in the same cycle (R97, R253). -/
def CopyRun.recRows (r : CopyRun) (row : Nat) : List Nat :=
  let b := bfOf r.bfmt (row / 128)
  if r.cfg.cvt ∧ bfGroup b ≠ 0 then
    let a := recAddr b (row % 128) 0
    rowsOf [a, a + 2048 / tyWidth (bfType b) / (16 * 2 ^ bfGroup b) * 4 - 1]
  else []

/-- The granules of a row, and of the group records of a converting run (R97). -/
def CopyRun.read (r : CopyRun) (pad : Store) (row : Nat) : SMap Gran :=
  let put := fun (m : SMap Gran) g => m.set .zero g (pad.gran g)
  let m := (List.range 32).foldl (fun m j => put m (32 * row + j)) r.got
  let b := bfOf r.bfmt (row / 128)
  if r.cfg.cvt ∧ bfGroup b ≠ 0 then
    let a := recAddr b (row % 128) 0
    let n := 2048 / tyWidth (bfType b) / (16 * 2 ^ bfGroup b) * 4
    (List.range ((a + n - 1) / 8 - a / 8 + 1)).foldl (fun m j => put m (a / 8 + j)) m
  else m

def State.planRead (s : State) (t u : Tid) (e : Bool) : State :=
  s.plan (s.now + 1) (ordCopyRead u t e) .delayedSourceRead { EvArg.none with t := t, flag := e }

/-- The head of the read queue is read when its port is free, one row in a cycle. Rows of copies that were cancelled are dropped. -/
def State.readHead (s : State) (t : Tid) (e : Bool) : List (Nat × Nat × Nat) → State
  | [] => s.modTile t fun x => x.modEngine e fun g => { g with rq := [] }
  | (id, k, due) :: l =>
    let x := s.tileAt t
    match x.run? id with
    | none => s.readHead t e l
    | some r =>
      let key := r.src.getD k 0
      let u := tid (key / 8192)
      let row := key % 8192
      let rows := row :: r.recRows row
      let y := s.tileAt u
      let keep := s.modTile t fun x => x.modEngine e fun g => { g with rq := (id, k, due) :: l }
      if due + 8 < s.now then (s.modTile t fun x => x.modEngine e fun g => { g with rq := l }).runStopS t r 4
      else if (x.engine e).rdAt = s.now then keep.planRead t u e
      else if rows.any fun q => s.padReadTaken u (q / 128) then (keep.modTile t fun x => x.raiseBcol).planRead t u e
      else if rows.any fun q => (r.erc && y.pend.get 0 q != 0) || y.isLate q then
        (s.modTile t fun x => x.modEngine e fun g => { g with rq := l }).runStopS t r 1
      else
        let s := s.modTile t fun x => ({ x with copies := x.copies.map fun q =>
            if q.id = id then { q with got := q.read y.pad row } else q } : Tile).modEngine e fun g => { g with rq := l, rdAt := s.now }
        let s := s.modTile u fun x => { x with resv := x.resv ++ rows.map fun q => (s.now, q / 128, 1) }
        match l with
        | [] => s
        | _ => s.planRead t u e

/-- Row `k` of a copy's source at its cycle. -/
def State.copySrc (s : State) (t : Tid) (id k : Nat) : State :=
  match (s.tileAt t).run? id with
  | none => s
  | some r =>
    let q := ((s.tileAt t).engine r.e).rq
    let s := s.modTile t fun x => x.modEngine r.e fun g => { g with rq := g.rq ++ [(id, k, s.now)] }
    if q.isEmpty then s.readHead t r.e [(id, k, s.now)] else s

/-- DELAYED_SOURCE_READ (R289). -/
def execDelayedSourceRead (s : State) : Host.Outcome State Fault Refusal :=
  .next (s.readHead s.arg.t s.arg.flag ((s.tileAt s.arg.t).engine s.arg.flag).rq)

/-! ## Basin memory (R283, R285) -/

def copyNeed (path : BitVec 2) : Nat := if path = 1 then needR else needW

/-- A translation that an engine uses: one that it holds, else one in the micro-TLB (R283). -/
def Tile.copyXlat (x : Tile) (e : Bool) (pdom : BitVec 16) (sv : Bool) (va need : Nat) : Xlat :=
  if 2 ^ 48 ≤ va then .fault 0xD 0
  else match (x.engine e).held.find? fun h => h.holds pdom va with
    | some h => h.use va need (!sv)
    | none => x.translateFor pdom sv va need

/-- A copy and those after it are emitted one cycle later (R283): the nest has no more copies to emit. -/
def State.copySlide (s : State) (t : Tid) (r : CopyRun) : State :=
  let ids := ((s.tileAt t).copies.filter fun q => q.nest == r.nest && decide (r.cn ≤ q.cn)).map (·.id)
  let mine := fun e : Entry => match e.ev with
    | .copySrc u id _ => u == t && ids.contains id
    | .copyL2Read u id => u == t && ids.contains id
    | .copyDst u id _ => u == t && ids.contains id
    | .copyPerform u id => u == t && ids.contains id
    | _ => false
  let later := (s.agenda.filter mine).foldl (fun l e => agendaIns { e with at_ := e.at_ + 1 } l) (s.agenda.filter fun e => !mine e)
  ({ s with agenda := later } : State).modTile t fun x => x.modEngine r.e fun g =>
    if g.nest = r.nest then { g with slid := true, lasts := g.lasts.map fun l => if r.cn ≤ l.1 then (l.1, l.2 + 1) else l } else g

/-- The nest goes back to a copy whose walk an invalidation has dropped: it is emitted again when its translation is ready (R283, R438).
A nest that emits no more, or that `.res` starts again later, keeps its emitted copies: they slide. -/
def State.copyAgain (s : State) (t : Tid) (r : CopyRun) : State :=
  let g := (s.tileAt t).engine r.e
  if g.nest == r.nest && (g.st == .running || g.st == .idle) then
    (s.cancelRuns t r.nest r.cn).modTile t fun x => x.modEngine r.e fun g =>
      { g with st := .running, slid := true, cn := r.cn, next := x.mclk + 1, lasts := g.lasts.filter fun l => decide (l.1 < r.cn) }
  else (s.copySlide t r).schedule (s.now + 1) ordRead (.copyL2Read t r.id)

/-- The cycle by which a copy's translations must be ready: they are used, or its nest stops (R283); in free mode the emission has waited for
them. On path 1
the whole run is then read at the L2. -/
def State.copyL2Read (s : State) (t : Tid) (id : Nat) : State :=
  match (s.tileAt t).run? id with
  | none => s
  | some r =>
    let x := s.tileAt t
    let xs := (r.cfg.pages r.bfmt r.cn).map fun a => (a, x.copyXlat r.e r.pdom r.sv a (copyNeed r.cfg.path))
    match xs.findSome? fun p => match p.2 with | .fault c l => some (p.1, c, l) | _ => none with
    | some (a, c, l) => s.runStop t r clsT (BitVec.ofNat 4 c) (walkInfo a l (11 + r.e.toNat))
    | none =>
      match xs.filter fun p => p.2 == .miss with
      | [] =>
        let pages := xs.foldl (fun (m : SMap Nat) p => match p.2 with
          | .pa a => m.set 0 (p.1 / 2 ^ 16) (a - p.1 % 2 ^ 16)
          | _ => m) []
        let r := { r with pages := pages }
        let r := if r.cfg.path = 1 then
            { r with got := r.memGrans.foldl (fun m g => m.set .zero g (s.memGran (some t) (r.phys g))) r.got } else r
        s.modTile t fun x => { x with copies := x.copies.map fun q => if q.id = id then r else q }
      | ms =>
        if r.tm then s.runStopS t r 2
        else (ms.foldl (fun s p => s.startWalkFor t r.pdom p.1 (11 + r.e.toNat)) s).copyAgain t r

/-- The physical byte of a virtual one. -/
def CopyRun.physByte (r : CopyRun) (a : Nat) : Nat := 8 * r.phys (a / 8) + a % 8

/-- A run performs at the L2 (R280, R285). -/
def State.copyPerform (s : State) (t : Tid) (id : Nat) : State :=
  match (s.tileAt t).run? id with
  | none => s
  | some r =>
    let s := s.modTile t fun x => { x with copies := x.copies.filter fun q => q.id != id }
    if r.cfg.path = 2 then
      let els := match r.cfg.tensor with | some c => c.stores r.cn | none => []
      let w := match r.cfg.tensor with | some c => trWidth c.record.toNat / 4 | none => 1
      r.memGrans.foldl (fun s g =>
        let p := r.phys g
        let b := buildGran r.got (s.memGran (some t) p) g (r.memNib els w)
        let s := if b.2 then s.rindEvents srcEngine (2 * t.val + r.e.toNat) 0 [p] else s
        match b.1 with
        | some x => s.memWrite (some t) { x with g := p }
        | none => s) s
    else
      r.redEls.foldl (fun s e =>
        let g := r.got.get .zero (e.2 / 8)
        s.memReduce (some t) r.redOp r.redType (r.physByte e.1) (bits g.d.toNat (8 * (e.2 % 8)) (tyWidth r.redType)) g.bad) s

/-! ## Emission (R280, R281, R283) -/

/-- The demand of R281 grows by a copy. -/
def State.addDemand (s : State) (n : Nat) : State :=
  let l := s.demand.filter (fun d => decide (s.now < d.1 + 64)) ++ [(s.now, n)]
  { s with demand := l, overAt := if 163840 < (l.map (·.2)).sum then some s.now else s.overAt }

/-- A copy is emitted: its reads, writes and L2 accesses are scheduled. -/
def State.launchCopy (s : State) (t : Tid) (e : Bool) (g : CopyEngine) : State :=
  let x := s.tileAt t
  let k := g.cn
  let b := g.cfg.bytes g.bfmt k
  let lat := copyLat g.cfg.path b
  let key := fun a rows => rows.map fun r => (match g.cfg.tensor with
    | some _ => t.val
    | none => match padTile t a with | some u => u.val | none => t.val) * 8192 + r
  let src := key (g.cfg.sa k) (g.cfg.srcRows g.bfmt k)
  let dst := key (g.cfg.da k) (g.cfg.dstRows g.bfmt k)
  let last := decide (k + 1 = g.cfg.copies)
  let rowmap := dst.foldl (fun l r => insRow r l) g.rowmap
  let g := { g with
    st := if last then .idle else .running, cn := k + 1, next := x.mclk + g.cfg.pace g.bfmt k,
    lasts := g.lasts.filter (fun l => x.copies.any fun q => q.nest == g.nest && decide (q.cn ≤ l.1 + 1) || l.1 + 1 == k) ++ [(k, s.ftime + BitVec.ofNat 64 lat)], rowmap := rowmap }
  let s := s.modTile t fun x => x.setEngine e g
  if b = 0 then s
  else
    let (id, s) := s.newId
    let r : CopyRun :=
      { id := id, nest := g.nest, e := e, cn := k, at_ := s.now, issue := g.issue, pc := g.pc, tm := g.tm, erc := g.erc, sv := x.sv?, pdom := x.pdom,
        cfg := g.cfg, bfmt := g.bfmt, sa := g.cfg.sa k, da := g.cfg.da k, bytes := b, src := src, dst := dst, dstLeft := dst,
        lateRows := [], pages := [], got := [], tags := g.cfg.tagmode != 0, lastCopy := last, rowmap := rowmap, fin := false }
    let s := s.modTile t fun x => { x with copies := x.copies ++ [r] }
    let s := dst.foldl (fun s k => s.modTile (tid (k / 8192)) fun x => x.addPend [k % 8192]) s
    let s := (src.mapIdx fun i k => (i, k)).foldl (fun s p =>
      s.schedule (s.now + 1 + p.1) (ordCopyRead (tid (p.2 / 8192)) t e) (.copySrc t id p.1)) s
    let s := (dst.mapIdx fun i k => (i, k)).foldl (fun s p =>
      s.schedule (s.now + lat - (dst.length - 1 - p.1)) (ordCopyWrite (tid (p.2 / 8192)) t e false) (.copyDst t id p.1)) s
    if g.cfg.path = 0 then s
    else
      let s := (s.addDemand b).schedule (s.now + if g.cfg.path = 1 then 32 else lat - 8) ordRead (.copyL2Read t id)
      if g.cfg.path = 1 then s else s.schedule (s.now + lat) (ordCopyWrite t t e false) (.copyPerform t id)

/-- The end of a page's walk is in the calendar, not after cycle `c`. -/
def State.walkBy (s : State) (t : Tid) (pdom : BitVec 16) (va c : Nat) : Bool :=
  s.agenda.any fun e => match e.ev with
    | .event .translationWalkEnd a => a.walk.tile == t && a.walk.pdom == pdom && a.walk.va.toNat / 2 ^ 16 == va / 2 ^ 16 && decide (e.at_ ≤ c)
    | _ => false

/-- The pages whose translations will not be ready by the first basin access of the engine's next copy, were it emitted now (R283). -/
def State.copyLatePages (s : State) (t : Tid) (e : Bool) (g : CopyEngine) : List Nat :=
  let x := s.tileAt t
  let c := s.now + if g.cfg.path = 1 then 32 else copyLat g.cfg.path (g.cfg.bytes g.bfmt g.cn) - 8
  (g.cfg.pages g.bfmt g.cn).filter fun a => x.copyXlat e x.pdom x.sv? a (copyNeed g.cfg.path) == .miss && !s.walkBy t x.pdom a c

/-- In free mode a copy whose translations are not ready in time, and every later one, is emitted later (R283). -/
def State.copyWait (s : State) (t : Tid) (e : Bool) (g : CopyEngine) (ps : List Nat) : State :=
  (ps.foldl (fun s a => s.startWalk t a (11 + e.toNat)) s).modTile t fun x =>
    x.setEngine e { g with st := .running, slid := true, next := x.mclk + 1, reqAt := g.reqAt + 1 }

/-- The copies of a nest without bytes are all emitted at once, up to one that fails its checks (R280, R293). -/
def State.emitEmpty (s : State) (t : Tid) (e : Bool) (g : CopyEngine) : State :=
  let n := g.cfg.copies
  let to_ := match (List.range (n - g.cn)).find? fun j => !(g.cfg.faults g.bfmt t (g.cn + j)).isEmpty with
    | some j => g.cn + j
    | none => n
  let s := s.modTile t fun x => x.setEngine e { g with
    cn := to_, st := .idle, lasts := [(to_ - 1, s.ftime + BitVec.ofNat 64 (copyLat g.cfg.path 0))] }
  match if to_ < n then g.cfg.faults g.bfmt t to_ else [] with
  | f :: _ => s.copyStop t e g.nest to_ g.issue g.pc clsT (BitVec.ofNat 4 f.1) f.2
  | [] => s

/-- Emits the next copy after its checks (R293, Table 10-6), or ends the nest. -/
def State.copyEmit (s : State) (t : Tid) (e : Bool) : State :=
  let x := s.tileAt t
  let g := x.engine e
  if g.cfg.copies ≤ g.cn then s.modTile t fun x => x.modEngine e fun g => { g with st := .idle }
  else
    match g.cfg.faults g.bfmt t g.cn with
    | f :: _ => s.copyStop t e g.nest g.cn g.issue g.pc clsT (BitVec.ofNat 4 f.1) f.2
    | [] =>
      let known := (g.cfg.pages g.bfmt g.cn).findSome? fun a => match x.copyXlat e x.pdom x.sv? a (copyNeed g.cfg.path) with
        | .fault c l => some (a, c, l)
        | _ => none
      match known with
      | some (a, c, l) => s.copyStop t e g.nest g.cn g.issue g.pc clsT (BitVec.ofNat 4 c) (walkInfo a l (11 + e.toNat))
      | none =>
        if g.cfg.bytes g.bfmt g.cn = 0 then s.emitEmpty t e g
        else
          let ps := if g.tm then [] else s.copyLatePages t e g
          if ps.isEmpty then s.launchCopy t e g else s.copyWait t e g ps

/-- An engine whose next emission is due. -/
def Tile.copyDue (x : Tile) (e : Bool) : Bool :=
  let g := x.engine e
  x.emits && (g.st == .armed || g.st == .running) && decide (g.next ≤ x.mclk)

/-- COPY_EMISSION (R280). -/
def execCopyEmission (s : State) : Host.Outcome State Fault Refusal :=
  .next (if (s.tileAt s.arg.t).copyDue s.arg.flag then s.copyEmit s.arg.t s.arg.flag else s)

/-- Requests the translations of copies up to 256 cycles before their emission (R283). -/
def State.copyAhead (s : State) (t : Tid) (e : Bool) : Nat → State
  | 0 => s
  | n + 1 =>
    let x := s.tileAt t
    let g := x.engine e
    if (g.st == .armed || g.st == .running) && g.cfg.path != 0 && decide (g.reqCn < g.cfg.copies) && decide (g.reqAt ≤ x.mclk + 256) then
      let s := (g.cfg.pages g.bfmt g.reqCn).foldl (fun s a =>
        match x.copyXlat e x.pdom x.sv? a (copyNeed g.cfg.path) with
        | .miss => s.startWalkFor t x.pdom a (11 + e.toNat)
        | _ => match x.utlb.find? fun h => h.holds x.pdom a with
          | some h => s.modTile t fun x => x.modEngine e fun g => { g with held := if g.held.contains h then g.held else h :: g.held }
          | none => s) s
      (s.modTile t fun x => x.modEngine e fun g =>
        { g with reqCn := g.reqCn + 1, reqAt := g.reqAt + g.cfg.pace g.bfmt g.reqCn }).copyAhead t e n
    else s

/-! ## Instructions (R290 to R295) -/

def copyE (f : CF) : Bool := bit f.x.toNat 0

def Tile.cCond (x : Tile) (f : CF) : Bool := x.cond f.pred.toNat f.neg

/-- R291. -/
def execCloop (f : CF) (s : State) : Host.Outcome State Fault Refusal :=
  let x := s.tile
  let v : CLevel := { n := BitVec.ofNat 32 (x.sv f.a.toNat), ss := BitVec.ofNat 64 (x.sv f.b.toNat), ds := BitVec.ofNat 64 (x.sv f.c.toNat) }
  s.issueSlot (.cloop f) [] (x.cCond f) (x.consumeS 6 0 f.a.toNat ++ x.consumeS 6 1 f.b.toNat ++ x.consumeS 6 2 f.c.toNat) none
    (s.onTile fun x => x.modEngine (copyE f) fun g => { g with staged := { g.staged with lv := g.staged.lv.set (cloopLevel f) v } })

/-- R292. -/
def execCbase (f : CF) (s : State) : Host.Outcome State Fault Refusal :=
  let x := s.tile
  s.issueSlot (.cbase f) [] (x.cCond f) (x.consumeS 6 0 f.a.toNat ++ x.consumeS 6 1 f.b.toNat ++ x.consumeS 6 2 f.c.toNat) none
    (s.onTile fun x => x.modEngine (copyE f) fun g => { g with staged := { g.staged with
      src := BitVec.ofNat 64 (x.sv f.a.toNat), dst := BitVec.ofNat 64 (x.sv f.b.toNat), m := BitVec.ofNat 64 (x.sv f.c.toNat),
      path := BitVec.ofNat 2 (cbasePath f), op := BitVec.ofNat 3 (cbaseOp f), type := BitVec.ofNat 5 (cbaseType f), cvt := cbaseCvt f,
      tagmode := BitVec.ofNat 2 (cbaseTm f), tag := BitVec.ofNat 8 (cbaseTag f), tensor := none } })

/-- The engine waits for its start cycle; a nest that starts at its issue cycle emits at once. -/
def State.armCopy (s : State) (e : Bool) (start : Nat) (g : CopyEngine) : State :=
  let x := s.tile
  let g := { g with st := .armed, tm := x.timed, erc := x.st stERC, held := if x.copies.any (fun r => r.e == e) then g.held else [], pc := x.pc, issue := x.rclk, next := x.mclk + start, reqCn := g.cn, reqAt := x.mclk + start }
  let s := (s.onTile fun x => x.setEngine e g).copyAhead s.cur e 257
  if s.tile.copyDue e then s.copyEmit s.cur e else s

/-- All 64 BFMT registers. -/
def Tile.bfmts (x : Tile) : SMap Word := x.sr.filterMap fun r => if srBFMT ≤ r.1 ∧ r.1 < srBFMT + 64 then some (r.1 - srBFMT, r.2) else none

/-- A fresh nest (R293). -/
def State.freshCopy (s : State) (e : Bool) (start : Nat) (c : CopyCfg) : State :=
  let (n, s) := s.newId
  s.armCopy e start { s.tile.engine e with cfg := c, slid := false, nest := n + 1, cn := 0, bfmt := s.tile.bfmts, rowmap := [], lasts := [] }

/-- Signed 20-bit coordinates of an origin (R299). -/
def originOf (b c : Nat) : List Int := (List.range 6).map fun l => sext 20 (bits (if l < 3 then b else c) (20 * (l % 3)) 20)

/-- The checks of R300, in its order. -/
def State.tensorChecks (s : State) (op idn rb : Nat) (org : List Int) : List Flt :=
  let x := s.tile
  match s.binds.find? fun b => trId b.record.toNat == idn with
  | none => [x.localT 6 5 idn]
  | some b =>
    let r := b.record.toNat
    let ty := trEfmt r % 32
    let okB := fun n => let v := x.bfmt n; bfFmt v == trEfmt r || (bfGroup v == 0 && tyWidth (bfType v) == trWidth r)
    let places := (List.range (trImageRows r)).map (trPlace r rb)
    if 2 ≤ op ∧ !path3Type (op - 2) ty then [x.recTrap 6 0 8 15]
    else if places.any fun p => !okB p.1 then [x.recTrap 6 0 0 7]
    else match places.find? fun p => 64 ≤ p.1 || 128 ≤ p.2 with
      | some p => [x.localT 6 4 (p.1 * 32768 + p.2 * 256)]
      | none =>
        if trFmode r ≠ 2 then []
        else match (trLevels r).find? fun l => org.getD l 0 < 0 || decide ((trDim r l : Int) < org.getD l 0 + trExt r l) with
          | some l => [x.localT 6 7 (idn + l * 2 ^ 16)]
          | none => []

/-- The latched configuration of a tensor-mode nest (R299, R301). -/
def tensorCfg (c : CopyCfg) (op idn pl : Nat) (org : List Int) (record : BitVec 768) : CopyCfg :=
  { c with
    path := if op = 0 then 1 else if op = 1 then 2 else 3, op := BitVec.ofNat 3 (op - 2), type := BitVec.ofNat 5 (trEfmt record.toNat),
    cvt := false, tagmode := BitVec.ofNat 2 (bits pl 16 2), tag := BitVec.ofNat 8 (bits pl 8 8),
    tensor := some { op := BitVec.ofNat 4 op, id := BitVec.ofNat 16 idn, rb := BitVec.ofNat 7 pl, org := org, record := record } }

/-- `CGO` in tensor mode (R299 to R301); the tag mode is a value check (R131). -/
def State.cgoTensor (s : State) (f : CF) (busy : List Flt) : Host.Outcome State Fault Refusal :=
  let x := s.tile
  let e := copyE f
  let op := cgoOp f
  let idn := bits (x.sv f.a.toNat) 0 16
  let org := originOf (x.sv f.b.toNat) (x.sv f.c.toNat)
  let pl := x.sv f.d.toNat
  let tm := bits pl 16 2
  let val := (errIf (tm == 3) (encErr 6 .operandKind 13 18) ++ errIf (tm != 0 && tm != 3 && op != 0) (encErr 6 .reservedField 13 18)).map fun e =>
    (rankRec 6, (x.encTrap e).2)
  let ops := x.consumeS 6 0 f.a.toNat ++ x.consumeS 6 1 f.b.toNat ++ x.consumeS 6 2 f.c.toNat ++ x.consumeS 6 5 f.d.toNat
  let record := match s.binds.find? fun b => trId b.record.toNat == idn with | some b => b.record | none => 0
  s.issueSlot (.cgo f) [] (x.cCond f) (ops ++ val ++ s.tensorChecks op idn (bits pl 0 7) org ++ busy) none
    (s.freshCopy e f.imm20.toNat (tensorCfg (x.engine e).staged op idn pl org record))

/-- R293, R299. -/
def execCgo (f : CF) (s : State) : Host.Outcome State Fault Refusal :=
  let x := s.tile
  let e := copyE f
  let g := x.engine e
  let no := [x.classS 6 0xC (copyInfo e 5 0)]
  let busy := if g.st == .armed || g.st == .running then no else []
  if cgoRes f then
    s.issueSlot (.cgo f) [] (x.cCond f) (if g.st == .stopped then [] else no) none (s.armCopy e f.imm20.toNat g)
  else if cgoTensor f then s.cgoTensor f busy
  else s.issueSlot (.cgo f) [] (x.cCond f) busy none (s.freshCopy e f.imm20.toNat g.staged)

/-- R294. -/
def execCstop (f : CF) (s : State) : Host.Outcome State Fault Refusal :=
  let x := s.tile
  s.issueSlot (.cstop f) [] (x.cCond f) [] none (s.onTile fun x => x.modEngine (copyE f) fun g =>
    match g.st with
    | .idle => g
    | _ => if g.cn < g.cfg.copies then { g with st := .stopped, cause := 1 } else { g with st := .idle })

def CState.code : CState → Nat
  | .idle => 0
  | .armed => 1
  | .running => 2
  | .stopped => 3

/-- The engine status word (Table 10-5). -/
def CopyEngine.word (g : CopyEngine) : Nat :=
  g.st.code + 4 * g.slid.toNat + 8 * g.cfg.tensor.isSome.toNat + 16 * g.cause.toNat

/-- What `CQUERY` reads (R295): `.last` is 0 before the first copy. The spec gives no levels to a nest of lines: its indices are free (log entry 3). -/
def CopyEngine.query (g : CopyEngine) (sel lvl free : Nat) : Nat :=
  match sel with
  | 0 => g.word
  | 1 => g.cn
  | 2 => ((g.lasts.find? fun l => l.1 + 1 == g.cn).map (·.2.toNat)).getD 0
  | 3 => if g.cfg.tensor.isSome then (Config.freeWord free).toNat else g.cfg.index g.cn lvl
  | _ => g.cfg.copies - g.cn

/-- R295. -/
def execCquery (f : CF) (s : State) : Host.Outcome State Fault Refusal :=
  let x := s.tile
  s.issueSlot (.cquery f) [] (x.cCond f) [] none
    (({ s with free := s.free + 1 } : State).land 6 2
      [.scalar f.d (scalarOf ((x.engine (copyE f)).query (cquerySel f) (cqueryLevel f) s.free % 2 ^ 64))])

end Sys2Proof.Machine
end

