-- ==== Sys2Proof/Machine/Tensor.lean ====
section
/-! DEFINITION. Bindings of tensor layout records: `TBIND`, `TUNBIND`, `TFLUSH` (R302 to R305). -/

namespace Sys2Proof.Machine

open Check

/-! ## The record (Table 10-6b) -/

/-- Word `j` of a record in vR to vR+2. -/
def Tile.recordGran (x : Tile) (v j : Nat) : Gran := (x.vec (v + j / 4)).gran (j % 4)

def Tile.tensorRecord (x : Tile) (v : Nat) : BitVec 768 := BitVec.ofNat 768 (packNat 64 ((List.range 12).map fun j => (x.recordGran v j).d.toNat))

/-- A record check that fails: its field. -/
def recField (lo w : Nat) (b : Bool) : List (Nat × Nat) := if b then [(lo, lo + w - 1)] else []

/-- An element-format byte that names a format (R95). -/
def isFormat (e : Nat) : Bool := tyX (e % 32) && (bits e 5 2 == 0 || e % 32 == 1 || e % 32 == 12)

/-- The checks of `TBIND` (R304), by rising bit position. -/
def tensorErrs (r : Nat) : List (Nat × Nat) :=
  let rank := trRank r
  let w := trWidth r
  let perLevel := fun (f : Nat → List (Nat × Nat)) => (List.range 6).flatMap f
  recField 0 8 (trVersion r != 1) ++ recField 8 8 (!isFormat (trEfmt r % 128)) ++ recField 15 1 (bit r 15) ++
  recField 16 3 (rank == 0 || rank == 7) ++ recField 19 5 (bits r 19 5 != 0) ++ recField 24 16 (trId r == 0) ++
  recField 40 64 (decide (8 < w) && trBase r % (w / 8) != 0) ++ recField 104 24 (bits r 104 24 != 0) ++
  perLevel (fun l => recField (128 + 20 * l) 20 ((trDim r l == 0) == decide (l < rank))) ++ recField 248 8 (bits r 248 8 != 0) ++
  perLevel (fun l => recField (256 + 40 * l) 40 (decide (rank ≤ l) && trStride r l != 0)) ++ recField 496 16 (bits r 496 16 != 0) ++
  (if 32768 < ((trLevels r).map (trExt r)).foldl (· * ·) 1 * w then [(512, 583)] else []) ++
  perLevel (fun l => recField (512 + 12 * l) 12 ((trExt r l == 0) == decide (l < rank))) ++
  recField 616 2 (trFmode r == 3) ++ recField 624 7 (trNb r == 0 || decide (64 < trNb r) || decide (64 < trBs r + trNb r)) ++
  recField 631 3 (decide (4 < trIlv r)) ++ recField 634 12 (trPitch r == 0) ++ recField 648 120 (bits r 648 120 != 0)

/-! ## Home slices (R302) -/

/-- Indices of an element, top level first, from its place among the elements of a reverse-mappable record (R303). -/
def elemIndices (n : Nat) : List (Int × Nat) → List Nat
  | [] => []
  | (st, dim) :: l => let i := min (n / st.toNat) (dim - 1); i :: elemIndices (n - i * st.toNat) l

/-- The home slice, among the basin's four, of a tile of a bound tensor. -/
def homeSlice (id : Nat) (coords : List Nat) : Nat := (id + coords.sum) % 4

/-- The home slice of a 256-byte block of tensor 0. -/
def linearSlice (pa : Nat) : Nat := (pa / 2 ^ 8 ^^^ pa / 2 ^ 10) % 4

/-- The coordinates of the tensor tile that holds a physical byte, top level first, with the record's id; none for linear traffic. -/
def State.tileOf (s : State) (pa : Nat) : Option (Nat × List Nat) :=
  (s.binds.find? fun b => b.cached && b.covers pa).bind fun b => (b.vaOf pa).map fun va =>
    let r := b.record.toNat
    let ls := (bindLevels r).reverse
    let ext := fun (p : Int × Nat) => (((trLevels r).find? fun l => trStride r l == p.1 && trDim r l == p.2).map (trExt r)).getD 1
    (trId r, ((elemIndices (8 * (va - b.lo) / trWidth r) ls).zip ls).map fun p => p.1 / ext p.2)

/-- The L2 slice that holds a physical byte (R302). What a slice holds is seen by no access: they perform alike in all four. -/
def State.sliceOf (s : State) (pa : Nat) : Nat :=
  match s.tileOf pa with
  | some t => homeSlice t.1 t.2
  | none => linearSlice pa

/-! ## Ranges (R303) -/

/-- Offset in bits of the lowest element from the base, and of the highest. -/
def tensorSpan (r : Nat) : Int × Int :=
  (trLevels r).foldl (fun (a : Int × Int) l =>
    let d := ((trDim r l : Int) - 1) * trStride r l
    (a.1 + min d 0, a.2 + max d 0)) (0, 0)

/-- The range of a record: its lowest byte and the byte after its highest. -/
def tensorRange (r : Nat) : Int × Int :=
  let w : Int := trWidth r
  ((8 * (trBase r : Int) + (tensorSpan r).1 * w) / 8, (8 * (trBase r : Int) + (tensorSpan r).2 * w + w + 7) / 8)

/-- The pages from `va` on below `hi`, up to the first that is not mapped. -/
def State.pinPages (s : State) (pdom : BitVec 16) (hi : Nat) : Nat → Nat → List TlbEnt
  | 0, _ => []
  | n + 1, va =>
    if hi ≤ va then []
    else
      let e := s.walk pdom va
      if 2 ^ 48 ≤ va then [{ e with fault := some (0xD, 0) }]
      else if e.fault.isSome then [e]
      else e :: s.pinPages pdom hi n ((e.page + 1) * e.size)

/-- Their walks log what they meet (R437). -/
def State.pinLog (s : State) (ps : List TlbEnt) : State := ps.foldl (fun s e => s.walkLog e (e.page * e.size)) s

def mapped (ps : List TlbEnt) : Bool := ps.all fun e => e.fault.isNone

/-- The physical intervals of a binding's range. -/
def Binding.physical (b : Binding) : List (Nat × Nat) :=
  b.pages.map fun p =>
    let v := p.page * p.size
    (p.pa + (b.lo - v), p.pa + (min b.hi (v + p.size) - v))

def bindMeet (a b : Binding) : Bool := a.physical.any fun p => b.physical.any fun q => decide (p.1 < q.2) && decide (q.1 < p.2)

/-- Each stride is at least the previous stride times the previous dimension. -/
def levelsNest : List (Int × Nat) → Bool
  | a :: b :: l => decide (a.1 * a.2 ≤ b.1) && levelsNest (b :: l)
  | _ => true

/-- Conditions for a cached binding but for the overlap (R303). -/
def cacheable (r : Nat) : Bool := trPol r != 3 && (bindLevels r).all (fun l => decide (0 < l.1)) && levelsNest (bindLevels r)

/-! ## The steps at the L2 -/

/-- `TBIND` takes effect and returns its status (R304). -/
def State.bind (s : State) (t : Tid) (id : Nat) (record : BitVec 768) (pdom : BitVec 16) : State :=
  let r := record.toNat
  let answer := fun (s : State) (n : Nat) => s.modTile t fun x => x.fill id (fillScalar (scalarOf n))
  match s.binds.find? fun b => trId b.record.toNat == trId r with
  | some b =>
    if b.record = record ∧ b.pdom = pdom then
      answer { s with binds := s.binds.map fun c => if c == b then { c with refs := c.refs + 1 } else c } (if b.cached then 0 else 3)
    else answer s 2
  | none =>
    if 64 ≤ s.binds.length then answer s 1
    else
      let g := tensorRange r
      if g.1 < 0 ∨ 2 ^ 48 < g.2 then answer s 4
      else
        let ps := s.pinPages pdom g.2.toNat ((g.2 - g.1).toNat / 2 ^ 16 + 2) (g.1.toNat / 2 ^ 16 * 2 ^ 16)
        let s := s.pinLog ps
        if !mapped ps then answer s 4
        else
          let b : Binding := { record := record, pdom := pdom, refs := 1, cached := false, lo := g.1.toNat, hi := g.2.toNat, pages := ps }
          let c := cacheable r && !(s.binds.any fun o => o.cached && bindMeet o b)
          answer { s with binds := s.binds ++ [{ b with cached := c }] } (if c then 0 else 3)

/-- Dirty elements of an id are written back: memory keeps its contents. -/
def State.flushTiles (s : State) (idn : Nat) : State := { s with undo := s.undo.filter fun u => u.id != idn }

/-- Dirty elements of an id are dropped: each has the value of HBM again, unless an eviction has written it back (log entry 3). -/
def State.dropTiles (s : State) (idn : Nat) : State :=
  ((s.undo.filter fun u => u.id == idn).foldl (fun s u =>
    let (evicted, s) := s.drawBit
    if evicted then s
    else
      let back := fun (v : Undo) => v.old.write { g := u.g, d := u.old.d, r := u.old.r, bad := u.old.bad, mask := u.mask &&& ~~~v.mask }
      { s.keepWas u.g with
               mem := s.mem.setGran u.g u.old,
               undo := s.undo.map fun v => if v.g = u.g ∧ v.id ≠ idn then { v with old := back v } else v }) s).flushTiles idn

/-- `TUNBIND` at the L2 (R305). -/
def State.unbind (s : State) (t : Tid) (id idn : Nat) : State :=
  let answer := fun (s : State) (n : Nat) => s.modTile t fun x => x.fill id (fillScalar (scalarOf n))
  match s.binds.find? fun b => trId b.record.toNat == idn with
  | none => answer s 2
  | some b =>
    if 1 < b.refs then answer { s with binds := s.binds.map fun c => if c == b then { c with refs := c.refs - 1 } else c } 1
    else answer (({ s with binds := s.binds.erase b } : State).flushTiles idn) 0

/-- `TFLUSH` at the L2 (R305). -/
def State.flushBound (s : State) (idn mode : Nat) : State :=
  if s.binds.any fun b => trId b.record.toNat == idn then (if mode = 2 then s.dropTiles idn else s.flushTiles idn) else s

/-! ## Instructions -/

/-- A C-slot scalar that comes from a unit `lat` cycles after issue. -/
def State.unitScalar (s : State) (d : BitVec 6) (lat ord : Nat) (ev : Nat → Ev) : State :=
  let (id, s) := s.newId
  (s.landWaiting 6 lat [.scalar d (.zero 1)] id).schedule (s.now + lat) ord (ev id)

/-- The first bad granule of the words of a record from vR (R304): operand 0, row by register. -/
def Tile.recordBad (x : Tile) (v words : Nat) : List Flt :=
  match (List.range words).find? fun j => (x.recordGran v j).bad with
  | none => []
  | some j => [(rankI 6, x.issueTrap clsI (badLow (x.recordGran v j)) (badInfo 6 0 (j / 4) (j % 4) (x.recordGran v j)))]

/-- R304. -/
def execTbind (f : CF) (s : State) : Host.Outcome State Fault Refusal :=
  let x := s.tile
  let v := bits f.imm20.toNat 0 9
  let r := x.tensorRecord v
  s.issueSlot (.tbind f) [] (x.cCond f)
    (x.recordBad v 12 ++ (match tensorErrs r.toNat with | p :: _ => [x.recTrap 6 0 p.1 p.2] | [] => [])) none
    (s.unitScalar f.d 32 ordBind fun id => .tbind s.cur id r x.pdom)

/-- R305. -/
def execTunbind (f : CF) (s : State) : Host.Outcome State Fault Refusal :=
  let x := s.tile
  s.issueSlot (.tunbind f) [] (x.cCond f) (x.consumeS 6 0 f.a.toNat) none
    (s.unitScalar f.d 32 ordBind fun id => .tunbind s.cur id (bits (x.sv f.a.toNat) 0 16))

/-- R305. -/
def execTflush (f : CF) (s : State) : Host.Outcome State Fault Refusal :=
  let x := s.tile
  s.issueSlot (.tflush f) [] (x.cCond f) (x.consumeS 6 0 f.a.toNat) none
    (s.schedule (s.now + 32) ordBind (.tflush (bits (x.sv f.a.toNat) 0 16) (tflushMode f)))

end Sys2Proof.Machine
end

