-- ==== Sys2Proof/Machine/Remote.lean ====
section
/-! DEFINITION. The origin side of remote operations: handles (R321 to R323), flits and where they go (R336 to R338, R347, R350), source
reads, the port's queues, combining (R58) and what arrives back (R314 to R317, R328, R329). -/

namespace Sys2Proof.Machine

open Check

/-! ## The reach (R13, R346, R347) -/

/-- The package of a rank of the reach: the package's own eight basins while no external link has been brought up. The host die is in the
package (R465). -/
def State.pkgOf (s : State) (rank : Nat) : Option Nat :=
  match s.boot with
  | none => if rank = s.rank then some 0 else none
  | some b =>
    if rank = s.rank ∨ s.hostRank? = some rank then some b.pkg
    else if s.joined then (b.pkgOfRank.find? fun p => p.1 == rank).map (·.2)
    else if rank < 8 then some b.pkg else none

def State.myPkg (s : State) : Nat := match s.boot with | some b => b.pkg | none => 0
def State.nPkgs (s : State) : Nat := match s.boot with | some b => b.nPackages | none => 1
def State.nLinks (s : State) : Nat := match s.boot with | some b => b.nLinks | none => 1
/-- The rotor period Q. -/
def State.rotor (s : State) : Nat := ceilDiv s.nPkgs (max 1 s.nLinks)

/-- Link and phase of the connection to a package. -/
def State.connLink (s : State) (pkg : Nat) : Nat × Nat :=
  let d := (pkg + s.nPkgs - s.myPkg) % max 1 s.nPkgs
  (d / max 1 s.rotor, d % max 1 s.rotor)

/-- The die of this basin. -/
def State.die (s : State) : Nat := s.basinId / 2

/-- The port of this die that drives a link. -/
def State.portOfLink (s : State) (j : Nat) : Option (Fin 9) := if j / 9 = s.die then some (Fin.ofNat 9 j) else none

/-- The link of the connection to a rank of another package (R347). -/
def State.linkTo (s : State) (rank : Nat) : Option Nat :=
  match s.pkgOf rank with
  | none => none
  | some p => if p = s.myPkg then none else some (s.connLink p).1

/-- The port toward a rank of another package, when it is on this die. -/
def State.portTo (s : State) (rank : Nat) : Option (Fin 9) := (s.linkTo rank).bind s.portOfLink

/-! ## Streams (R344) -/

abbrev streamKind (e : Word) : Nat := bits e.toNat 61 3
abbrev streamPeer (e : Word) : Nat := bits e.toNat 48 13
abbrev streamCtx (e : Word) : Nat := bits e.toNat 40 4
abbrev streamRoff (e : Word) : Nat := bits e.toNat 20 20

/-- The ports of this die with a remote-operation stream to a rank (R351). -/
def State.streamTo (s : State) (rank : Nat) : List (Fin 9) :=
  (List.finRange 9).filter fun p => s.ports[p].streams.any fun e => streamKind e.2 == 2 && streamPeer e.2 == rank

/-- The link of a port. -/
def State.linkOf (s : State) (p : Fin 9) : Nat := 9 * s.die + p.val

/-- The links that can carry requests and control to a rank of another package: that of the connection, and those of streams. -/
def State.linksTo (s : State) (rank : Nat) : List Nat :=
  match s.linkTo rank with
  | some j => j :: (s.streamTo rank).map s.linkOf
  | none => []

/-- A link is down: one of this die is OFF or FAILED, one of another die has not been reported up. -/
def State.linkDown (s : State) (j : Nat) : Bool :=
  match s.portOfLink j with
  | some p => s.ports[p].link == .off || s.ports[p].link == .failed
  | none => !s.farUp.contains j

/-- The rank is in the reach and the path to it is not down (Table 11-3 code 9). -/
def State.reachable (s : State) (rank : Nat) : Bool :=
  (s.pkgOf rank).isSome && ((s.linksTo rank).isEmpty || (s.linksTo rank).any fun j => !s.linkDown j)

/-! ## Flits (Table 12-3) -/

/-- The operation code of a request. -/
def OpKind.code : OpKind → Nat
  | .put => 0
  | .get => 1
  | .acc op tagged => if tagged then 18 + op else 2 + op
  | .amo op fut => if fut then 17 else 9 + op
  | .compl => 1
  | .fence _ => 2
  | .lock ex => if ex then 5 else 4
  | .unlock => 7
  | _ => 0

/-- A reserved kind or op (Table 12-3). -/
def flitReserved (f : Flit) : Bool :=
  match f.kind.toNat with
  | 1 => decide (25 ≤ f.op.toNat)
  | 2 => decide (4 ≤ f.op.toNat)
  | 3 => decide (8 ≤ f.op.toNat)
  | 6 => decide (7 ≤ f.op.toNat)
  | 7 => decide (4 ≤ f.op.toNat)
  | _ => f.op != 0

/-- What happens when a flit arrives at its basin; none for a reserved kind or op. -/
def flitArrival (f : Flit) : Option Instr :=
  if f.part.isSome then some .towpathPartial
  else match f.kind.toNat, f.op.toNat with
  | 1, 0 => some .putRequest
  | 1, 1 => some .getRequest
  | 1, 17 => some .futureFill
  | 1, n => if n < 9 then some .accumulateRequest else if n < 17 then some .atomicRequest else if n < 25 then some .taggedAccumulate else none
  | 2, 0 => some .getData
  | 2, 1 => some .atomicOldValue
  | 2, 2 => some .notices
  | 2, 3 => some .acknowledgementOnly
  | 3, 0 => some .post
  | 3, 1 => some .completion
  | 3, 2 => some .fenceArrival
  | 3, 3 => some .fenceDone
  | 3, 4 => some .lockRequest
  | 3, 5 => some .lockRequest
  | 3, 6 => some .grant
  | 3, 7 => some .release
  | _, _ => none

/-- A flit arrives at this basin's port at a cycle. -/
def State.arriveAt (s : State) (cyc : Nat) (f : Flit) : State :=
  match flitArrival f with
  | some i => s.plan cyc (ordPort f.src.toNat) i { EvArg.none with flit := f }
  | none => s.event srcPort 0 evOther 0

/-- A flit enters its queue (R324), at its fabric port at a cycle. -/
def State.queueAt (s : State) (at_ : Nat) (f : Flit) : State :=
  let q : Queued := { at_ := at_, no := s.nextId, flit := f }
  let s := { s with nextId := s.nextId + 1 }
  match f.kind.toNat with
  | 2 => { s with repQ := s.repQ ++ [q] }
  | 3 => { s with ctlQ := s.ctlQ ++ [q] }
  | _ => { s with reqQ := s.reqQ ++ [q] }

/-- A flit leaves for another agent. -/
def State.leave (s : State) (f : Flit) : State := { s with outbox := s.outbox ++ [(s.now, f)] }

/-- How many of a flit's data granules the host port passes on: those of a put or an accumulate, the operands of an atomic, a get's data
(wherever they lie in a granule at the host), an atomic's old value. -/
def hostGrans (f : Flit) : Nat :=
  match f.kind.toNat, f.op.toNat with
  | 1, 1 => 0
  | 1, op => if op < 9 ∨ 18 ≤ op then (f.offset.toNat % 8 + f.count.toNat + 8) / 8 else if op = 16 then 2 else 1
  | 2, 0 => (f.count.toNat + 15) / 8
  | 2, 1 => 1
  | _, _ => 0

/-- Where a granule that leaves for the host goes: a byte of a window of the host, or granule `j` of a reply to one of its operations. -/
def hostPlace (f : Flit) (j : Nat) : Nat :=
  if f.kind = 2 then 2 ^ 48 + f.opn.toNat * 2 ^ 8 + j else f.offset.toNat / 8 * 8 + 8 * j + f.win.toNat * 2 ^ 40

/-- The host port checks each granule that goes to host memory, with a poisoned status and an event for a bad one (R77, R465). -/
def State.toHost (s : State) (f : Flit) : State :=
  ((List.range (min 32 (hostGrans f))).foldl (fun (s : State) j =>
    let v := f.data.gran j
    let s := if v.bad then s.event srcHost 0 evRind (rindDetail inHost (hostPlace f j)) else s
    { s with host := { s.host with writes := s.host.writes ++ [(hostPlace f j, v, v.bad)] } }) s).leave f

/-- A flit leaves this basin's port (R347, R350): back to it, to the host, to the queue of a port of this die, or to another basin or die. -/
def State.sendFlit (s : State) (f : Flit) : State :=
  let dst := f.dst.toNat
  if dst = s.rank then s.arriveAt (s.now + 4) f
  else if s.hostRank? = some dst then s.toHost f
  else if (s.portTo dst).isSome || (f.kind != 2 && !(s.streamTo dst).isEmpty) then s.queueAt (s.now + 4) f
  else s.leave f

/-- What the host port brings in has fresh rinds (R77). -/
def State.brought (s : State) (f : Flit) : Flit :=
  if s.hostRank? = some f.src.toNat then { f with data := Reg.fresh 32 f.data.d.toNat } else f

/-- A notice record (R338). -/
def noticeRecord (rank opn lvl code : Nat) : Nat := code * 2 ^ 48 + lvl * 2 ^ 53 + opn * 2 ^ 55 + rank * 2 ^ 69

/-- A notices reply of one record. -/
def State.noticeFlit (s : State) (rank opn lvl code : Nat) : Flit :=
  { Flit.void with kind := 2, op := 2, src := BitVec.ofNat 13 s.rank, dst := BitVec.ofNat 13 rank, count := 15,
                   data := Reg.fresh 32 (noticeRecord rank opn lvl code) }

/-- A notice departs in the next cycle: level 0 accepted, 1 visible, 2 failed (R322). -/
def State.notify (s : State) (rank opn lvl code : Nat) : State :=
  s.schedule (s.now + 1) (ordPort s.rank) (.send (s.noticeFlit rank opn lvl code))

/-- A control flit. -/
def State.controlFlit (s : State) (op rank win opn : Nat) (tile : Tid) : Flit :=
  { Flit.void with kind := 3, op := BitVec.ofNat 5 op, src := BitVec.ofNat 13 s.rank, dst := BitVec.ofNat 13 rank, win := BitVec.ofNat 8 win,
                   tag := BitVec.ofNat 16 tile.val, opn := BitVec.ofNat 14 opn, last := true, tile := tile }

/-! ## Handles (R321 to R323) -/

def Tile.handle (x : Tile) (h : Nat) : Handle := x.handles.get .zero h

def State.modHandle (s : State) (t : Tid) (h : Nat) (f : Handle → Handle) : State :=
  s.modTile t fun x => { x with handles := x.handles.modify .zero h f }

/-- Settled at a level: local, accepted, visible (R323). -/
def Handle.settled (h : Handle) (lvl : Nat) : Bool :=
  match lvl with
  | 0 => h.loc == h.iss
  | 1 => h.acc + h.fail == h.iss
  | _ => h.vis + h.fail == h.iss

/-- Some operation has failed, or returned code 8. -/
def Handle.failed (h : Handle) : Bool := h.fail != 0 || h.ferr != 0

/-- The first error code since `HINIT`, with its index. -/
def Handle.error (h : Handle) (idx : BitVec 32) (code : Nat) : Handle :=
  if h.ferr = 0 then { h with ferr := BitVec.ofNat 5 code, fidx := idx } else h

/-- What a level adds to the counts; a visible operation has been accepted. -/
def Handle.reach (h : Handle) (o : OpRec) (lvl : Nat) : Handle :=
  match lvl with
  | 0 => { h with loc := h.loc + 1 }
  | 1 => { h with acc := h.acc + 1 }
  | _ =>
    let h := { h with acc := if o.acc then h.acc else h.acc + 1, vis := h.vis + 1 }
    if o.poisoned then { h.error o.idx 8 with psn := true } else h

/-- What a failure does to the counts (R322). -/
def Handle.fails (h : Handle) (o : OpRec) (code : Nat) : Handle :=
  ({ h with fail := h.fail + 1, acc := if o.acc then h.acc - 1 else h.acc, loc := if o.loc then h.loc else h.loc + 1 } : Handle).error o.idx code

def OpRec.reach (o : OpRec) (lvl : Nat) : OpRec :=
  match lvl with
  | 0 => { o with loc := true }
  | 1 => { o with acc := true }
  | _ => { o with acc := true, vis := true }

def OpRec.has (o : OpRec) (lvl : Nat) : Bool := match lvl with | 0 => o.loc | 1 => o.acc | _ => o.vis

/-- Nothing more can happen to the operation. -/
def OpRec.finished (o : OpRec) : Bool := o.loc && (o.vis || o.failed)

def State.op? (s : State) (seq : Nat) : Option OpRec := s.ops.find? fun o => o.seq == seq

def State.modOp (s : State) (seq : Nat) (f : OpRec → OpRec) : State :=
  { s with ops := (s.ops.map fun o => if o.seq = seq then f o else o).filter fun o => !o.finished }

/-- An operation counts at a level; one whose tile is suspended does so in its cask, 16 cycles later (R444). -/
def State.opLevel (s : State) (seq lvl : Nat) : State :=
  match s.op? seq with
  | none => s
  | some o =>
    if o.failed || o.has lvl then s
    else match o.cask with
      | some _ => s.plan (s.now + 16) (ordPort s.rank) .caskNoticeLanding { EvArg.none with n := seq, m := lvl, flag := true }
      | none => (s.modHandle o.tile o.h fun h => h.reach o lvl).modOp seq fun o => o.reach lvl

/-- Landing rows that will not be written. -/
def State.dropLanding (s : State) (o : OpRec) : State :=
  if o.kind = .get ∧ !o.glob then s.modTile o.tile fun x => x.subPend o.ret else s

/-- An operation fails with a code (R322): what it still waits for in the port is given up. -/
def State.opFail (s : State) (seq code : Nat) : State :=
  match s.op? seq with
  | none => s
  | some o =>
    if o.failed || o.vis then s
    else
      let drop := fun (s : State) => { s with
        combine := s.combine.filter fun c => c.1 != seq,
        ops := s.ops.map fun (q : OpRec) => if q.leader = seq ∧ !q.sent then { q with leader := q.seq } else q }
      match o.cask with
      | some _ => (drop s).plan (s.now + 16) (ordPort s.rank) .caskNoticeLanding
          { EvArg.none with n := seq, m := 3, flag := false, code := BitVec.ofNat 5 code }
      | none => (((drop s).dropLanding o).modHandle o.tile o.h fun h => h.fails o code).modOp seq fun o =>
          { o with failed := true, loc := true, ret := [] }

/-! ## The port's queues (R53, R314, R324) -/

/-- Operations that leave as flits. -/
def OpKind.travels : OpKind → Bool
  | .start => false
  | .post => false
  | .done => false
  | .coll => false
  | _ => true

/-- Whole elements of `w` bytes, as many as 32 receiving granules take, until the run of `len` bytes ends. -/
def cutRun (w r len : Nat) : Nat → Nat → List (Nat × Nat)
  | 0, _ => []
  | k + 1, p =>
    if len ≤ p then []
    else
      let n := min (len - p) ((256 - (r + p) % 8) / w * w)
      (p, n) :: cutRun w r len k (p + n)

/-- Bytes of an operation by flit: where each starts and how many it carries. -/
def flitChunks (w r len : Nat) : List (Nat × Nat) := cutRun (max 1 w) r len (len / 248 + 1) 0

/-- Offset and count of a flit. Bytes past 2^36 have no offset on the wire: the flit names bytes that no window holds (log entry 14). -/
def flitSpan (off n : Nat) : BitVec 36 × BitVec 8 :=
  if off < 2 ^ 36 then (BitVec.ofNat 36 off, BitVec.ofNat 8 (n - 1)) else (BitVec.ofNat 36 (2 ^ 36 - 1), 255)

/-- A source of flit granules: receiving address, sending address, length, and the granules that were read by sending granule. -/
structure Piece where
  r : Nat
  a : Nat
  len : Nat
  got : SMap Gran
deriving DecidableEq, Repr

def Piece.meets (p : Piece) (g : Nat) : Bool := decide (8 * g < p.r + p.len) && decide (p.r < 8 * g + 8)

/-- Receiving granule `g` as it is sent (R328): carried whole when the two addresses agree modulo 8, else gathered; the second result
tells that a gathering lane met a bad granule. -/
def sendGran (ps : List Piece) (g : Nat) : Gran × Bool :=
  let gather := fun (l : List Piece) =>
    let bs := (List.range 8).map fun k =>
      match l.find? fun p => p.r ≤ 8 * g + k && 8 * g + k < p.r + p.len with
      | none => (0, Gran.zero)
      | some p =>
        let b := p.a + (8 * g + k - p.r)
        let x := p.got.get Gran.zero (b / 8)
        (bits x.d.toNat (8 * (b % 8)) 8, x)
    let bad := bs.any fun b => b.2.bad
    let d : Word := BitVec.ofNat 64 (packNat 8 (bs.map (·.1)))
    (⟨d, rindOf bad d⟩, bad)
  match ps.filter fun p => p.meets g with
  | [p] => if p.r % 8 = p.a % 8 then (p.got.get Gran.zero ((8 * g + p.a - p.r) / 8), false) else gather [p]
  | l => gather l

/-- Data of a flit that carries receiving bytes `r` to `r + n - 1`, and the receiving granules whose gathering met a bad one. -/
def flitData (ps : List Piece) (r n : Nat) : Reg 32 × List Nat :=
  let l := (List.range ((r % 8 + n + 7) / 8)).map fun j => (r / 8 + j, sendGran ps (r / 8 + j))
  (Reg.ofGrans 32 (l.map (·.2.1) ++ List.replicate (32 - l.length) .zero), (l.filter (·.2.2)).map (·.1))

def OpRec.piece (o : OpRec) : Piece := { r := o.off, a := o.laddr, len := o.len, got := o.got }

/-- The operations that a first member carries (R58), itself first. -/
def State.members (s : State) (o : OpRec) : List OpRec := s.ops.filter fun p => p.leader == o.seq && !p.failed

/-- The flits of an operation, and the granules whose gathering met a bad one, as window bytes. A get's request tells in its first granule how its
landing lies in a granule (log entry 14). -/
def State.opFlits (s : State) (o : OpRec) : List Flit × List Nat :=
  let base : Flit :=
    { Flit.void with kind := 1, op := BitVec.ofNat 5 o.kind.code, type := BitVec.ofNat 5 o.type, src := BitVec.ofNat 13 s.rank,
                     dst := BitVec.ofNat 13 o.rank, win := BitVec.ofNat 8 o.win, tag := BitVec.ofNat 16 o.tag, opn := BitVec.ofNat 14 o.opn,
                     tile := o.lockTile }
  let base := if o.kind.remote then { base with whole := some (o.off, match o.kind with
      | .amo _ _ => tyWidth o.type / 8
      | .get => o.len
      | _ => ((s.members o).map (·.len)).sum) } else base
  let cut := fun (r len : Nat) (data : Nat → Nat → Reg 32 × List Nat) =>
    let cs := flitChunks (tyWidth o.type / 8) r len
    let l := cs.mapIdx fun i c =>
      let d := data (r + c.1) c.2
      let at_ := flitSpan (o.off + c.1) c.2
      ({ base with count := at_.2, offset := at_.1, last := decide (i + 1 = cs.length),
                   data := d.1 }, d.2)
    (l.map (·.1), l.flatMap (·.2))
  match o.kind with
  | .get => cut o.laddr o.len fun r _ => (Reg.fresh 32 (r % 8), [])
  | .amo _ _ =>
    let g := fun j => o.got.get Gran.zero (o.laddr / 8 + j)
    ([{ base with count := 15, offset := (flitSpan o.off 16).1, last := true,
                  data := Reg.ofGrans 32 ([g 0, g 1] ++ List.replicate 30 .zero) }], [])
  | .put | .acc _ _ =>
    let ms := s.members o
    cut o.off (ms.map (·.len)).sum (flitData (ms.map OpRec.piece))
  | k => ([s.controlFlit k.code o.rank o.win o.opn o.lockTile], [])

/-- The link that an operation's flits leave on at once: that of the connection, when another die drives it and no stream of this one leads to
the target. -/
def State.farLink (s : State) (rank : Nat) : List Nat :=
  if (s.portTo rank).isSome || !(s.streamTo rank).isEmpty then [] else (s.linkTo rank).toList

/-- An operation departs. -/
def State.departOp (s : State) (o : OpRec) : State :=
  let fs := s.opFlits o
  let l := s.farLink o.rank
  let s := { s with ops := s.ops.map fun (q : OpRec) => if q.seq = o.seq ∨ q.leader = o.seq then { q with sent := true, links := l } else q }
  let s := s.rindEvents srcPort 0 inWindow (fs.2.map (· + o.win * 2 ^ 37))
  fs.1.foldl (fun s f => s.sendFlit f) s

def State.departAll (s : State) : List OpRec → State
  | [] => s
  | o :: l => if o.entered.isSome && !o.held && !o.chambered then (s.departOp o).departAll l else s

/-- The operations to a rank depart in issue order: one that is held, or in the chamber queue, holds back those after it (R53, R324). -/
def State.depart (s : State) (rank : Nat) : State :=
  s.departAll (s.ops.filter fun o => o.rank == rank && o.kind.travels && !o.sent && !o.failed && o.leader == o.seq)

/-- A flit of an operation that waits in the request queue. -/
def Queued.isOf (q : Queued) (rank : Nat) (o : OpRec) : Bool :=
  q.flit.kind == 1 && q.flit.src.toNat == rank && q.flit.opn.toNat == o.opn && q.flit.part.isNone

/-- The first member of a combination still waits in the port: before its departure, or in the queue of its slot (R58). -/
def State.inPort (s : State) (o : OpRec) : Bool :=
  !o.failed && (!o.sent || s.reqQ.any fun q => q.isOf s.rank o && q.flit.offset == (flitSpan o.off 1).1)

/-- The flits of a combination that waits in the queue are made anew, in its place, when a put joins it; what it gathers is new from granule
`g`. -/
def State.requeue (s : State) (o : OpRec) (g : Nat) : State :=
  match s.reqQ.find? fun q => q.isOf s.rank o with
  | none => s
  | some q =>
    let fs := s.opFlits o
    { s.rindEvents srcPort 0 inWindow ((fs.2.filter fun b => decide (g ≤ b)).map (· + o.win * 2 ^ 37)) with
      reqQ := s.reqQ.flatMap fun d =>
        if d = q then fs.1.map fun f => { q with flit := f } else if d.isOf s.rank o then [] else [d] }

/-- A put may take its place beside a combination's first member: it was issued behind every member, and no other operation to the target was
issued between them (R53, R58). -/
def State.joins (s : State) (o l : OpRec) : Bool :=
  decide (l.seq < o.seq) && s.ops.all fun p =>
    p.rank != o.rank || !p.kind.travels || p.failed || p.seq == o.seq || decide (p.seq < l.seq) ||
      (if p.leader = l.seq then decide (p.seq < o.seq) else decide (o.seq < p.seq))

/-- A put joins an open combination of its type, whose flits have one type field, or opens one; any other operation to the target closes them
(R58, log entry 20). -/
def State.combineAt (s : State) (o : OpRec) : State :=
  let s := { s with combine := s.combine.filter fun c => match s.op? c.1 with | some l => s.inPort l | none => false }
  let mine := fun (c : Nat × Nat × Nat × Bool) => match s.op? c.1 with
    | some l => l.rank == o.rank
    | none => false
  let fits := s.combine.find? fun c => mine c && c.2.2.2 && o.kind == .put && decide (o.len < 256) && c.2.2.1 == o.off &&
    decide (s.now ≤ c.2.1 + 16) && (match s.op? c.1 with | some l => l.win == o.win && l.type == o.type && s.joins o l | none => false)
  match fits with
  | some c =>
    let s := { s with combine := s.combine.map fun d => if d == c then (d.1, d.2.1, d.2.2.1 + o.len, d.2.2.2) else d }
    (match s.op? c.1 with
     | none => s
     | some l => (s.modOp o.seq fun q => { q with leader := c.1, sent := l.sent, links := l.links }).requeue l (o.off / 8))
  | none =>
    { s with combine := (s.combine.map fun c => if mine c then (c.1, c.2.1, c.2.2.1, false) else c) ++
        (if o.kind = .put then [(o.seq, s.now, o.off + o.len, true)] else []) }

/-- An operation enters the port (R350), behind what an acquire of its tile before it waits for (R57). -/
def State.opEnter (s : State) (seq : Nat) : State :=
  match s.op? seq with
  | none => s
  | some o =>
    if o.failed then s
    else if s.acquiring o.tile o.iss then s.schedule (s.now + 1) (ordPort s.rank) (.opEnter seq)
    else
      let s := s.combineAt o
      let s := s.modOp seq fun q => { q with entered := some s.now }
      s.depart o.rank

/-! ## Source rows (R328) -/

/-- The physical granule of a granule in the operation's pages. -/
def OpRec.phys (o : OpRec) (g : Nat) : Nat := (o.pages.get 0 (g / 8192) + 8 * (g % 8192)) / 8

/-- The next source row of an operation is read, when its port is free. -/
def State.opSrc (s : State) (seq : Nat) : State :=
  match s.op? seq with
  | none => s
  | some o =>
    match o.failed, o.srcLeft with
    | false, row :: l =>
      let x := s.tileAt o.tile
      if !o.glob && s.padReadTaken o.tile (row / 128) then
        (s.modTile o.tile fun x => x.raiseBcol).schedule (s.now + 1) ordRemoteRead (.opSrc seq)
      else
        let rd := fun g => if o.glob then s.memGran (some o.tile) (o.phys g) else x.pad.gran g
        let want := (List.range 32).filter fun j => o.laddr / 8 ≤ 32 * row + j && 32 * row + j ≤ (o.laddr + o.len - 1) / 8
        let got := want.foldl (fun (m : SMap Gran) j => m.set .zero (32 * row + j) (rd (32 * row + j))) o.got
        let s := s.modOp seq fun q => { q with got := got, srcLeft := l }
        let s := if o.glob then s else s.modTile o.tile fun x => { x with resv := x.resv ++ [(s.now, row / 128, 1)] }
        match l with
        | [] => (s.opLevel seq 0).schedule (s.now + 1) (ordPort s.rank) (.opEnter seq)
        | _ => s.schedule (s.now + 1) ordRemoteRead (.opSrc seq)
    | _, _ => s

/-! ## What comes back (R328, R329, R338) -/

/-- A row of a reply is written at the origin, when its port is free. -/
def State.landRow (s : State) (seq row : Nat) (ws : List GWrite) : State :=
  match s.op? seq with
  | none => s
  | some o =>
    if o.failed || !o.ret.contains row then s
    else if !o.glob && s.padTaken o.tile (row / 128) then
      (s.modTile o.tile fun x => x.raiseBcol).schedule (s.now + 1) (ordRemoteWrite o.tile) (.landRow seq row ws)
    else
      let s := if o.glob then s.memWrites (if o.cask.isSome then none else some o.tile) ws
        else (s.padPut o.tile ws).modTile o.tile fun x =>
          { (if o.kind = .get then x.subPend [row] else x) with resv := x.resv ++ [(s.now, row / 128, 2)] }
      let s := s.modOp seq fun q => { q with ret := q.ret.erase row }
      if o.ret = [row] then s.opLevel seq 2 else s

/-- The operation of a number that a reply names. -/
def State.opOf (s : State) (opn : Nat) : Option OpRec := s.ops.find? fun o => o.opn == opn && o.sent && !o.failed

/-- Bytes `a` to `a + n - 1` out of receiving granules. -/
def landWrites (a n : Nat) (data : Reg 32) : List GWrite :=
  (List.range ((a % 8 + n + 7) / 8)).map fun j =>
    let g := a / 8 + j
    let m := ((List.range 8).filter fun k => a ≤ 8 * g + k && 8 * g + k < a + n).foldl (fun m k => m + 2 ^ k) 0
    let x := data.gran j
    { g := g, d := x.d, r := x.r, bad := x.bad, mask := BitVec.ofNat 8 m }

/-- GET_DATA (R328). -/
def execGetData (s : State) : Host.Outcome State Fault Refusal :=
  let f := s.brought s.arg.flit
  match s.opOf f.opn.toNat with
  | none => .next s
  | some o =>
    let a := o.laddr + (f.offset.toNat - o.off)
    let ws := landWrites a (f.count.toNat + 1) f.data
    .next ((runRows a (f.count.toNat + 1)).foldl (fun s row =>
      let l := ws.filter fun w => w.g / 32 == row
      s.landRow o.seq row (if o.glob then l.map fun w => { w with g := o.phys w.g } else l)) s)

/-- ATOMIC_OLD_VALUE (R329). -/
def execAtomicOldValue (s : State) : Host.Outcome State Fault Refusal :=
  let f := s.brought s.arg.flit
  match s.opOf f.opn.toNat with
  | none => .next s
  | some o => .next (s.landRow o.seq (rowOf o.laddr) (gwCarry (o.laddr / 8 + 1) (Reg.ofGrans 1 [f.data.gran 0]) 0xFF))

/-- One notice record. A get or an atomic is visible when its data are written, not before (Table 11-6). -/
def State.notice (s : State) (r : Nat) : State :=
  if bits r 69 13 ≠ s.rank then s
  else match s.opOf (bits r 55 14) with
    | none => s
    | some o =>
      let code := bits r 48 5
      (s.members o).foldl (fun s m =>
        if bits r 53 2 = 2 then s.opFail m.seq code
        else
          let s := if code = 8 then s.modOp m.seq fun q => { q with poisoned := true } else s
          let byData := bits r 53 2 = 1 && (match m.kind with | .amo _ _ => true | .get => true | _ => false)
          if byData then s else s.opLevel m.seq (1 + bits r 53 2)) s

/-- NOTICES (R338). -/
def execNotices (s : State) : Host.Outcome State Fault Refusal :=
  let f := s.arg.flit
  .next ((List.range ((f.count.toNat + 1) / 16)).foldl (fun s k => s.notice (bits f.data.d.toNat (128 * k) 128)) s)

/-- The chambered operations of an access record (R314). -/
def State.chamberOf (s : State) (r : AccRec) : List OpRec :=
  let end_ := (s.accRecs.filter fun q => q.rank == r.rank && q.win == r.win && decide (r.opn < q.opn)).map (·.opn)
  s.ops.filter fun o => o.chambered && o.rank == r.rank && o.win == r.win && decide (r.opn < o.seq) && end_.all (fun e => decide (o.seq < e))

/-- POST (R314): the oldest STARTED record opens and its chamber queue is released, or the notice is kept. -/
def execPost (s : State) : Host.Outcome State Fault Refusal :=
  let f := s.arg.flit
  match s.accRecs.find? fun r => r.rank == f.src.toNat && r.win == f.win.toNat && !r.open_ with
  | none => .next { s with posts := s.posts ++ [(f.src.toNat, f.win.toNat)] }
  | some r =>
    let ids := (s.chamberOf r).map (·.seq)
    let s := { s with
      accRecs := s.accRecs.map fun q => if q == r then { q with open_ := true } else q,
      ops := s.ops.map fun (o : OpRec) => if ids.contains o.seq then { o with chambered := false } else o }
    .next ((s.opLevel r.opn 2).depart r.rank)

/-- CHAMBER_QUEUE_TIMEOUT (R315). -/
def execChamberQueueTimeout (s : State) : Host.Outcome State Fault Refusal :=
  match s.accRecs.find? fun r => r.rank == s.arg.n && r.win == s.arg.m && !r.open_ && decide (r.at_ + 16777216 ≤ s.now) with
  | none => .next s
  | some r =>
    let ids := (s.chamberOf r).map (·.seq)
    let s := { s with accRecs := s.accRecs.filter fun q => q != r }
    .next (((r.opn :: ids).foldl (fun s i => s.opFail i 10) s).depart r.rank)

/-- FENCE_DONE (R316): the origin's `WFENCE` is visible. -/
def execFenceDone (s : State) : Host.Outcome State Fault Refusal :=
  match s.opOf s.arg.flit.opn.toNat with
  | none => .next s
  | some o => .next (s.opLevel o.seq 2)

/-- GRANT (R317). -/
def execGrant (s : State) : Host.Outcome State Fault Refusal :=
  match s.opOf s.arg.flit.opn.toNat with
  | none => .next s
  | some o =>
    let s := match o.kind, o.cask with
      | .lock ex, none => { s with locks := s.locks ++ ([⟨o.rank, o.win, o.tile, o.lockTile, ex⟩] : List LockHeld) }
      | _, _ => s
    .next (s.opLevel o.seq 2)

/-! ## Held control operations (R56, R314, R316, R317) -/

/-- An earlier remote operation to the window, or under the tile's lock, is not visible. -/
def State.earlierOut (s : State) (o : OpRec) : Bool :=
  s.ops.any fun p => p.kind.remote && decide (p.seq < o.seq) && p.rank == o.rank && p.win == o.win && !p.vis && !p.failed &&
    (o.kind != .unlock || p.lockTile == o.lockTile)

/-- A held operation may depart. -/
def State.mayDepart (s : State) (o : OpRec) : Bool :=
  o.held && o.entered.isSome && !o.failed && !s.earlierOut o &&
    (o.kind != .compl || !(s.accRecs.any fun r => r.rank == o.rank && r.win == o.win && r.closing && !r.open_))

/-- The first held operation that may depart. -/
def State.heldReady (s : State) : Option OpRec := s.ops.find? fun o => s.mayDepart o

/-- A held operation is let go; a completion closes its access record. -/
def State.letGo (s : State) (seq : Nat) : State :=
  match s.op? seq with
  | none => s
  | some o =>
    if !s.mayDepart o then s
    else
      let s := if o.kind = .compl then
          (match s.accRecs.find? fun r => r.rank == o.rank && r.win == o.win && r.closing with
           | some r => { s with accRecs := s.accRecs.erase r }
           | none => s)
        else s
      (s.modOp seq fun q => { q with held := false }).depart o.rank

/-- COMPLETION_NOTICE_SEND (R314). -/
def execCompletionNoticeSend (s : State) : Host.Outcome State Fault Refusal := .next (s.letGo s.arg.n)

/-- FENCE_ARRIVAL_SEND (R316). -/
def execFenceArrivalSend (s : State) : Host.Outcome State Fault Refusal := .next (s.letGo s.arg.n)

/-- RELEASE_SEND (R317). -/
def execReleaseSend (s : State) : Host.Outcome State Fault Refusal := .next (s.letGo s.arg.n)

end Sys2Proof.Machine
end

