-- ==== Sys2Proof/Machine/Port.lean ====
section
/-! DEFINITION. The target port: the check of every flit (R311), the window states (R313), what admitted flits do (R318, R319, R329),
pairwise exposure, fences and locks (R314, R316, R317), and how an entry is made and freed (R320, R326, R327). -/

namespace Sys2Proof.Machine

open Check

/-! ## Window entries (R309, Table 11-1) -/

def WEntry.lo (e : WEntry) : Nat := bits e.desc.toNat 128 13
def WEntry.hi (e : WEntry) : Nat := bits e.desc.toNat 144 13
def WEntry.mode (e : WEntry) : Nat := bits e.desc.toNat 112 2
def WEntry.length (e : WEntry) : Nat := bits e.desc.toNat 64 40
def WEntry.base (e : WEntry) : Nat := bits e.desc.toNat 0 64
def WEntry.inGroup (e : WEntry) (rank : Nat) : Bool := decide (e.lo ≤ rank) && decide (rank ≤ e.hi)
def WEntry.ranks (e : WEntry) : List Nat := (List.range (e.hi + 1 - e.lo)).map (· + e.lo)

/-- Every origin of the group has completed. -/
def WEntry.allDone (e : WEntry) : Bool := e.ranks.all fun r => e.bitmap.contains r

/-- A window entry that is not being freed (R320). -/
def State.window (s : State) (win : Nat) : Option WEntry :=
  match s.windows.get none win with
  | some e => if e.freeing.isSome then none else some e
  | none => none

def State.modWindow (s : State) (win : Nat) (f : WEntry → WEntry) : State :=
  match s.windows.get none win with
  | none => s
  | some e => { s with windows := s.windows.set none win (some (f e)) }

/-- Step 3 of R311 (Table 11-2). -/
def WEntry.admits (e : WEntry) (rank tile : Nat) : Bool :=
  match e.st with
  | .closed => false
  | .fenceOpen => true
  | .posted => !e.bitmap.contains rank
  | .passive => e.holders.any fun l => l.rank == rank && l.tile == tile

/-! ## The check (R311) -/

abbrev rightGet := 114
abbrev rightPut := 115
abbrev rightAcc := 116
abbrev rightAmo := 117
abbrev bitDedup := 118

/-- The window of an incoming request, or the code of the first check that fails; `n` is its length in bytes. Offset and length are those of
its operation (Flit.whole), so that an operation is never in part out of range. -/
def State.portCheck (s : State) (f : Flit) (right n : Nat) : Except Nat WEntry :=
  let w := max 1 (tyWidth f.type.toNat / 8)
  let off := (f.whole.getD (f.offset.toNat, n)).1
  let len := (f.whole.getD (f.offset.toNat, n)).2
  match s.window f.win.toNat with
  | none => .error 1
  | some e =>
    if !e.inGroup f.src.toNat then .error 4
    else if !e.admits f.src.toNat f.tile.val then .error 1
    else if !bit e.desc.toNat right then .error 3
    else if e.length < off + len ∨ e.length < f.offset.toNat + n ∨ off % w ≠ 0 ∨ len % w ≠ 0 then .error 2
    else .ok e

/-- The operation of a request flit: its origin and its number there. -/
def flitOp (f : Flit) : Nat × Nat := (f.src.toNat, f.opn.toNat)

/-- A flit of the operation has been rejected: it gets no acknowledgement (R54). -/
def State.failedHere (s : State) (f : Flit) : Bool := s.rejected.contains (flitOp f)

/-- Nothing of an operation that failed here is left. -/
def State.forget (s : State) (op : Nat × Nat) : State :=
  { s with rejected := s.rejected.filter fun p => p != op, poisoned := s.poisoned.filter fun p => p != op }

/-- With its last flit an operation of which one was rejected is done when that one has performed. -/
def State.endRejected (s : State) (f : Flit) : State :=
  if f.last && s.failedHere f then s.schedule (s.now + 17) (ordPort s.rank) (.forget f.src.toNat f.opn.toNat) else s

/-- A rejected flit: counted, logged, and answered with its code. -/
def State.reject (s : State) (f : Flit) (code : Nat) : State :=
  let s := { s with rejected := if s.failedHere f then s.rejected else flitOp f :: s.rejected }
  (((s.modWindow f.win.toNat fun e => { e with rej := e.rej + 1 }).event srcPort 0 evReject
    (f.win.toNat + code * 2 ^ 8 + f.src.toNat * 2 ^ 16 + f.opn.toNat * 2 ^ 32)).notify f.src.toNat f.opn.toNat 2 code).endRejected f

/-- An operation of the same origin that is not a read performs in the cycle of a flit that arrives now. -/
def State.followsWrite (s : State) (f : Flit) : Bool :=
  s.agenda.any fun e => e.at_ == s.now + 16 && (match e.ev with
    | .event .remoteApply a => a.flit.src == f.src && a.flit.op != 1
    | _ => false)

/-- An admitted flit performs 16 cycles after it arrives (R318): a read before the cycle's writes (R38), but not before what its own origin
issued before it (R53). -/
def State.letIn (s : State) (f : Flit) (read : Bool) : State :=
  let s := s.modWindow f.win.toNat fun e => { e with inFlight := e.inFlight + 1 }
  let s := s.plan (s.now + 16) (if read && !s.followsWrite f then ordRead else ordPort f.src.toNat) .remoteApply
    { EvArg.none with flit := s.brought f }
  if f.last && !s.failedHere f then s.notify f.src.toNat f.opn.toNat 0 0 else s.endRejected f

def State.checked (s : State) (f : Flit) (right n : Nat) (read : Bool) : State :=
  match s.portCheck f right n with
  | .error c => s.reject f c
  | .ok _ => s.letIn f read

def flitLen (f : Flit) : Nat := f.count.toNat + 1

/-- PUT_REQUEST (R311). -/
def execPutRequest (s : State) : Host.Outcome State Fault Refusal := .next (s.checked s.arg.flit rightPut (flitLen s.arg.flit) false)

/-- GET_REQUEST (R311). -/
def execGetRequest (s : State) : Host.Outcome State Fault Refusal := .next (s.checked s.arg.flit rightGet (flitLen s.arg.flit) true)

/-- ACCUMULATE_REQUEST (R311, R318). -/
def execAccumulateRequest (s : State) : Host.Outcome State Fault Refusal := .next (s.checked s.arg.flit rightAcc (flitLen s.arg.flit) false)

/-- ATOMIC_REQUEST (R311, R329). -/
def execAtomicRequest (s : State) : Host.Outcome State Fault Refusal :=
  .next (s.checked s.arg.flit rightAmo (tyWidth s.arg.flit.type.toNat / 8) false)

/-- FUTURE_FILL (R329). -/
def execFutureFill (s : State) : Host.Outcome State Fault Refusal :=
  .next (s.checked s.arg.flit rightAmo (tyWidth s.arg.flit.type.toNat / 8) false)

/-- TAGGED_ACCUMULATE (R319): its first flit settles whether it is new. -/
def State.tagged (s : State) (f : Flit) : State :=
  let me := fun (p : Nat × Nat × Nat) => p.1 == f.src.toNat && p.2.1 == f.opn.toNat
  let close := fun (s : State) => if f.last then { s with tagOps := s.tagOps.filter fun p => !me p } else s
  match s.tagOps.find? me with
  | some (_, _, 0) => close (s.checked f rightAcc (flitLen f) false)
  | some _ => close s
  | none =>
    match s.portCheck f rightAcc (flitLen f) with
    | .error c => s.reject f c
    | .ok e =>
      let key := fun (k : Nat × Nat × Nat × Nat) => k.1 == f.win.toNat && k.2.1 == f.src.toNat && k.2.2.1 == f.tag.toNat
      let drop := fun (code : Nat) =>
        close ({ s with tagOps := s.tagOps ++ [(f.src.toNat, f.opn.toNat, code)] } : State) |>.notify f.src.toNat f.opn.toNat 2 code
      if !bit e.desc.toNat bitDedup then s.reject f 3
      else if s.dedup.any key then drop 6
      else if 4096 ≤ s.dedup.length then drop 7
      else
        close (({ s with tagOps := s.tagOps ++ [(f.src.toNat, f.opn.toNat, 0)],
                         dedup := s.dedup ++ [(f.win.toNat, f.src.toNat, f.tag.toNat, f.tile.val)] } : State).letIn f false)

def execTaggedAccumulate (s : State) : Host.Outcome State Fault Refusal := .next (s.tagged s.arg.flit)

/-! ## Admitted flits perform (R318, R328, R329) -/

/-- The physical byte of a window offset: its pages are pinned. -/
def WEntry.phys (e : WEntry) (off : Nat) : Nat :=
  let va := e.base + off
  match e.pages.find? fun p => va / p.size == p.page with
  | some p => p.pa + va % p.size
  | none => va

/-- A put's granules. -/
def State.applyPut (s : State) (e : WEntry) (f : Flit) : State :=
  (landWrites f.offset.toNat (flitLen f) f.data).foldl (fun s w => s.memWrite none { w with g := e.phys (8 * w.g) / 8 }) s

/-- An accumulate's elements, one after another. -/
def State.applyAcc (s : State) (e : WEntry) (f : Flit) : State :=
  let t := f.type.toNat
  let w := tyWidth t / 8
  let op := (f.op.toNat - 2) % 16
  (List.range (flitLen f / w)).foldl (fun s i =>
    let a := f.offset.toNat + i * w
    let g := f.data.gran (a / 8 - f.offset.toNat / 8)
    let pa := e.phys a
    let s := if s.redBad none op pa g.bad then { s with poisoned := (f.src.toNat, f.opn.toNat) :: s.poisoned } else s
    s.memReduce none op t pa (bits g.d.toNat (8 * (a % 8)) (8 * w)) g.bad) s

/-- A get's reply departs in the next cycle: granules as its landing takes them (R328). -/
def State.applyGet (s : State) (e : WEntry) (f : Flit) : State :=
  let o := f.offset.toNat
  let n := flitLen f
  let q := bits f.data.d.toNat 0 3
  let got := (List.range ((o + n - 1) / 8 - o / 8 + 1)).foldl (fun (m : SMap Gran) j =>
    m.set .zero (o / 8 + j) (s.memGran none (e.phys (8 * (o / 8 + j)) / 8))) []
  let d := flitData [{ r := q, a := o, len := n, got := got }] q n
  let s := s.rindEvents srcPort 0 inWindow (d.2.map fun g => (g - q / 8 + o / 8) + f.win.toNat * 2 ^ 37)
  s.schedule (s.now + 1) (ordPort s.rank) (.send { f with kind := 2, op := 0, src := f.dst, dst := f.src, data := d.1 })

/-- The atomic operators of Table 11-7 as those of R210. -/
def amoCode (op t : Nat) : Nat :=
  match op with
  | 0 => if tyF t then 0x09 else 0x08
  | 1 => 0x0A
  | 2 => 0x0B
  | 3 => 0x0C
  | 4 => 0x0D
  | 5 => 0x0E
  | 6 => 0x0F
  | _ => 0x10

/-- An atomic at the L2: a bad input poisons the result; the old value departs in the next cycle, as R73 gives. -/
def State.applyAmo (s : State) (e : WEntry) (f : Flit) : State :=
  let t := f.type.toNat
  let w := tyWidth t
  let pa := e.phys f.offset.toNat
  let op := amoCode (if f.op = 17 then 6 else f.op.toNat - 9) t
  let g := s.memGran none (pa / 8)
  let v := f.data.gran 0
  let c := f.data.gran 1
  let bad := g.bad || v.bad || (op == 0x10 && c.bad)
  let old := bits g.d.toNat (8 * (pa % 8)) w
  let s := match amoNew op t old (v.d.toNat % 2 ^ w) (c.d.toNat % 2 ^ w) with
    | some new =>
      let k := (2 ^ w - 1) <<< (8 * (pa % 8))
      let d : Word := BitVec.ofNat 64 ((new <<< (8 * (pa % 8))) ||| (g.d.toNat &&& (k ^^^ (2 ^ 64 - 1))))
      s.memWrite none { g := pa / 8, d := d, r := rindOf bad d, bad := bad, mask := 0xFF }
    | none => s
  let s := if bad then (s.event srcPort 0 evRind (rindDetail 0 pa)).notify f.src.toNat f.opn.toNat 1 8 else s
  let r : Gran := if w = 64 then g else let d : Word := BitVec.ofNat 64 old; ⟨d, rindOf g.bad d⟩
  let s := if f.op = 17 then s.addCounter (f.tag.toNat % 4096) 1 false else s
  s.schedule (s.now + 1) (ordPort s.rank) (.send { f with kind := 2, op := 1, src := f.dst, dst := f.src, count := 7,
                                                          data := Reg.ofGrans 32 (r :: List.replicate 31 .zero) })

/-- The visible notice of an operation's last flit, with code 8 when a result was poisoned (R73). -/
def State.visibleNotice (s : State) (f : Flit) : State :=
  if !f.last || s.failedHere f then s
  else
    let k := (f.src.toNat, f.opn.toNat)
    ({ s with poisoned := s.poisoned.filter fun p => p != k } : State).notify k.1 k.2 1 (if s.poisoned.contains k then 8 else 0)

/-- REMOTE_APPLY (R318). -/
def execRemoteApply (s : State) : Host.Outcome State Fault Refusal :=
  let f := s.arg.flit
  match s.windows.get none f.win.toNat with
  | none => .next s
  | some e =>
    let s := s.modWindow f.win.toNat fun e => { e with inFlight := e.inFlight - 1 }
    .next (match f.op.toNat with
      | 0 => (s.applyPut e f).visibleNotice f
      | 1 => s.applyGet e f
      | n => if 9 ≤ n ∧ n < 18 then s.applyAmo e f else (s.applyAcc e f).visibleNotice f)

/-! ## Control operations at the target -/

/-- A control operation that finds its window missing, of another mode or in another state fails (R313). -/
def State.controlFails (s : State) (f : Flit) (code : Nat) : State := s.notify f.src.toNat f.opn.toNat 2 code

/-- The window of a control flit, in a mode that its group may use. -/
def State.controlWindow (s : State) (f : Flit) (mode : Nat) : Except Nat WEntry :=
  match s.window f.win.toNat with
  | none => .error 1
  | some e => if e.mode ≠ mode then .error 1 else if !e.inGroup f.src.toNat && !(mode == 0 && f.src.toNat == s.rank) then .error 4 else .ok e

/-- COMPLETION (R314, Table 11-2). -/
def execCompletion (s : State) : Host.Outcome State Fault Refusal :=
  let f := s.arg.flit
  let win := f.win.toNat
  let log := fun (s : State) => s.event srcPort 0 evOther win
  .next (match s.controlWindow f 1 with
    | .error c => (log s).controlFails f c
    | .ok e =>
      if e.st ≠ .posted then (log s).controlFails f 1
      else
        let e := { e with bitmap := if e.bitmap.contains f.src.toNat then e.bitmap else e.bitmap ++ [f.src.toNat] }
        let s := (s.modWindow win fun _ => e).notify f.src.toNat f.opn.toNat 1 0
        let s := { s with dedup := s.dedup.filter fun k => !(k.1 == win && k.2.1 == f.src.toNat) }
        if e.allDone then s.schedule (s.now + 1) (ordPort s.rank) (.postEnd win) else s)

/-- The exposure ends: `WDONE` completes and the window is CLOSED. -/
def State.postEnd (s : State) (win : Nat) : State :=
  match s.window win with
  | none => s
  | some e =>
    if e.st = .posted ∧ e.allDone then
      e.done.foldl (fun s q => s.opLevel q 2) (s.modWindow win fun e => { e with st := .closed, done := [] })
    else s

/-- Every participant of a fence window has arrived. -/
def State.allArrived (s : State) (e : WEntry) : Bool := (s.rank :: e.ranks).all fun r => e.arrivals.any fun a => a.1 == r

def State.planFence (s : State) (win : Nat) : State :=
  match s.window win with
  | none => s
  | some e =>
    if s.allArrived e && !(s.agenda.any fun x => x.ev == .fenceEnd win) then s.schedule (s.now + 1) (ordPort s.rank) (.fenceEnd win) else s

/-- FENCE_ARRIVAL (R316). -/
def execFenceArrival (s : State) : Host.Outcome State Fault Refusal :=
  let f := s.arg.flit
  .next (match s.controlWindow f 0 with
    | .error c => s.controlFails f c
    | .ok _ =>
      let ns := f.src.toNat == s.rank && (s.ops.any fun o => o.opn == f.opn.toNat && o.kind == .fence true)
      (s.modWindow f.win.toNat fun e => { e with arrivals := e.arrivals ++ [(f.src.toNat, f.opn.toNat, ns)] }).planFence f.win.toNat)

/-- The first arrival of each participant. -/
def firstArrivals (ranks : List Nat) (l : List (Nat × Nat × Bool)) : List (Nat × Nat × Bool) :=
  ranks.filterMap fun r => l.find? fun a => a.1 == r

/-- A fence epoch completes (R316). -/
def State.fenceEnd (s : State) (win : Nat) : State :=
  match s.window win with
  | none => s
  | some e =>
    if !s.allArrived e then s
    else
      let ps := s.rank :: (e.ranks.filter fun r => r != s.rank)
      let now := firstArrivals ps e.arrivals
      let ns := now.any fun a => a.1 == s.rank && a.2.2
      let s := s.modWindow win fun e => { e with
        st := if ns then .closed else .fenceOpen, epoch := e.epoch + 1, arrivals := now.foldl (fun l a => l.erase a) e.arrivals }
      let s := { s with dedup := s.dedup.filter fun k => k.1 != win }
      (now.foldl (fun s a =>
        if a.1 = s.rank then
          (match s.ops.find? fun o => o.opn == a.2.1 && o.sent && !o.failed with
           | some o => s.schedule (s.now + 1) (ordPort s.rank) (.opLevel o.seq 2)
           | none => s)
        else s.sendFlit (s.controlFlit 3 a.1 win a.2.1 0)) s).planFence win

/-- Grants from the head of the FIFO (R317). -/
def grantLocks : List LockReq → List LockReq → List LockReq → List LockReq × List LockReq × List LockReq
  | [], hs, g => ([], hs, g)
  | q :: l, hs, g =>
    if q.ex then (if hs.isEmpty then (l, [q], g ++ [q]) else (q :: l, hs, g))
    else if hs.any (·.ex) then (q :: l, hs, g) else grantLocks l (hs ++ [q]) (g ++ [q])

/-- Grants what can be granted; each grant notice departs in the next cycle. -/
def State.grantAll (s : State) (win : Nat) : State :=
  match s.window win with
  | none => s
  | some e =>
    let r := grantLocks e.fifo e.holders []
    r.2.2.foldl (fun s q => s.schedule (s.now + 1) (ordPort s.rank) (.send (s.controlFlit 6 q.rank win q.opn (tid q.tile))))
      (s.modWindow win fun e => { e with fifo := r.1, holders := r.2.1 })

/-- A request of the same origin and window that arrives in this cycle goes first: its TILEID is lower. -/
def State.lowerRequest (s : State) (f : Flit) : Bool :=
  s.agenda.any fun e => decide (e.at_ ≤ s.now) && (match e.ev with
    | .event .lockRequest a => a.flit.src == f.src && a.flit.win == f.win && decide (a.flit.tile.val < f.tile.val)
    | _ => false)

/-- LOCK_REQUEST (R317). -/
def execLockRequest (s : State) : Host.Outcome State Fault Refusal :=
  let f := s.arg.flit
  let win := f.win.toNat
  .next (if s.lowerRequest f then s.plan s.now (ordPort f.src.toNat) .lockRequest s.arg
    else match s.controlWindow f 2 with
    | .error c => s.controlFails f c
    | .ok e =>
      if 64 ≤ e.fifo.length then s.controlFails f 5
      else
        let q : LockReq := { rank := f.src.toNat, tile := f.tile.val, ex := f.op == 5, opn := f.opn.toNat }
        ((s.modWindow win fun e => { e with fifo := e.fifo ++ [q] }).notify f.src.toNat f.opn.toNat 0 0).grantAll win)

/-- RELEASE (R317). -/
def execRelease (s : State) : Host.Outcome State Fault Refusal :=
  let f := s.arg.flit
  let win := f.win.toNat
  .next (match s.controlWindow f 2 with
    | .error c => s.controlFails f c
    | .ok e =>
      match e.holders.find? fun q => q.rank == f.src.toNat && q.tile == f.tile.val with
      | none => s.controlFails f 1
      | some q =>
        let s := (s.modWindow win fun e => { e with holders := e.holders.erase q }).notify f.src.toNat f.opn.toNat 1 0
        ({ s with dedup := s.dedup.filter fun k => !(k.1 == win && k.2.1 == f.src.toNat && k.2.2.2 == f.tile.val) } : State).grantAll win)

/-! ## The basin's own port (R314, R326, R327, R331) -/

/-- `WPOST` takes effect (R314). -/
def State.wpost (s : State) (seq : Nat) : State :=
  match s.op? seq with
  | none => s
  | some o =>
    match s.window o.win with
    | none => s.opFail seq 1
    | some e =>
      if e.mode ≠ 1 ∨ e.st = .posted then s.opFail seq 1
      else
        let s := s.modWindow o.win fun e => { e with st := .posted, bitmap := [] }
        (e.ranks.foldl (fun s r => if (s.pkgOf r).isSome then s.sendFlit (s.controlFlit 0 r o.win 0 0) else s) s).opLevel seq 2

/-- `WDONE` reaches the port (R314): it waits for the exposure, which may have ended already. -/
def State.wdone (s : State) (seq : Nat) : State :=
  match s.op? seq with
  | none => s
  | some o =>
    match s.window o.win with
    | none => s.opFail seq 1
    | some e =>
      if e.mode ≠ 1 then s.opFail seq 1
      else if e.st = .posted then (s.modWindow o.win fun e => { e with done := e.done ++ [seq] }).opLevel seq 1
      else if e.allDone then s.opLevel seq 2
      else s.opFail seq 1

/-- `WCREATE` takes effect (R326). -/
def State.wcreate (s : State) (t : Tid) (id : Nat) (desc : BitVec 256) (pdom : BitVec 16) : State :=
  let answer := fun (s : State) (n : Nat) => s.modTile t fun x => x.fill id (fillScalar (scalarOf n))
  let d := desc.toNat
  let win := bits d 104 8
  let lo := bits d 128 13
  let hi := bits d 144 13
  let base := bits d 0 64
  let len := bits d 64 40
  let mode := bits d 112 2
  let here := s.groups.any fun g => g.1 == lo && g.2.1 == hi
  if (s.windows.get none win).isSome then answer s 1
  else if !here && decide (64 ≤ s.groups.length) then answer s 2
  else
    let ps := s.pinPages pdom (base + len) (len / 2 ^ 16 + 2) (base / 2 ^ 16 * 2 ^ 16)
    let s := s.pinLog ps
    if !mapped ps then answer s 3
    else
      let e : WEntry :=
        { desc := desc, pdom := pdom, pages := ps, st := if mode = 2 then .passive else .closed, epoch := 0, bitmap := [], arrivals := [],
          fifo := [], holders := [], done := [], rej := 0, inFlight := 0, freeing := none }
      let gs := if here then s.groups.map fun g => if g.1 = lo ∧ g.2.1 = hi then (g.1, g.2.1, g.2.2 + 1) else g else s.groups ++ [(lo, hi, 1)]
      answer { s with windows := s.windows.set none win (some e), groups := gs } 0

/-- The result `id` has its value in this cycle. -/
def Tile.fillNow (x : Tile) (id v : Nat) : Tile :=
  let g := fun (due : Nat) (l : Landing) => if l.id = id ∧ l.waiting then
    { l with writes := fillScalar (scalarOf v) l.writes, waiting := false, due := due } else l
  { x with inflight := x.inflight.map (g (x.rclk + 1)), snapshot := x.snapshot.map (g 0) }

/-- `WFREE` closes the entry (R320, R327). -/
def State.wclose (s : State) (t : Tid) (id win : Nat) (pdom : BitVec 16) (sv : Bool) : State :=
  match s.window win with
  | none => s.modTile t fun x => x.fillNow id 1
  | some e =>
    if e.pdom ≠ pdom ∧ !sv then s.modTile t fun x => x.fillNow id 2
    else
      let s := s.modWindow win fun e => { e with
        st := .closed, bitmap := [], arrivals := [], fifo := [], holders := [], done := [], freeing := some (some (t, id)) }
      let s := { s with dedup := s.dedup.filter fun k => k.1 != win }
      let s := e.fifo.foldl (fun s q => s.notify q.rank q.opn 2 1) s
      let s := e.done.foldl (fun s q => s.opFail q 1) s
      e.arrivals.foldl (fun s a =>
        if a.1 = s.rank then (match s.opOf a.2.1 with | some o => s.opFail o.seq 1 | none => s) else s.notify a.1 a.2.1 2 1) s

/-- A window whose last admitted flit has performed can be freed. -/
def State.freeReady (s : State) : Option Nat :=
  s.windows.findSome? fun w => match w.2 with
    | some e => if e.freeing.isSome ∧ e.inFlight = 0 then some w.1 else none
    | none => none

/-- WINDOW_ENTRY_FREED (R320). -/
def execWindowEntryFreed (s : State) : Host.Outcome State Fault Refusal :=
  let win := s.arg.m
  match s.windows.get none win with
  | none => .next s
  | some e =>
    match e.freeing, e.inFlight with
    | some w, 0 =>
      let gs := (s.groups.map fun g => if g.1 = e.lo ∧ g.2.1 = e.hi then (g.1, g.2.1, g.2.2 - 1) else g).filter fun g => g.2.2 != 0
      let s := { s with windows := s.windows.set none win none, groups := gs }
      .next (match w with | some p => s.modTile p.1 fun x => x.fillNow p.2 0 | none => s)
    | _, _ => .next s

/-- What `WTEST` tests (R331). -/
def State.wtest (s : State) (win cond : Nat) : Bool :=
  match s.windows.get none win with
  | none => false
  | some e =>
    match cond with
    | 0 => e.st != .closed
    | 1 => !e.holders.isEmpty
    | 2 => !e.fifo.isEmpty
    | 3 => e.mode == 1 && e.allDone
    | _ => true

end Sys2Proof.Machine
end

