-- ==== Sys2Proof/Machine/Window.lean ====
section
/-! DEFINITION. The window-engine instructions (R314 to R317, R325 to R333): access and control operations as they issue, and the
instructions that read a handle or a window. -/

namespace Sys2Proof.Machine

open Check

/-! ## Target words (R308) -/

def twRank (w : Nat) : Nat := bits w 0 13
def twWin (w : Nat) : Nat := bits w 16 8
def twTag (w : Nat) : Nat := bits w 32 16
def twCtr (w : Nat) : Nat := bits w 48 12

/-- The handle that a C slot names (R118). -/
def cHand (f : CF) : Nat := f.d.toNat % 32

/-- TRAPINFO of window class S (Table 11-8). -/
def winInfo (sub h : Nat) : Nat := h * 2 ^ 7 + sub * 2 ^ 12

/-! ## Issue of an operation (R321, R322) -/

/-- The first number from `n` on that no operation of the port has. -/
def freeOpn (used : List Nat) : Nat → Nat → Nat
  | 0, n => n % 16384
  | k + 1, n => if used.contains (n % 16384) then freeOpn used k (n + 1) else n % 16384

/-- The lock that the tile's task holds on a window. -/
def State.lockOf (s : State) (t : Tid) (rank win : Nat) : Option LockHeld := s.locks.find? fun l => l.tile == t && l.rank == rank && l.win == win

/-- An operation of the tile before it issues. It carries the TILEID of the lock that it is issued under (R317, R455). -/
def State.newOp (s : State) (f : CF) (kind : OpKind) (rank win : Nat) : OpRec :=
  { opn := freeOpn (s.ops.map (·.opn)) 16384 s.nextOpn, seq := s.nextOpn, kind := kind, tile := s.cur, h := cHand f,
    idx := (s.tile.handle (cHand f)).iss, iss := s.now, rank := rank, win := win, off := 0, len := 0, type := 0, tag := 0, laddr := 0, glob := false,
    pages := [], lockTile := (match s.lockOf s.cur rank win with | some l => l.holder | none => s.cur), loc := false, acc := false, vis := false, failed := false, poisoned := false, srcLeft := [], got := [],
    ret := [], entered := none, chambered := false, held := false, sent := false, leader := s.nextOpn, links := [], cask := none }

/-- An operation takes its index (R322). -/
def State.issueOp (s : State) (o : OpRec) : State :=
  ({ s with ops := s.ops ++ [o], nextOpn := s.nextOpn + 1 } : State).modHandle o.tile o.h fun h => { h with iss := h.iss + 1 }

/-- An operation that is locally complete at issue enters the port in the next cycle; one to a rank that cannot be reached
fails at issue (Table 11-3, R358). -/
def State.startOp (s : State) (o : OpRec) : State :=
  let s := (s.issueOp o).opLevel o.seq 0
  if s.reachable o.rank then s.schedule (s.now + 1) (ordPort s.rank) (.opEnter o.seq)
  else s.opFail o.seq 9

/-! ## Control operations (R314, R316, R317) -/

/-- A control operation: its word is a consumer, and it takes effect as `act` says. -/
def State.controlSlot (s : State) (i : Instr) (f : CF) (faults : List Flt) (wait : Option (Wait × State)) (act : Nat → State) :
    Host.Outcome State Fault Refusal :=
  let x := s.tile
  s.issueSlot i [] (x.cCond f) (x.consumeS 6 0 f.a.toNat ++ faults) wait (act (x.sv f.a.toNat))

/-- R316. -/
def execWfence (f : CF) (s : State) : Host.Outcome State Fault Refusal :=
  s.controlSlot (.wfence f) f [] none fun w =>
    let o := s.newOp f (.fence (bit f.x.toNat 1)) (twRank w) (twWin w)
    let s := s.startOp { o with held := !bit f.x.toNat 0 }
    if o.rank = s.rank then s.schedule (s.now + 1) (ordPort s.rank) (.opLevel o.seq 1) else s

/-- R314. -/
def execWpost (f : CF) (s : State) : Host.Outcome State Fault Refusal :=
  s.controlSlot (.wpost f) f [] none fun w =>
    let o := s.newOp f .post s.rank (twWin w)
    ((s.issueOp o).opLevel o.seq 0).schedule (s.now + 1) (ordPort s.rank) (.wpost o.seq)

/-- R314. -/
def execWdone (f : CF) (s : State) : Host.Outcome State Fault Refusal :=
  s.controlSlot (.wdone f) f [] none fun w =>
    let o := s.newOp f .done s.rank (twWin w)
    ((s.issueOp o).opLevel o.seq 0).schedule (s.now + 1) (ordPort s.rank) (.wdone o.seq)

/-- Opens an access record (R314, R315): a kept post notice opens it at once. -/
def State.openAccess (s : State) (o : OpRec) : State :=
  let s := (s.issueOp o).opLevel o.seq 0
  if !s.reachable o.rank then s.opFail o.seq 9
  else
    let kept := s.posts.contains (o.rank, o.win)
    let r : AccRec := { rank := o.rank, win := o.win, open_ := kept, closing := false, at_ := s.now, opn := o.seq, tile := some s.cur }
    let s := { s with accRecs := s.accRecs ++ [r] }
    if kept then
      ({ s with posts := s.posts.erase (o.rank, o.win) } : State).schedule (s.now + 1) (ordPort s.rank) (.opLevel o.seq 2)
    else s.plan (s.now + 16777216) (ordPort s.rank) .chamberQueueTimeout { EvArg.none with n := o.rank, m := o.win }

/-- The wait for a record or a chamber entry, when there is none (R315). -/
def State.chamberGate (s : State) (f : CF) (full : Bool) : List Flt × Option (Wait × State) :=
  if !full then ([], none)
  else if s.tile.timed then ([s.tile.classS 6 0xD (winInfo 2 (cHand f))], none)
  else ([], some (.chamber, s))

/-- R314, R315. -/
def execWstart (f : CF) (s : State) : Host.Outcome State Fault Refusal :=
  let g := s.chamberGate f (decide (64 ≤ s.accRecs.length))
  s.controlSlot (.wstart f) f g.1 g.2 fun w => s.openAccess (s.newOp f .start (twRank w) (twWin w))

/-- The first access record that `WCOMPL` closes. -/
def closeAccess (rank win : Nat) : List AccRec → List AccRec
  | [] => []
  | r :: l => if r.rank = rank ∧ r.win = win ∧ !r.closing then { r with closing := true } :: l else r :: closeAccess rank win l

/-- R314: the completion is held until the interval's operations are visible (R56). -/
def execWcompl (f : CF) (s : State) : Host.Outcome State Fault Refusal :=
  s.controlSlot (.wcompl f) f [] none fun w =>
    let o := { s.newOp f .compl (twRank w) (twWin w) with held := true }
    ({ s with accRecs := closeAccess o.rank o.win s.accRecs } : State).startOp o

/-- R317. -/
def execWlock (f : CF) (s : State) : Host.Outcome State Fault Refusal :=
  s.controlSlot (.wlock f) f [] none fun w => s.startOp (s.newOp f (.lock (bit f.x.toNat 0)) (twRank w) (twWin w))

/-- R317: the release is held until the operations under the lock are visible (R56). -/
def execWunlock (f : CF) (s : State) : Host.Outcome State Fault Refusal :=
  s.controlSlot (.wunlock f) f [] none fun w =>
    let o := { s.newOp f .unlock (twRank w) (twWin w) with held := true }
    let s := match s.lockOf s.cur o.rank o.win with
      | some l => { s with locks := s.locks.erase l }
      | none => s
    s.startOp o

/-! ## Remote operations (R328, R329) -/

/-- What translating the pages of a run gives: their physical bases, or the first page that faults or misses. -/
inductive PageRun where
  | pages (m : SMap Nat)
  | fault (va cause level : Nat)
  | miss (va : Nat)
deriving DecidableEq, Repr

/-- Translates the pages of the run `a` to `a + n - 1`, in order. -/
def Tile.runPages (x : Tile) (a n need : Nat) : PageRun :=
  (List.range ((a + n - 1) / 65536 - a / 65536 + 1)).foldl (fun (r : PageRun) k =>
    match r with
    | .pages m =>
      let va := max a ((a / 65536 + k) * 65536)
      (match x.translate va need with
       | .pa p => .pages (m.set 0 (va / 65536) (p - va % 65536))
       | .fault c l => .fault va c l
       | .miss => .miss va)
    | r => r) (.pages [])

/-- The local check of a scratchpad run (Table 7-7). -/
def padRunFault (x : Tile) (a n al : Nat) : List Flt :=
  if padSize < a + n then [x.localT 6 1 a] else if a % al ≠ 0 then [x.localT 6 3 a] else []

/-- A `STARTED` record holds the operations to its window (R314). -/
def State.holdsOps (s : State) (rank win : Nat) : Bool :=
  s.accRecs.any fun r => r.rank == rank && r.win == win && !r.open_ && !r.closing

/-- A remote operation issues: sources are read from issue + 1, a get enters the port at issue + 1 with its landing pending. -/
def State.remoteIssue (s : State) (o : OpRec) : State :=
  let o := { o with chambered := s.holdsOps o.rank o.win }
  let s := match o.kind with
    | .acc _ true => s
    | _ => s.markEffect s.cur
  if !s.reachable o.rank then (s.issueOp o).opFail o.seq 9
  else
    match o.kind with
    | .get =>
      let rows := (flitChunks (tyWidth o.type / 8) o.laddr o.len).flatMap fun c => runRows (o.laddr + c.1) c.2
      let s := if o.glob then s else s.onTile fun x => x.addPend rows
      s.startOp { o with ret := rows }
    | .amo _ _ => (s.issueOp { o with srcLeft := [rowOf o.laddr], ret := [rowOf o.laddr] }).schedule (s.now + 1) ordRemoteRead (.opSrc o.seq)
    | _ => (s.issueOp { o with srcLeft := runRows o.laddr o.len }).schedule (s.now + 1) ordRemoteRead (.opSrc o.seq)

/-- The issue of `WPUT`, `WGET`, `WACC` and `WAMO`: operands, the local address, the chamber, then the operation. -/
def State.remoteSlot (s : State) (i : Instr) (f : CF) (kind : OpKind) (len al need : Nat) (glob : Bool) (tag : Nat → Nat) :
    Host.Outcome State Fault Refusal :=
  let x := s.tile
  let w := x.sv f.a.toNat
  let a := x.sv f.c.toNat
  let own := x.consumeS 6 0 f.a.toNat ++ x.consumeS 6 4 f.b.toNat ++ x.consumeS 6 3 f.c.toNat
  let full := s.holdsOps (twRank w) (twWin w) && decide (256 ≤ (s.ops.filter (·.chambered)).length)
  let g := s.chamberGate f full
  let go := fun (m : SMap Nat) => s.remoteIssue { s.newOp f kind (twRank w) (twWin w) with
    off := x.sv f.b.toNat, len := len, type := remType f, tag := tag w, laddr := a, glob := glob, pages := m }
  if glob then
    match x.runPages a len need with
    | .pages m => s.issueSlot i [] (x.cCond f) (own ++ g.1) g.2 (go m)
    | .fault va c l => s.issueSlot i [] (x.cCond f) (own ++ g.1) g.2 (s.laterT 6 c l va 6)
    | .miss va =>
      let h := s.missGate 6 va
      s.issueFix i [] (x.cCond f) (own ++ g.1 ++ h.1) (s.walkOnMiss 6 va) h.2 s
  else s.issueSlot i [] (x.cCond f) (own ++ padRunFault x a len al ++ g.1) g.2 (go [])

def cWidth (f : CF) : Nat := max 1 (tyWidth (remType f) / 8)

/-- R328. -/
def execWput (f : CF) (s : State) : Host.Outcome State Fault Refusal :=
  s.remoteSlot (.wput f) f .put (remLen f) (cWidth f) needR (bit f.x.toNat 0) fun _ => 0

/-- R328. -/
def execWget (f : CF) (s : State) : Host.Outcome State Fault Refusal :=
  s.remoteSlot (.wget f) f .get (remLen f) (cWidth f) needW (bit f.x.toNat 0) fun _ => 0

/-- R328, R319. -/
def execWacc (f : CF) (s : State) : Host.Outcome State Fault Refusal :=
  let tagged := bit f.x.toNat 4
  s.remoteSlot (.wacc f) f (.acc (waccOp f) tagged) (remLen f) (cWidth f) needR (bit f.x.toNat 0) fun w => if tagged then twTag w else 0

/-- R329. -/
def execWamo (f : CF) (s : State) : Host.Outcome State Fault Refusal :=
  let fut := bit f.x.toNat 4
  s.remoteSlot (.wamo f) f (.amo (waccOp f) fut) 16 16 needR false fun w => if fut then twCtr w else 0

/-! ## `WFLUSH` (R330) -/

/-- A remote operation of the tile to a rank, or to any, has not reached a level. -/
def State.flushOut (s : State) (t : Tid) (rank : Option Nat) (vis : Bool) : Bool :=
  s.ops.any fun o => o.kind.remote && o.tile == t && o.cask.isNone && !o.failed && !(if vis then o.vis else o.acc) &&
    (match rank with | some r => o.rank == r | none => true)

/-- R330. -/
def execWflush (f : CF) (s : State) : Host.Outcome State Fault Refusal :=
  let x := s.tile
  let vis := bit f.x.toNat 0
  let rank := if bit f.x.toNat 1 then none else some (twRank (x.sv f.a.toNat))
  let unmet := s.flushOut s.cur rank vis
  s.issueSlot (.wflush f) [] (x.cCond f)
    ((if rank.isSome then x.consumeS 6 0 f.a.toNat else []) ++ (if x.timed && unmet then [x.classS 6 0xD (winInfo 3 0)] else []))
    (if !x.timed && unmet then some (.flush rank vis, s.closeCombine s.cur) else none) (s.closeCombine s.cur)

/-! ## The basin's own windows (R326, R327, R331) -/

/-- The 256-bit descriptor in vR. -/
def Tile.windowDesc (x : Tile) (v : Nat) : BitVec 256 := BitVec.ofNat 256 (packNat 64 ((List.range 4).map fun j => (x.recordGran v j).d.toNat))

/-- The checks of R326, by rising bit position. -/
def windowErrs (d : Nat) : List (Nat × Nat) :=
  let len := bits d 64 40
  recField 0 64 (bits d 0 3 != 0) ++ recField 64 40 (len == 0 || len % 8 != 0 || decide (2 ^ 36 < len)) ++
  recField 112 2 (bits d 112 2 == 3) ++ recField 119 9 (bits d 119 9 != 0) ++ recField 128 13 (decide (bits d 144 13 < bits d 128 13)) ++
  recField 141 3 (bits d 141 3 != 0) ++ recField 157 99 (bits d 157 99 != 0)

/-- R326. -/
def execWcreate (f : CF) (s : State) : Host.Outcome State Fault Refusal :=
  let x := s.tile
  let v := bits f.imm20.toNat 0 9
  let d := x.windowDesc v
  s.issueSlot (.wcreate f) (privErr 6 x.sv?) (x.cCond f)
    (x.recordBad v 4 ++ (match windowErrs d.toNat with | p :: _ => [x.recTrap 6 0 p.1 p.2] | [] => [])) none
    (s.unitScalar f.d 32 ordBind fun n => .wcreate s.cur n d x.pdom)

/-- R320, R327: the entry closes at issue + 8, and the status comes when it is freed. -/
def execWfree (f : CF) (s : State) : Host.Outcome State Fault Refusal :=
  let x := s.tile
  let n := s.newId
  s.issueSlot (.wfree f) [] (x.cCond f) (x.consumeS 6 0 f.a.toNat) none
    ((n.2.landWaiting 6 (2 ^ 64) [.scalar f.d (.zero 1)] n.1).schedule (s.now + 8) (ordPort s.rank)
      (.wclose s.cur n.1 (twWin (x.sv f.a.toNat)) x.pdom x.sv?))

/-- A predicate of 256 equal bits. -/
def predBit (f : CF) (b : Bool) : RWrite := predWrite f.c.toNat (if b then 2 ^ 256 - 1 else 0)

/-- R331. -/
def execWtest (f : CF) (s : State) : Host.Outcome State Fault Refusal :=
  let x := s.tile
  s.issueSlot (.wtest f) [] (x.cCond f) (x.consumeS 6 0 f.a.toNat) none
    (s.land 6 24 [predBit f (s.wtest (twWin (x.sv f.a.toNat)) (bits f.x.toNat 0 3))])

/-! ## Handles (R332, R333) -/

/-- `HINIT` takes effect. -/
def State.hinit (s : State) (t : Tid) (h : Fin 32) : State := s.modTile t fun x => { x with handles := x.handles.set .zero h.val .zero, hseen := x.hseen.set .zero h.val .zero }

/-- R332. -/
def execHinit (f : CF) (s : State) : Host.Outcome State Fault Refusal :=
  let x := s.tile
  let h := x.handle (cHand f)
  s.issueSlot (.hinit f) [] (x.cCond f)
    (if h.settled 2 && h.settled 0 then [] else [x.classS 6 0xD (winInfo 1 (cHand f))]) none
    (s.schedule (s.now + 1) ordBind (.hinit s.cur (Fin.ofNat 32 (cHand f))))

/-- The handle as `HTEST` and `HREAD` read it. -/
def Tile.handleSeen (x : Tile) (h : Nat) : Handle := x.hseen.get .zero h

/-- What `HTEST` tests. -/
def Handle.test (h : Handle) (lvl : Nat) : Bool := if lvl = 3 then h.failed else h.settled lvl

/-- R332. -/
def execHtest (f : CF) (s : State) : Host.Outcome State Fault Refusal :=
  let x := s.tile
  s.issueSlot (.htest f) [] (x.cCond f) [] none (s.land 6 2 [predBit f ((x.handleSeen (cHand f)).test (bits f.x.toNat 0 2))])

/-- The fields that `HREAD` selects. -/
def Handle.field (h : Handle) (sel : Nat) : Nat :=
  match sel with
  | 0 => h.iss.toNat
  | 1 => h.loc.toNat
  | 2 => h.acc.toNat
  | 3 => h.vis.toNat
  | 4 => h.fail.toNat
  | 5 => h.fidx.toNat
  | _ => h.psn.toNat * 32 + h.ferr.toNat

/-- R332. -/
def execHread (f : CF) (s : State) : Host.Outcome State Fault Refusal :=
  let x := s.tile
  s.issueSlot (.hread f) [] (x.cCond f) [] none
    (s.land 6 2 [.scalar f.c (scalarOf ((x.handleSeen (cHand f)).field (bits f.x.toNat 0 3)))])

/-- R333. -/
def execWaith (f : YF) (s : State) : Host.Outcome State Fault Refusal :=
  let x := s.tile
  let n := waithHandle f
  let h := x.handle n
  let ok := h.settled (waithLevel f)
  let w : Flt := (rankW 7, x.issueTrap clsW (BitVec.ofNat 4 h.ferr.toNat) (h.fidx.toNat * 2 ^ 32 + n * 2 ^ 7))
  s.issueSlot (.waith f) [] (x.yCond f)
    ((if ok && waithTrap f && h.failed then [w] else []) ++ (if x.timed && !ok then [x.classS 7 0xD (winInfo 4 n)] else []))
    (if !x.timed && !ok then some (.handle (Fin.ofNat 32 n) (waithLevel f), s) else none) (s.acquireTile s.cur s.now)

end Sys2Proof.Machine
end

