-- ==== Sys2Proof/Machine/Pipes.lean ====
section
/-! DEFINITION. Pipes: `PBIND`, `PPUSH`, `PEOS`, `PPOP` and what performs at the slice (R394 to R401, R408). -/

namespace Sys2Proof.Machine

open Check

/-! ## Pipe words and states (R394, R396) -/

def pwPipe (w : Nat) : Nat := bits w 0 8
def pwProd (w : Nat) : Nat := bits w 8 5

def State.pipe (s : State) (p : Nat) : Pipe := s.pipes.get .unbound p

def State.modPipe (s : State) (p : Nat) (f : Pipe → Pipe) : State := { s with pipes := s.pipes.modify .unbound p f }

def Pipe.marked (p : Pipe) (prod : Nat) : Bool := p.marks.getLsbD prod

/-- Every declared producer's mark has performed. -/
def Pipe.closing (p : Pipe) : Bool := (List.range p.prod).all p.marked

/-- ENDED (Table 14-6). -/
def Pipe.ended (p : Pipe) : Bool := p.closing && p.entries.isEmpty

/-- The oldest entry that can be popped at a cycle. -/
def Pipe.oldest (p : Pipe) (now : Nat) : Option (Reg 32) :=
  match p.entries with
  | (c, e) :: _ => if c ≤ now then some e else none
  | [] => none

/-- Entries present and pushes reserved reach the capacity (R399). -/
def Pipe.full (p : Pipe) : Bool := decide (p.cap ≤ p.entries.length + p.reserved)

/-- The order of pipe steps within a cycle: after the tiles' writes, by producer index (R395). -/
def ordPipe (prod : Nat) : Nat := 3200 + prod

/-- TRAPINFO of task-engine class S (Table 14-10). -/
def taskInfo (sub number : Nat) : Nat := sub * 2 ^ 12 + number * 2 ^ 16

/-! ## Performing at the slice (R395, R396, R398) -/

/-- A push performs under the generation that it was issued for; else it is discarded. -/
def State.pipePush (s : State) (p prod gen : Nat) (e : Reg 32) : State :=
  let q := s.pipe p
  if q.bound ∧ q.gen = gen then
    let s := s.modPipe p fun q => { q with reserved := q.reserved - 1 }
    if q.marked prod then s.event srcTask p evOther p
    else s.modPipe p fun q => { q with entries := q.entries ++ [(s.now + 1, e)] }
  else s.event srcTask p evOther p

/-- An end mark performs. -/
def State.pipeMark (s : State) (p prod gen : Nat) : State :=
  let q := s.pipe p
  if q.bound ∧ q.gen = gen then s.modPipe p fun q => { q with marks := q.marks ||| BitVec.ofNat 32 (2 ^ prod) }
  else s.event srcTask p evOther p

/-- A popped entry's space is free. -/
def State.pipeRoom (s : State) (p gen : Nat) : State :=
  s.modPipe p fun q => if q.bound ∧ q.gen = gen then { q with reserved := q.reserved - 1 } else q

/-- A tile is frozen on a pipe. -/
def State.frozenOn (s : State) (p : Nat) : Bool :=
  s.tiles.toList.any fun x => x.frozen == some (.popPipe p) || x.frozen == some (.pushPipe p)

/-- Entries of pipe space in use in a slice. -/
def State.sliceUsed (s : State) (span : Nat) : Nat := ((s.pipes.filter fun q => q.1 / 64 == span && q.2.bound).map (·.2.cap)).sum

/-- The status that `PBIND` writes, and what it does (R397). -/
def State.pbindStep (s : State) (mode v : Nat) : Nat × State :=
  let p := pwPipe v
  let q := s.pipe p
  let cap := bits v 8 10 + 1
  match mode with
  | 0 =>
    if q.bound then (1, s)
    else if 16384 < s.sliceUsed (p / 64) + cap then (2, s)
    else (0, s.modPipe p fun q => { bound := true, cap := cap, prod := bits v 18 5 + 1, gen := q.gen + 1, entries := [], marks := 0, reserved := 0 })
  | 1 =>
    if !q.bound then (3, s)
    else if s.frozenOn p then (4, s)
    else (0, s.modPipe p fun q => { q with bound := false, entries := [], marks := 0, reserved := 0 })
  | _ => (q.entries.length + 2 ^ 11 * q.bound.toNat + 2 ^ 16 * q.marks.toNat, s)

/-- `PBIND` at issue + 24. -/
def State.pipeBind (s : State) (t : Tid) (id mode : Nat) (v : Word) : State :=
  let r := s.pbindStep mode v.toNat
  r.2.modTile t fun x => x.fill id (fillScalar (scalarOf r.1))

/-! ## Instructions -/

/-- R397. -/
def execPbind (f : CF) (s : State) : Host.Outcome State Fault Refusal :=
  let x := s.tile
  let v := x.sv f.a.toNat
  let bad := if modeX f = 0 ∧ v / 2 ^ 23 ≠ 0 then [x.recTrap 6 0 23 63] else []
  s.issueSlot (.pbind f) [] (x.cCond f) (x.consumeS 6 0 f.a.toNat ++ bad) none
    (s.unitScalar f.d 24 (ordPipe 32) fun n => .pipeBind s.cur n (modeX f) (BitVec.ofNat 64 v))

/-- The causes of R399 and R408 that an unbound pipe or a wrong producer gives. -/
def Tile.pushFaults (x : Tile) (w : Nat) (q : Pipe) : List Flt :=
  if !q.bound then [x.classS 5 0xF (taskInfo 3 (pwPipe w))]
  else if q.prod ≤ pwProd w then [x.classS 5 0xF (taskInfo 4 (pwPipe w))]
  else []

/-- What `PPUSH` pushes: a register or latch, or a scalar in granule 0 (R399). -/
def Tile.pushEntry (x : Tile) (data : Nat) : Reg 32 :=
  if data < 324 then x.vreg data else Reg.ofGrans 32 ((x.scalar (data - 328)).gran 0 :: List.replicate 31 .zero)

/-- R399. -/
def execPpush (f : TF) (s : State) : Host.Outcome State Fault Refusal :=
  let x := s.tile
  let w := x.sv f.base.toNat
  let q := s.pipe (pwPipe w)
  let bad := x.pushFaults w q
  let full := bad.isEmpty && q.full
  s.issueSlot (.ppush f) [] (x.tCond f)
    (x.consumeS 5 3 f.base.toNat ++ bad ++ (if x.timed && full then [x.classS 5 0xF (taskInfo 2 (pwPipe w))] else []))
    (if !x.timed && full then some (.pushPipe (pwPipe w), s) else none)
    (((s.markEffect s.cur).modPipe (pwPipe w) fun q => { q with reserved := q.reserved + 1 }).schedule (s.now + 24) (ordPipe (pwProd w))
      (.pipePush s.cur s.now (pwPipe w) (pwProd w) q.gen (x.pushEntry f.data.toNat)))

/-- R399. -/
def execPeos (f : TF) (s : State) : Host.Outcome State Fault Refusal :=
  let x := s.tile
  let w := x.sv f.base.toNat
  let q := s.pipe (pwPipe w)
  s.issueSlot (.peos f) [] (x.tCond f) (x.consumeS 5 3 f.base.toNat ++ x.pushFaults w q) none
    ((s.markEffect s.cur).schedule (s.now + 24) (ordPipe (pwProd w)) (.pipeMark s.cur s.now (pwPipe w) (pwProd w) q.gen))

/-- The writes of a `PPOP` that takes an entry, or that reports the end (R401). -/
def popWrites (f : LF) (e : Option (Reg 32)) : List RWrite :=
  match e with
  | none => [predWrite f.x.toNat (2 ^ 256 - 1)]
  | some v =>
    (if f.d.toNat < 320 then [.vec f.d.toNat v predAll (some 2)]
     else [.scalar (BitVec.ofNat 6 (f.d.toNat - 328)) (Reg.ofGrans 1 [v.gran 0])]) ++ [predWrite f.x.toNat 0]

/-- Takes the oldest entry; its space is free in the next cycle (R395). -/
def State.popEntry (s : State) (p : Nat) : State :=
  (s.modPipe p fun q => { q with entries := q.entries.tail, reserved := q.reserved + 1 }).schedule (s.now + 1) ordBind
    (.pipeRoom p (s.pipe p).gen)

/-- R400, R401. -/
def execPpop (f : LF) (s : State) : Host.Outcome State Fault Refusal :=
  let x := s.tile
  let w := x.sv f.base.toNat
  let p := pwPipe w
  let q := s.pipe p
  let e := q.oldest s.now
  let wait := q.bound && e.isNone && !q.ended
  s.issueSlot (.ppop f) [] (x.cond f.pred.toNat f.n)
    (x.consumeS 4 3 f.base.toNat ++ (if q.bound then [] else [x.classS 4 0xF (taskInfo 3 p)]) ++
      (if x.timed && wait then [x.classS 4 0xF (taskInfo 1 p)] else []))
    (if !x.timed && wait then some (.popPipe p, s) else none)
    ((if e.isSome then s.popEntry p else s).land 4 6 (popWrites f e))

end Sys2Proof.Machine
end

