-- ==== Sys2Proof/Machine/Task.lean ====
section
/-! DEFINITION. The task engine: record checks (R405), creation (R388, R406), counters (R384, R385), readiness (R387), starting and
choosing (R30, R388 to R393), retirement, redirect switches and the instructions `CINC`, `CREAD`, `CSET`, `WAITC`, `TSPAWN`, `TEFFECT`. -/

namespace Sys2Proof.Machine

open Check

/-! ## Record checks (R405, Tables 14-1 to 14-3) -/

/-- A box in use. -/
def recUsesBox (r : BitVec 1536) (b : Nat) : Bool := decide (b < recNrd r) || (decide (4 ≤ b) && decide (b < 4 + recNwr r))

/-- The failing fields of record `j` of a spawn whose first record is `f`, by rising bit position. -/
def taskErrs (f r : BitVec 1536) (j : Nat) : List (Nat × Nat) :=
  let v := r.toNat
  let place := match recLevel r with | 0 => recPlace r != 0 | 1 => decide (3 < recPlace r) | _ => false
  recField 0 8 (recVersion r != 1) ++ recField 10 2 (recLevel r == 3) ++ recField 12 5 place ++ recField 20 3 (decide (4 < recNwait r)) ++
  recField 23 3 (decide (4 < recNrd r)) ++ recField 26 3 (decide (4 < recNwr r)) ++ recField 29 3 (bits v 29 3 != 0) ++
  recField 32 6 (j != 0 && recGang r != 0) ++ recField 38 26 (bits v 38 26 != 0) ++ recField 64 6 (bits v 64 6 != 0) ++
  recField 205 11 (bits v 205 11 != 0) ++ recField 216 4 (recRjob r != recRjob f) ++ recField 220 4 (bits v 220 4 != 0) ++
  recField 224 6 (recMbase r != recMbase f || (recRjob r == 0 && recMbase r != 0)) ++ recField 230 26 (bits v 230 26 != 0) ++
  ((List.range 4).flatMap fun i =>
    if i < recNwait r then recField (300 + 64 * i) 20 (bits v (300 + 64 * i) 20 != 0)
    else recField (256 + 64 * i) 64 (bits v (256 + 64 * i) 64 != 0)) ++
  ((List.range 8).flatMap fun b =>
    let o := 512 + 128 * b
    if recUsesBox r b then recField o 16 (bits v o 16 == 0) ++ recField (o + 124) 4 (bits v (o + 124) 4 != 0)
    else recField o 128 (bits v o 128 != 0))

/-- A box names an unbound tensor, or one that is bound uncached (R388): the first such box. -/
def State.unboundBox (s : State) (r : BitVec 1536) : Option Nat :=
  (List.range 8).find? fun b =>
    recUsesBox r b && !(s.binds.any fun d => trId d.record.toNat == boxId (recBox r b) && d.cached)

/-! ## Tensor tiles of a box (R302, R388) -/

/-- Tiles of a tensor along a level. -/
def trTiles (r l : Nat) : Nat := ceilDiv (trDim r l) (trSpan r l)

/-- The coordinates of a box along a level of its tensor. -/
def boxCoords (r b l : Nat) : List Nat :=
  (List.range (trTiles r l)).filter fun c => decide (boxLo b l ≤ c) && (match boxHi b l with | none => true | some h => decide (c < h))

/-- The tiles that a box covers. -/
def boxTiles (r b : Nat) : List (List Nat) :=
  (trLevels r).foldl (fun acc l => acc.flatMap fun cs => (boxCoords r b l).map fun c => cs ++ [c]) [[]]

/-- Bytes of a tile. -/
def trTileBytes (r : Nat) : Nat := ((trLevels r).map (trExt r)).foldl (· * ·) 1 * trWidth r / 8

def boxCount (r b : Nat) : Nat := ((trLevels r).map fun l => (boxCoords r b l).length).foldl (· * ·) 1

/-- The physical byte of a virtual address in a binding's pinned pages. -/
def Binding.paOf (b : Binding) (va : Nat) : Option Nat :=
  (b.pages.find? fun p => va / p.size == p.page).map fun p => p.pa + va % p.size

/-- The physical bytes of the elements of a tile that lie in range. -/
def Binding.tileBytes (b : Binding) (coord : List Nat) : List Nat :=
  let r := b.record.toNat
  let els := (coord.mapIdx fun l c => (c, l)).foldl (fun (acc : List Int) cl =>
    let is := ((List.range (trSpan r cl.2)).map fun i => cl.1 * trSpan r cl.2 + i).filter fun i => decide (i < trDim r cl.2)
    acc.flatMap fun o => is.map fun (i : Nat) => o + (i : Int) * trStride r cl.2) [0]
  let vas := els.flatMap fun o =>
    let nib := wrapI 65 (2 * (trBase r : Int) + o * (trWidth r / 4 : Nat))
    (List.range (max 1 (trWidth r / 8))).map fun k => nib / 2 + k
  (vas.filterMap b.paOf).eraseDups

def State.bindingOf (s : State) (id : Nat) : Option Binding := s.binds.find? fun d => trId d.record.toNat == id

/-- Bytes of the shadow tiles that a record's renamed boxes need. -/
def State.shadowNeed (s : State) (r : BitVec 1536) (renamed : List Nat) : Nat :=
  (renamed.map fun k =>
    let b := recBox r (4 + k)
    match s.bindingOf (boxId b) with
    | some d => boxCount d.record.toNat b * trTileBytes d.record.toNat
    | none => 0).sum

/-- Bytes of the rename pool in use. -/
def State.poolUsed (s : State) : Nat := (s.taskList.map fun e => (e.2.shadows.map (·.size)).sum).sum

/-- A box covers a tile. -/
def boxCovers (b id : Nat) (coord : List Nat) : Bool :=
  boxId b == id && (coord.mapIdx fun l c => decide (boxLo b l ≤ c) && (match boxHi b l with | none => true | some h => decide (c < h))).all fun x => x

/-- A shadow tile at its task's start (R389): the current version when a read box of the task covers it, else zeros. -/
def State.makeShadow (s : State) (r : BitVec 1536) (d : Binding) (coord : List Nat) : Shadow :=
  let idn := trId d.record.toNat
  let bs := d.tileBytes coord
  let copy := (recReads r).any fun b => boxCovers b idn coord
  let store := if !copy then Store.empty
    else ((bs.map (· / 8)).eraseDups).foldl (fun (st : Store) g =>
      let v := s.memGran none g
      st.write { g := g, d := v.d, r := v.r, bad := v.bad, mask := BitVec.ofNat 8 (((List.range 8).filter fun i => bs.contains (8 * g + i)).map (2 ^ ·)).sum }) .empty
  { id := idn, coord := coord, size := trTileBytes d.record.toNat, bytes := bs, store := store }

def State.makeShadows (s : State) (e : TaskEnt) : List Shadow :=
  e.renamed.flatMap fun k =>
    let b := recBox e.record (4 + k)
    match s.bindingOf (boxId b) with
    | some d => (boxTiles d.record.toNat b).map fun c => s.makeShadow e.record d c
    | none => []

/-! ## Creation (R386, R388, R406) -/

/-- The write boxes of a new task that are renamed: they overlap a box of a task that has not retired. -/
def State.renamedBoxes (s : State) (r : BitVec 1536) : List Nat :=
  (List.range (recNwr r)).filter fun k => s.taskList.any fun e =>
    e.2.st != .retired && (recReads e.2.record ++ recWrites e.2.record).any fun b => boxOverlap (recBox r (4 + k)) b

/-- The start cycle of the reach-job entry that a record names. -/
def State.jobStart (s : State) (r : BitVec 1536) : Option Nat :=
  if recRjob r = 0 then none else some (s.host.rjStart.get 0 (recRjob r)).toNat

/-- Puts the records of a spawn into the table; each is looked at in the next cycle. `pri` overrides the records' priority. -/
def State.createTasks (s : State) (recs : List (BitVec 1536)) (pdom : BitVec 16) (pri : Option Nat) (root : Bool) : Nat × State :=
  let is := s.freeEntries.take recs.length
  let first := is.headD 0
  let es : List (Nat × TaskEnt) := (is.zip recs).mapIdx fun j ir =>
    (ir.1, { st := .created, record := ir.2, order := s.spawns, place := s.spawns, pri := pri.getD (recPri ir.2), renamed := s.renamedBoxes ir.2, since := true,
             bypass := 0, pdom := pdom, tile := none, leader := first, member := recMbase ir.2 + j, nmem := recs.length,
             startAt := s.jobStart ir.2, effect := false, spent := false, fails := 0, gen := 0, cask := none, gcask := none, pre := false, root := root,
             shadows := [] })
  let failed := if 32 < recs.length then some 1
    else if es.any fun e => decide (s.host.rpool.toNat < s.shadowNeed e.2.record e.2.renamed) then some 2 else none
  let s := { s with spawns := s.spawns + 1 }
  (first, es.foldl (fun s e =>
    match failed with
    | some k => ((s.setTask e.1 (some { e.2 with st := .failed k })).rootEnds e.2).event srcTask 0 evFailed (e.1 + k * 2 ^ 16)
    | none => (s.setTask e.1 (some e.2)).plan (s.now + 1) (ordEngine 0) .taskReady { EvArg.none with n := e.1 }) s)

/-- The status of a spawn (Table 14-8); when several apply, the lowest that creates nothing comes first. -/
def State.spawnStatus (s : State) (recs : List (BitVec 1536)) (sv : Bool) : Nat :=
  if s.freeEntries.length < recs.length then 1
  else if !sv && recs.any recSv then 2
  else if recs.any fun r => (s.unboundBox r).isSome then 3
  else if recs.any fun r => recRjob r != 0 && s.host.rjArm.get 0 (recRjob r) != 1 then 5
  else if 32 < recs.length then 4
  else 0

/-- `TSPAWN` at issue + 24 (R406). -/
def State.tspawn (s : State) (t : Tid) (id : Nat) (recs : List (BitVec 1536)) (pdom : BitVec 16) (sv : Bool) : State :=
  let st := s.spawnStatus recs sv
  let r := if st = 0 ∨ st = 4 then s.createTasks recs pdom none false else (0, s)
  r.2.modTile t fun x => x.fill id (fillScalar (scalarOf (r.1 + st * 2 ^ 12)))

/-- ROOT_SLOT_COPY (R18): the record of an ARMED slot enters the table at priority 3, in domain 0 (log entry 18). -/
def execRootSlotCopy (s : State) : Host.Outcome State Fault Refusal :=
  if s.host.rootSt = 1 ∧ !s.freeEntries.isEmpty then
    let s := { s with host := { s.host with rootSt := 2 } }
    .next (s.createTasks [s.host.rootRec] 0 (some 3) true).2
  else .next s

/-! ## Readiness (R386, R387) -/

/-- R387: every wait met, and no pending earlier writer overlaps a read box. -/
def State.ready (s : State) (e : TaskEnt) : Bool :=
  ((List.range (recNwait e.record)).all fun j =>
    let w := recWait e.record j
    s.counterMet (bits w 32 12) (bits w 0 32)) &&
  !(s.taskList.any fun o => decide (o.2.order < e.order) && o.2.st != .retired &&
    (recWrites o.2.record).any fun a => (recReads e.record).any fun b => boxOverlap a b)

/-- TASK_READY (R386): the cycle after creation, or after R387 holds. -/
def execTaskReady (s : State) : Host.Outcome State Fault Refusal :=
  let i := s.arg.n
  match s.task i with
  | none => .next s
  | some e =>
    .next (match e.st with
      | .created => s.setTask i (some { e with st := if s.ready e then .ready else .waiting, since := false })
      | .waiting => if e.since then s.setTask i (some { e with st := .ready, since := false }) else s
      | _ => s)

/-- A WAITING task that meets R387 becomes READY in the next cycle. -/
def State.noteReady (s : State) : State :=
  s.taskList.foldl (fun s e =>
    if e.2.st = .waiting ∧ !e.2.since ∧ s.ready e.2 then
      (s.setTask e.1 (some { e.2 with since := true })).plan (s.now + 1) (ordEngine 0) .taskReady { EvArg.none with n := e.1 }
    else s) s

/-! ## Fitting (R390) -/

def tileMeets (r : BitVec 1536) (t : Nat) : Bool :=
  match recLevel r with
  | 0 => true
  | 1 => t / 8 == recPlace r
  | _ => t == recPlace r

/-- Places members one after another where they fit; the tiles taken. -/
def placeEach : List TaskEnt → List Nat → List Nat
  | [], _ => []
  | e :: l, free =>
    match free.find? fun t => tileMeets e.record t with
    | none => placeEach l free
    | some t => t :: placeEach l (free.erase t)

/-- The tiles of as many members as fit: those with a tile of their own first, then those with a span. -/
def placeMost (ms : List TaskEnt) (free : List Nat) : List Nat :=
  placeEach ((ms.filter fun e => recLevel e.record == 2) ++ (ms.filter fun e => recLevel e.record == 1) ++
    ms.filter fun e => recLevel e.record != 2 && recLevel e.record != 1) free

/-- The lowest tiles for members in order, so that the members after each still fit. -/
def fitTiles : List TaskEnt → List Nat → Option (List Nat)
  | [], _ => some []
  | e :: l, free =>
    match free.find? fun t => tileMeets e.record t && (placeMost l (free.erase t)).length == l.length with
    | none => none
    | some t => (fitTiles l (free.erase t)).map (t :: ·)

/-- A tile without a task, and not being restored. -/
def Tile.free (x : Tile) : Bool := x.task.isNone && x.run == .idle

def State.freeTiles (s : State) : List Nat := (List.range 32).filter fun t => (s.tileAt (tid t)).free

/-- Shadow tiles that the members of a gang still need fit in the pool (R388). -/
def State.poolFits (s : State) (ms : List TaskEnt) : Bool :=
  let need := (ms.map fun e => if e.st = .ready ∧ e.cask.isNone then s.shadowNeed e.record e.renamed else 0).sum
  decide (s.poolUsed + need ≤ s.host.rpool.toNat)

/-! ## Casks of suspended entries -/

/-- The physical address of a virtual address of a domain, by its tables. -/
def State.physOf (s : State) (pdom : BitVec 16) (va : Nat) : Option Nat :=
  if 2 ^ 48 ≤ va then none
  else
    let e := s.walk pdom va
    if e.fault.isSome then none else some (e.pa + va % e.size)

/-- The state field of the cask at an address: 0 when it is no cask. -/
def State.caskState (s : State) (pdom : BitVec 16) (va : Nat) : Nat :=
  match s.physOf pdom va with
  | none => 0
  | some pa =>
    let g := (s.memGran none (pa / 8)).d.toNat
    if bits g 0 48 = 0x00014B534143 then bits g 48 8 else 0

/-- A suspended entry competes for tiles: pre-emption suspended it, and its cask is not ANCHORED (R393, R451). -/
def State.competes (s : State) (e : TaskEnt) : Bool :=
  e.st == .suspended && e.pre && (match e.cask with | some va => s.caskState e.pdom va != 2 | none => false)

/-! ## Choosing (R30, R390, R392) -/

def insGang (g : List (Nat × TaskEnt)) (before : TaskEnt → TaskEnt → Bool) : List (List (Nat × TaskEnt)) → List (List (Nat × TaskEnt))
  | [] => [g]
  | h :: l =>
    match g.head?, h.head? with
    | some a, some b => if before b.2 a.2 then h :: insGang g before l else g :: h :: l
    | _, _ => g :: h :: l

/-- The members of a gang that have not retired or failed. -/
def State.liveGang (s : State) (order : Nat) : List (Nat × TaskEnt) := (s.gangOf order).filter fun e => e.2.st.live

/-- The gangs of the table, in the order in which they start: higher priority first, then spawn order. -/
def State.gangs (s : State) : List (List (Nat × TaskEnt)) :=
  let orders := ((s.taskList.filter (·.2.st.live)).map (·.2.order)).eraseDups
  orders.foldl (fun acc o => insGang (s.liveGang o) (fun a b => decide (b.pri < a.pri) || (a.pri == b.pri && decide (a.place ≤ b.place))) acc) []

def gangEnts (g : List (Nat × TaskEnt)) : List TaskEnt := g.map (·.2)

/-- A gang waits for tiles: every member READY, or every member suspended and competing. -/
def State.waitsForTiles (s : State) (g : List (Nat × TaskEnt)) : Bool :=
  !g.isEmpty && (g.all (fun e => e.2.st == .ready) || g.all fun e => s.competes e.2)

def gangBound (g : List (Nat × TaskEnt)) : Bool := g.any fun e => recRjob e.2.record != 0

/-- The tiles of a gang. -/
def gangTiles (g : List (Nat × TaskEnt)) : List Nat := g.filterMap fun e => e.2.tile.map (·.val)

/-- A gang that may be asked to suspend (R393): running, unbound, no member at `SYNC`. -/
def State.mayYield (s : State) (g : List (Nat × TaskEnt)) : Bool :=
  !g.isEmpty && !gangBound g && g.all fun e => e.2.st == .running && (match e.2.tile with
    | some t => (match (s.tileAt t).run with | .sync .. => false | _ => true)
    | none => false)

/-- Victims for a gang below a priority, the lowest priority first, then the latest. -/
def State.victims (s : State) (below : Nat) : List (List (Nat × TaskEnt)) :=
  (s.gangs.reverse).filter fun g => s.mayYield g && g.all fun e => decide (e.2.pri < below)

/-- A victim whose tiles alone let all members fit, else victims whose tiles let more of them fit, until all do (R392, R393). -/
def takeVictims (ms : List TaskEnt) : List (List (Nat × TaskEnt)) → List Nat → List Nat × Option (List Nat)
  | [], free => ([], fitTiles ms free)
  | g :: l, free =>
    match fitTiles ms free with
    | some f => ([], some f)
    | none =>
      match (g :: l).find? fun v => (fitTiles ms (free ++ gangTiles v)).isSome with
      | some v => (gangTiles v, fitTiles ms (free ++ gangTiles v))
      | none =>
        if (placeMost ms (free ++ gangTiles g)).length ≤ (placeMost ms free).length then takeVictims ms l free
        else
          let r := takeVictims ms l (free ++ gangTiles g)
          (gangTiles g ++ r.1, r.2)

/-- The tiles that READY parts of reach jobs reserve, and the tiles whose tasks are to make way for them (R392). -/
def State.boundReserve (s : State) : List Nat × List Nat :=
  (s.gangs.filter fun g => gangBound g && s.waitsForTiles g).foldl (fun (acc : List Nat × List Nat) g =>
    let free := s.freeTiles.filter fun t => !acc.1.contains t
    match takeVictims (gangEnts g) (s.victims 4) free with
    | (vs, some f) => (acc.1 ++ f, acc.2 ++ vs)
    | (_, none) => (acc.1 ++ placeMost (gangEnts g) free, acc.2)) ([], [])

/-- The free tiles that unbound gangs may take. -/
def State.openTiles (s : State) : List Nat := s.freeTiles.filter fun t => !s.boundReserve.1.contains t

/-- The first gang that fits, and those passed over; one bypassed 64 times lets none of its priority or lower go first (R30). -/
def State.pickGang (s : State) : List (List (Nat × TaskEnt)) → List Nat → Option (List (Nat × TaskEnt) × List Nat)
  | [], _ => none
  | g :: l, passed =>
    if (fitTiles (gangEnts g) s.openTiles).isSome && s.poolFits (gangEnts g) then some (g, passed)
    else if g.any fun e => decide (64 ≤ e.2.bypass) then none
    else s.pickGang l (passed ++ g.map (·.1))

/-- The gang that starts now: a part at 32 cycles before its start cycle, a replayed part as soon as it fits (log entry 17), or the
first unbound gang that fits. -/
def State.nextStart (s : State) : Option (List (Nat × TaskEnt) × List Nat) :=
  let due := fun (g : List (Nat × TaskEnt)) => gangBound g && s.waitsForTiles g && g.any fun e => match e.2.startAt with
    | some t => decide (t ≤ s.ftime.toNat + 32)
    | none => true
  match s.gangs.find? fun g => due g && (fitTiles (gangEnts g) s.freeTiles).isSome && s.poolFits (gangEnts g) with
  | some g => some (g, [])
  | none => s.pickGang (s.gangs.filter fun g => !gangBound g && s.waitsForTiles g) []

/-- Asks the tiles of a gang to suspend at their next yield point (R393, R428). -/
def State.askYield (s : State) (ts : List Nat) : State := ts.foldl (fun s t => s.modTile (tid t) fun x => { x with preempt := true }) s

/-- A pool of tiles with those of a gang, by TILEID. -/
def withTiles (pool : List Nat) (v : List (Nat × TaskEnt)) : List Nat :=
  (List.range 32).filter fun t => pool.contains t || (gangTiles v).contains t

/-- The tiles that a waiting gang takes or will take among `pool`, the open tiles and those that have been asked to suspend; with none that
fit, a victim is asked for its tiles (R393). -/
def State.askFor (a : State × List Nat) (g : List (Nat × TaskEnt)) : State × List Nat :=
  match fitTiles (gangEnts g) a.2 with
  | some f => (a.1, a.2.filter fun t => !f.contains t)
  | none =>
    let asked := fun (v : List (Nat × TaskEnt)) => (gangTiles v).any fun t => (a.1.tileAt (tid t)).preempt
    match (a.1.victims (match g.head? with | some e => e.2.pri | none => 0)).find? fun v =>
        !asked v && (fitTiles (gangEnts g) (withTiles a.2 v)).isSome with
    | some v =>
      let pool := withTiles a.2 v
      (a.1.askYield (gangTiles v), pool.filter fun t => !((fitTiles (gangEnts g) pool).getD []).contains t)
    | none => a

/-- The engine's requests for pre-emption: for the parts of reach jobs, and for each ready gang that lacks tiles. -/
def State.requestVictims (s : State) : State :=
  let s := s.askYield s.boundReserve.2
  let pool := (List.range 32).filter fun t => !s.boundReserve.1.contains t && (s.freeTiles.contains t || (s.tileAt (tid t)).preempt)
  ((s.gangs.filter fun g => !gangBound g && s.waitsForTiles g && s.poolFits (gangEnts g)).foldl State.askFor (s, pool)).1

/-! ## Starting (R144, R390, R392, R431) -/

/-- The special registers at task start (Table 6-1). -/
def startSregs (r : BitVec 1536) (i gang : Nat) (pdom : BitVec 16) (h : HostPort) : SMap Word :=
  let l : List (Nat × Nat) :=
    [(srSTATUS, (recTimed r).toNat + 2 * (!recTimed r).toNat + 4 * (recSv r).toNat), (srYBOUND, 0x10000), (srGANGID, gang), (srTASKID, i),
     (srPDOM, pdom.toNat), (srHBASE, h.defHbase.toNat), (srCASKAREA, h.defCask.toNat)]
  l.foldl (fun m e => m.set 0 e.1 (BitVec.ofNat 64 e.2)) []

/-- GANGID of a member (R391, R392). -/
def TaskEnt.gangId (e : TaskEnt) : Nat := if recRjob e.record = 0 then e.leader else 0x8000 + recRjob e.record

/-- A result writes accumulator rows, which a task start does not clear (R250). -/
def RWrite.toAcc : RWrite → Bool
  | .acc .. => true
  | _ => false

/-- A tile takes a task (R144): its entry bundle is due 32 cycles after the choice; a part of a reach job waits for its cycle. Of the
results still in flight only those of accumulator rows can be seen. -/
def Tile.begin (x : Tile) (e : TaskEnt) (i : Nat) (h : HostPort) : Tile :=
  let entry := BitVec.ofNat 64 (recEntry e.record)
  { x.vacate with
    task := some i, run := .entering (if e.startAt.isSome then 2 ^ 64 else x.rclk + 33), s := SMap.set (Reg.zero 1) 1 (scalarOf (recArg e.record)) [],
    p := [], v := [], q := [], sr := startSregs e.record i e.gangId e.pdom h, tcyc := 0, fq := [entry, entry + 64, entry + 128], yc := 0,
    inflight := x.vacate.inflight.filter fun l => l.writes.any RWrite.toAcc,
    l1 := [], plru := [], fills := [], fbuf := [], handles := [], hseen := [],
    w := x.w.map fun e => (e.1, { e.2 with ready := none }) }

/-- One member starts on a tile: its shadow tiles are taken, and the first 4 KiB from its entry fill the fetch buffer. -/
def State.startMember (s : State) (i : Nat) (t : Tid) : State :=
  match s.task i with
  | none => s
  | some e =>
    let sh := s.makeShadows e
    let s := s.setTask i (some { e with st := .running, tile := some t, bypass := 0, shadows := sh })
    let s := s.modTile t fun x => x.begin e i s.host
    let a := recEntry e.record
    s.prefill t ((List.range ((a + 4095) / 256 - a / 256 + 1)).map (· + a / 256))

/-! ## Retirement (R407) and redirect switches (R389) -/

/-- A step of the tile that `HALT` waits for has not performed: pipe pushes, marks and bindings, counter increments, spawns, global
atomics, collectives before their start (R379, R407). -/
def Ev.haltOf (t : Tid) : Ev → Bool
  | .pipePush u .. => u == t
  | .pipeMark u .. => u == t
  | .pipeBind u .. => u == t
  | .counterWrite _ _ _ u _ => u == some t
  | .tspawn u .. => u == t
  | .l2Atomic u .. => u == t
  | .coll u .. => u == t
  | _ => false

/-- The conditions of R407, with the release of R203. -/
def State.mayRetire (s : State) (t : Tid) : Bool :=
  let x := s.tileAt t
  x.run == .halted && x.mq.isEmpty && x.copies.isEmpty && (x.ce.all fun e => e.2.st == .idle || e.2.st == .stopped) &&
  (x.handles.all fun h => h.2.settled 2) && !(s.agenda.any fun e => e.ev.haltOf t) && s.releaseEnds t (s.now + 1) 1 false

/-- A member that could not be replayed keeps the rest of its gang from it when it has retired (R403). -/
def State.spend (s : State) (e : TaskEnt) : State :=
  if recRepl e.record && !e.effect && !e.spent then s
  else (s.liveGang e.order).foldl (fun s m => s.modTask m.1 fun d => { d with spent := true }) s

/-- A retired entry is freed when it holds no shadow tile. -/
def State.retireEntry (s : State) (i : Nat) : State :=
  match s.task i with
  | none => s
  | some e => ((s.spend e).setTask i (if e.shadows.isEmpty then none else some { e with st := .retired, tile := none })).rootEnds e

/-- The effects of R407 on the resident task; the tile is free. -/
def State.retire (s : State) (t : Tid) : State :=
  match s.taskOf t with
  | none => s
  | some (i, e) =>
    let s := (s.clearL1 t).leaveTile t .leaving
    let s := if recDv e.record then s.schedule s.now (ordEngine t) (.counterWrite (recDone e.record) false 1 none s.now) else s
    s.retireEntry i

/-- A shadow tile may switch: every earlier task whose boxes overlap its tile has retired, and its earlier switches have taken place. -/
def State.maySwitch (s : State) (e : TaskEnt) (h : Shadow) : Bool :=
  !(s.taskList.any fun o => decide (o.2.order < e.order) &&
    ((o.2.st != .retired && (recReads o.2.record ++ recWrites o.2.record).any fun b => boxCovers b h.id h.coord) ||
     o.2.shadows.any fun g => g.id == h.id && g.coord == h.coord))

/-- A task with a shadow tile that may switch. -/
def State.switchReady (s : State) : Option Nat :=
  (s.taskList.find? fun e => e.2.st == .retired && e.2.shadows.any fun h => s.maySwitch e.2 h).map (·.1)

/-- The contents of a shadow tile become the tensor's. -/
def State.switchTile (s : State) (h : Shadow) : State :=
  ((h.bytes.map (· / 8)).eraseDups).foldl (fun s g =>
    let v := h.store.gran g
    s.memWrite none { g := g, d := v.d, r := v.r, bad := v.bad, mask := BitVec.ofNat 8 (((List.range 8).filter fun i => h.bytes.contains (8 * g + i)).map (2 ^ ·)).sum }) s

/-- REDIRECT_SWITCH (R389). -/
def execRedirectSwitch (s : State) : Host.Outcome State Fault Refusal :=
  let i := s.arg.n
  match s.task i with
  | none => .next s
  | some e =>
    if e.st ≠ .retired then .next s
    else
      let go := e.shadows.filter fun h => s.maySwitch e h
      let s := go.foldl (fun s h => s.switchTile h) s
      let e := { e with shadows := e.shadows.filter fun h => !go.contains h }
      .next (s.setTask i (if e.shadows.isEmpty then none else some e))

/-! ## Reach jobs (R392) -/

/-- REACH_JOB_START: the members of the parts of entry `arg.n` issue. -/
def execReachJobStart (s : State) : Host.Outcome State Fault Refusal :=
  .next (s.taskList.foldl (fun s e =>
    match e.2.tile, e.2.startAt with
    | some t, some c =>
      if recRjob e.2.record = s.arg.n ∧ c ≤ s.ftime.toNat ∧ (s.tileAt t).run = .entering (2 ^ 64) then
        s.modTile t fun x => { x with run := .entering x.rclk }
      else s
    | _, _ => s) s)

/-- An entry whose parts issue now. -/
def State.jobDue (s : State) : Option Nat :=
  (s.taskList.find? fun e => match e.2.tile, e.2.startAt with
    | some t, some c => decide (c ≤ s.ftime.toNat) && (s.tileAt t).run == .entering (2 ^ 64)
    | _, _ => false).map fun e => recRjob e.2.record

def TState.unstarted : TState → Bool
  | .created => true
  | .waiting => true
  | .ready => true
  | _ => false

/-- A part that has not started at 32 cycles before its cycle. -/
def State.partLate (s : State) : Option Nat :=
  (s.taskList.find? fun e => e.2.st.unstarted && (match e.2.startAt with
    | some c => decide (c ≤ s.ftime.toNat + 32)
    | none => false)).map (·.1)

/-- A part fails with reason 6, which the host is told of when it is replayed too. -/
def State.failPart (s : State) (i : Nat) : State :=
  let s := s.failTask i 6 0 0
  match s.task i with
  | some e => if e.st = .ready then s.event srcTask 0 evFailed (i + 6 * 2 ^ 16) else s
  | none => s

/-- PART_NOT_READY: the late parts of entry `arg.n` fail. -/
def execPartNotReady (s : State) : Host.Outcome State Fault Refusal :=
  let late := s.taskList.filter fun e => recRjob e.2.record == s.arg.n && e.2.st.unstarted && (match e.2.startAt with
    | some c => decide (c ≤ s.ftime.toNat + 32)
    | none => false)
  .next (((late.map (·.2.order)).eraseDups).foldl (fun s o =>
    match late.find? fun e => e.2.order == o with
    | some e => s.failPart e.1
    | none => s) s)

/-! ## Counters and tasks in the C and Y slots (R384, R385, R404 to R406) -/

/-- A counter write performs at the array. -/
def State.counterWrite (s : State) (k : Nat) (set_ : Bool) (v : Word) : State :=
  if set_ then s.setCounter k (Reg.fresh 1 v.toNat) else s.addCounter k v.toNat false

/-- `CREAD` reads the array. -/
def State.counterRead (s : State) (t : Tid) (id k : Nat) : State := s.modTile t fun x => x.fill id (fillScalar (s.counter k))

/-- The release of `.rel` (R384): as `FENCE.rel.basin`, with a cause of its own in timed mode. -/
def State.relGate (s : State) (rel : Bool) (number : Nat) : List Flt × Option (Wait × State) :=
  if !rel then ([], none)
  else if s.tile.timed then (if s.remoteDone s.cur 2 then [] else [s.tile.classS 6 0xB (taskInfo 2 number)], none)
  else s.releaseGate 6 2 false

def State.relAct (s : State) (rel : Bool) : State := if rel then s.closeCombine s.cur else s

def ctrOf (v : Nat) : Nat := bits v 0 12

/-- R384. -/
def execCinc (f : CF) (s : State) : Host.Outcome State Fault Refusal :=
  let x := s.tile
  let k := ctrOf (x.sv f.a.toNat)
  let n := if f.b = 0 then 1 else x.sv f.b.toNat
  let g := s.relGate (bit f.x.toNat 0) k
  s.issueSlot (.cinc f) [] (x.cCond f) (x.consumeS 6 0 f.a.toNat ++ x.consumeS 6 1 f.b.toNat ++ g.1) g.2
    (((s.relAct (bit f.x.toNat 0)).markEffect s.cur).schedule (s.now + 16) (ordEngine s.cur)
      (.counterWrite k false (BitVec.ofNat 64 n) (some s.cur) s.now))

/-- R384. -/
def execCread (f : CF) (s : State) : Host.Outcome State Fault Refusal :=
  let x := s.tile
  let n := s.newId
  s.issueSlot (.cread f) [] (x.cCond f) (x.consumeS 6 0 f.a.toNat) none
    ((n.2.landWaiting 6 20 [.scalar f.d (.zero 1)] n.1).schedule (s.now + 16) ordRead (.counterRead s.cur n.1 (ctrOf (x.sv f.a.toNat))))

/-- R384. -/
def execCset (f : CF) (s : State) : Host.Outcome State Fault Refusal :=
  let x := s.tile
  s.issueSlot (.cset f) [] (x.cCond f) (x.consumeS 6 0 f.a.toNat ++ x.consumeS 6 1 f.b.toNat) none
    (s.schedule (s.now + 16) (ordEngine s.cur) (.counterWrite (ctrOf (x.sv f.a.toNat)) true (BitVec.ofNat 64 (x.sv f.b.toNat)) none s.now))

/-- R385. -/
def execWaitc (f : YF) (s : State) : Host.Outcome State Fault Refusal :=
  let x := s.tile
  let k := ctrOf (x.sv (YF.a f))
  let thr := x.sv (YF.b f)
  let met := s.counterMet k thr
  s.issueSlot (.waitc f) [] (x.yCond f)
    (x.consumeS 7 0 (YF.a f) ++ x.consumeS 7 1 (YF.b f) ++ (if x.timed && !met then [x.classS 7 0xB (taskInfo 1 k)] else []))
    (if !x.timed && !met then some (.counter k thr, s) else none) (s.acquireTile s.cur s.now)

/-- Sets the effect flag of the resident task. -/
def State.teffect (s : State) (t : Tid) (v : Bool) : State :=
  match (s.tileAt t).task with
  | none => s
  | some i => s.modTask i fun e => { e with effect := v }

/-- R404. -/
def execTeffect (f : CF) (s : State) : Host.Outcome State Fault Refusal :=
  let x := s.tile
  let v := match s.taskOf s.cur with | some (_, e) => e.effect.toNat + 2 ^ 8 * e.fails | none => 0
  s.issueSlot (.teffect f) (if modeX f = 2 then privErr 6 x.sv? else []) (x.cCond f) [] none
    (if modeX f = 0 then s.land 6 2 [.scalar f.d (scalarOf v)]
     else s.schedule (s.now + 1) (ordEngine s.cur) (.teffect s.cur (modeX f == 1)))

/-- A task record in scratchpad. -/
def Tile.taskRecord (x : Tile) (a : Nat) : BitVec 1536 :=
  BitVec.ofNat 1536 (packNat 64 ((List.range 24).map fun k => (x.pad.gran (a / 8 + k)).d.toNat))

/-- The local checks of the records' address (R405). -/
def spawnAddr (x : Tile) (a n : Nat) : List Flt :=
  if padSize < a + 192 then [x.localT 6 1 a]
  else if a % 64 ≠ 0 then [x.localT 6 3 a]
  else if padSize < a + 192 * n then [x.localT 6 1 a]
  else []

/-- The first bad granule of the records, at operand 6. -/
def Tile.spawnBad (x : Tile) (a n : Nat) : List Flt :=
  match (List.range (24 * n)).find? fun k => (x.pad.gran (a / 8 + k)).bad with
  | none => []
  | some k =>
    let g := a / 8 + k
    [(rankI 6, x.issueTrap clsI (badLow (x.pad.gran g)) (badInfo 6 6 0 (g % 32) (x.pad.gran g)))]

/-- The first failing record and its lowest failing field. -/
def Tile.spawnErrs (x : Tile) (rs : List (BitVec 1536)) : List Flt :=
  match (rs.mapIdx fun j r => (j, taskErrs (rs.headD 0) r j)).find? fun p => !p.2.isEmpty with
  | some (j, p :: _) => [x.recTrap 6 j p.1 p.2]
  | _ => []

/-- R405, R406. -/
def execTspawn (f : CF) (s : State) : Host.Outcome State Fault Refusal :=
  let x := s.tile
  let a := x.sv f.a.toNat
  let n := recGang (x.taskRecord a) + 1
  let addr := spawnAddr x a n
  let rs := (List.range n).map fun j => x.taskRecord (a + 192 * j)
  let g := s.relGate (bit f.x.toNat 0) 0
  s.issueSlot (.tspawn f) [] (x.cCond f)
    (x.consumeS 6 0 f.a.toNat ++ addr ++ (if addr.isEmpty then x.spawnBad a n ++ x.spawnErrs rs else []) ++ g.1) g.2
    (((s.relAct (bit f.x.toNat 0)).markEffect s.cur).unitScalar f.d 24 (ordEngine s.cur) fun n => .tspawn s.cur n rs x.pdom x.sv?)

end Sys2Proof.Machine
end

