-- ==== Sys2Proof/Machine/Cask.lean ====
section
/-! DEFINITION. Casks: header and sections (R439 to R442, R475), capture of a tile (R448, R449), and how a cask is put back onto a tile
(R455). -/

namespace Sys2Proof.Machine

/-! ## Header fields (Table 16-1): first bit and width -/

abbrev hfMagic := (0, 32)
abbrev hfMajor := (32, 8)
abbrev hfMinor := (40, 8)
abbrev hfState := (48, 8)
abbrev hfFlags := (56, 8)
abbrev hfGen := (64, 16)
abbrev hfPdom := (80, 16)
abbrev hfHrank := (96, 16)
abbrev hfOtile := (112, 8)
abbrev hfLevel := (120, 8)
abbrev hfHome := (128, 64)
abbrev hfSize := (192, 64)
abbrev hfOutst := (256, 32)
abbrev hfSecmask := (288, 16)
abbrev hfTask := (304, 16)
abbrev hfOrights := (320, 8)
abbrev hfXrights := (328, 8)
abbrev hfGang := (336, 16)
abbrev hfMember := (352, 8)
abbrev hfNmem := (360, 8)
abbrev hfHeld := (368, 16)
abbrev hfFtime := (384, 64)
abbrev hfTcyc := (448, 64)

/-- A field of a header. -/
def hget (h : Nat) (f : Nat × Nat) : Nat := bits h f.1 f.2

/-- A number with some fields set. -/
def packFields (l : List ((Nat × Nat) × Nat)) : Nat := l.foldl (fun a f => a ||| ((f.2 % 2 ^ f.1.2) <<< f.1.1)) 0

def caskMagic := 0x4B534143
def csSealed := 1
def csAnchored := 2
def csClaimed := 3
def csSpent := 4
def csDiscarded := 5

/-- A header that is a cask: its first wrong field, if any (R453). -/
def headerErr (h : Nat) : Option (Nat × Nat) :=
  if hget h hfMagic ≠ caskMagic then some hfMagic
  else if hget h hfMajor ≠ 1 then some hfMajor
  else if hget h hfMinor ≠ 0 then some hfMinor
  else if hget h hfState < 1 ∨ 5 < hget h hfState then some hfState
  else none

/-! ## Sections (R440) -/

/-- Rows of 256 bytes in a section. -/
def secRows (banks : Nat) (k : Nat) : Nat :=
  match k with
  | 0 => 6
  | 1 => 324
  | 2 => 4
  | 3 => 1
  | 4 => 216
  | 5 => 4
  | 6 => 16
  | 7 => 2050
  | 8 => 528
  | 9 => 1 + 129 * ((List.range 64).filter fun b => bit banks b).length
  | 10 => 192
  | 11 => 4
  | _ => 4

/-- The sections that a cask has. -/
def secsOf (mx : Bool) (banks : Nat) (trap img : Bool) : List Nat :=
  [0, 1, 2, 3, 4, 5, 6] ++ (if mx then [7, 8] else []) ++ (if banks ≠ 0 then [9] else []) ++ (if trap && img then [10] else []) ++ [11] ++
    (if trap then [12] else [])

/-- Sections with their first rows and lengths in rows, after the header's row. -/
def secTable (banks : Nat) (ks : List Nat) : List (Nat × Nat × Nat) :=
  (ks.foldl (fun (a : List (Nat × Nat × Nat) × Nat) k => (a.1 ++ [(k, a.2, secRows banks k)], a.2 + secRows banks k)) ([], 1)).1

def Susp.table (u : Susp) : List (Nat × Nat × Nat) :=
  secTable u.banks.toNat (secsOf u.mx u.banks.toNat u.trap (!u.image.isEmpty))

/-- Bytes of a cask with these options. -/
def caskSize (mx : Bool) (banks : Nat) (trap img : Bool) : Nat :=
  256 * ((secTable banks (secsOf mx banks trap img)).foldl (fun n e => max n (e.2.1 + e.2.2)) 1)

/-! ## Section contents -/

/-- Row `i` of granules numbered from 0. -/
def rowOf32 (f : Nat → Gran) (i : Nat) : Reg 32 := Reg.ofGrans 32 ((List.range 32).map fun j => f (32 * i + j))

/-- Fresh granules of a number. -/
def freshRow (v i : Nat) : Reg 32 := Reg.fresh 32 (bits v (2048 * i) 2048)

def sec0 (x : Tile) : Nat → Reg 32 := rowOf32 fun j =>
  if j < 64 then (x.scalar j).gran 0 else (x.pred ((j - 64) / 4)).gran ((j - 64) % 4)

def sec1 (x : Tile) (i : Nat) : Reg 32 := if i < 320 then x.vec i else x.latch (i - 320)

/-- Special registers by number; those that name the tile, and FTIME, are 0. -/
def sec2 (x : Tile) : Nat → Reg 32 := rowOf32 fun j =>
  Gran.fresh (if j = 6 then x.tcyc else if 7 ≤ j ∧ j ≤ 11 then 0 else x.sreg j)

def sec3 (x : Tile) (e : TaskEnt) (owed : Nat) : Nat → Reg 32 := freshRow (packFields
  [((0, 64), (x.fq.getD 0 0).toNat), ((64, 64), (x.fq.getD 1 0).toNat), ((128, 64), (x.fq.getD 2 0).toNat), ((192, 64), owed),
   ((256, 64), x.yc.toNat), ((320, 16), e.gen.toNat), ((336, 1), e.effect.toNat), ((344, 2), e.fails)])

/-- An entry of the snapshot section: kind, number, value, mask, latency, CAUSE of a carried fault. -/
structure SnapEnt where
  kind : Nat
  num : Nat
  val : List Gran
  mask : Nat
  lat : Nat
  cause : Nat

/-- The entries of one result; one that carries a fault has the fault alone. -/
def Landing.entries (l : Landing) : List SnapEnt :=
  let of := fun (c : Nat) (w : RWrite) => match w with
    | .scalar n v => [SnapEnt.mk 0 n.toNat v.grans 0 l.due c]
    | .pred n v _ => [SnapEnt.mk 1 n.toNat v.grans 0 l.due c]
    | .vec n v m q => SnapEnt.mk 2 n v.grans m.toNat l.due c ::
        (match q with | some q => [SnapEnt.mk 3 q.val v.grans m.toNat l.due c] | none => [])
    | .latch q v m => [SnapEnt.mk 3 q.val v.grans m.toNat l.due c]
    | .acc n v m => [SnapEnt.mk 4 n v.grans m.toNat l.due c]
    | .sreg n v => [SnapEnt.mk 5 n [Gran.fresh v] 0 l.due c]
  match l.fault, l.writes with
  | some q, [] => [SnapEnt.mk 0 0 [.zero] 0 l.due (q.cls.toNat * 16 + q.low.toNat)]
  | some q, w :: _ => (of (q.cls.toNat * 16 + q.low.toNat) w).take 1
  | none, ws => ws.flatMap (of 0)

/-- Results by rising landing cycle, those of one cycle in the order of R151. -/
def insDue (l : Landing) : List Landing → List Landing
  | [] => [l]
  | m :: ms => if m.due ≤ l.due then m :: insDue l ms else l :: m :: ms

def byDue (ls : List Landing) : List Landing := (sortLandings ls).foldl (fun acc l => insDue l acc) []

/-- What predicates and vector registers hold as results land one after another. -/
structure Landed where
  p : SMap (Reg 4)
  v : SMap (Reg 32)
  ws : List RWrite

/-- One more write: a predicate written in part becomes whole, since an entry has no mask for it (log entry 19), and a latch takes what its
register then holds (R122). -/
def Landed.add (x : Tile) (a : Landed) (w : RWrite) : Landed :=
  match w with
  | .pred n v m =>
    let old := match a.p.find? fun p => p.1 == n.toNat with | some p => p.2 | none => x.pred n.toNat
    let new := (mergePred old v m.toNat).1
    { a with p := (n.toNat, new) :: a.p, ws := a.ws ++ [.pred n new (2 ^ 256 - 1)] }
  | .vec n v m q =>
    let old := match a.v.find? fun p => p.1 == n with | some p => p.2 | none => x.vec n
    let new := (mergeReg old v m.toNat).1
    { a with v := (n, new) :: a.v,
             ws := a.ws ++ .vec n v m none :: (match q with | some q => [.latch q new (BitVec.ofNat 256 (2 ^ 256 - 1))] | none => []) }
  | w => { a with ws := a.ws ++ [w] }

/-- The results of a snapshot with predicates and latches whole. -/
def mergeParts (x : Tile) (ls : List Landing) : List Landing :=
  (ls.foldl (fun (a : Landed × List Landing) l =>
    if l.fault.isSome then (a.1, a.2 ++ [l])
    else
      let r := l.writes.foldl (Landed.add x) { a.1 with ws := [] }
      (r, a.2 ++ [{ l with writes := r.ws }])) (⟨[], [], []⟩, [])).2

/-- The entries of faults that a `.trap` cask finds held since trap entry (R449): they are raised at c again, class T of memory slots at
the next cycle. Registers and TRAPINFO are those of a fault without a value. -/
def heldEnts (x : Tile) : List SnapEnt :=
  let of := fun (lat : Nat) (q : TrapReq) => SnapEnt.mk 0 0 [.zero] 0 lat (q.cls.toNat * 16 + q.low.toNat)
  (x.heldF.map fun f => of 0 f.2.2) ++ (x.heldX.toList.map (of 0)) ++ x.heldT.map fun q => of 1 q.2

/-- The entries of the snapshot: the bound of R418 leaves room for all of them. -/
def snapEnts (x : Tile) : List SnapEnt :=
  (heldEnts x ++ (mergeParts x (byDue (x.snapshot.filter fun l => decide (l.due < 2 ^ 59)))).flatMap Landing.entries).take 96

/-- A granule of a snapshot entry (R441). -/
def SnapEnt.gran (e : SnapEnt) (k : Nat) : Gran :=
  if k < 64 then e.val.getD k .zero
  else if k = 64 then
    Gran.fresh (BitVec.ofNat 64 (packFields [((0, 3), e.kind), ((3, 10), e.num), ((13, 16), e.lat), ((32, 8), e.cause), ((40, 1), 1)]))
  else Gran.fresh (BitVec.ofNat 64 (bits e.mask (64 * (k - 65)) 64))

def sec4 (x : Tile) (i : Nat) : Reg 32 :=
  let es := snapEnts x
  rowOf32 (fun j => match es[j / 72]? with | some e => e.gran (j % 72) | none => .zero) i

/-- A handle record (Table 11-5). -/
def Handle.word (h : Handle) : Nat := packFields
  [((0, 32), h.iss.toNat), ((32, 32), h.loc.toNat), ((64, 32), h.acc.toNat), ((96, 32), h.vis.toNat), ((128, 32), h.fail.toNat),
   ((160, 32), h.fidx.toNat), ((192, 5), h.ferr.toNat), ((197, 1), h.psn.toNat)]

def Handle.ofWord (v : Nat) : Handle :=
  { iss := BitVec.ofNat 32 (bits v 0 32), loc := BitVec.ofNat 32 (bits v 32 32), acc := BitVec.ofNat 32 (bits v 64 32),
    vis := BitVec.ofNat 32 (bits v 96 32), fail := BitVec.ofNat 32 (bits v 128 32), fidx := BitVec.ofNat 32 (bits v 160 32),
    ferr := BitVec.ofNat 5 (bits v 192 5), psn := bit v 197 }

def sec5 (x : Tile) (i : Nat) : Reg 32 := Reg.fresh 32 (packNat 256 ((List.range 8).map fun k => (x.handle (8 * i + k)).word))

/-- The mode word (R475). -/
def CopyCfg.modeWord (c : CopyCfg) : Nat := packFields
  [((0, 2), c.path.toNat), ((2, 3), c.op.toNat), ((5, 5), c.type.toNat), ((10, 8), c.tag.toNat), ((18, 2), c.tagmode.toNat),
   ((20, 1), c.cvt.toNat), ((21, 1), c.tensor.isSome.toNat), ((22, 4), match c.tensor with | some t => t.op.toNat | none => 0)]

/-- The tensor block and the tensor record (R475). -/
def CopyCfg.tensorBlock (c : CopyCfg) : Nat :=
  match c.tensor with
  | none => 0
  | some t => packFields
      ([((0, 16), t.id.toNat), ((16, 8), t.rb.toNat), ((24, 8), c.tag.toNat), ((32, 8), c.tagmode.toNat), ((256, 768), t.record.toNat)] ++
       (t.org.mapIdx fun l v => ((64 * (1 + l / 3) + 20 * (l % 3), 20), wrapI 20 v)))

/-- Block of a copy engine: `at_` is the tile cycle of the next emission. The indices of a nest of lines are the line number in i_0. -/
def CopyEngine.block (g : CopyEngine) (at_ : Nat) : Nat :=
  let c := g.cfg
  let b := fun o n v => ((8 * o, 8 * n), v)
  packFields
    ((g.bfmt.map fun r => b (8 * r.1) 8 r.2.toNat) ++ (g.rowmap.map fun k => ((8 * 512 + k % 8192, 1), 1)) ++
     ((c.lv.mapIdx fun l v => [b (1536 + 24 * l) 8 v.n.toNat, b (1544 + 24 * l) 8 v.ss.toNat, b (1552 + 24 * l) 8 v.ds.toNat]).flatMap id) ++
     [b 1680 8 c.src.toNat, b 1688 8 c.dst.toNat, b 1696 8 c.m.toNat, b 1704 8 c.modeWord] ++
     ((List.range 6).map fun l => b (1712 + 4 * l) 4 (if c.tensor.isSome then (if l = 0 then g.cn else 0) else c.index g.cn l)) ++
     [b 1736 8 g.word, b 1744 8 at_, b 1752 128 c.tensorBlock])

/-- The tile cycle of an engine's next emission: 0 for one that does not wait to emit. -/
def Tile.emitAt (x : Tile) (g : CopyEngine) : Nat := if g.st == .armed || g.st == .running then x.tcyc.toNat + (g.next - x.mclk) else 0

def sec6 (x : Tile) (i : Nat) : Reg 32 := let g := x.engine (8 ≤ i); freshRow (g.block (x.emitAt g)) (i % 8)

/-- Two row sums, each half of a granule. -/
def rsGran (x : Tile) (j : Nat) : Gran :=
  let a := (x.rowSum (2 * j)).gran 0
  let b := (x.rowSum (2 * j + 1)).gran 0
  let d : Word := BitVec.ofNat 64 (a.d.toNat % 2 ^ 32 + (b.d.toNat % 2 ^ 32) * 2 ^ 32)
  ⟨d, rindOf (a.bad || b.bad) d⟩

def sec7 (x : Tile) (i : Nat) : Reg 32 :=
  if i < 2048 then rowOf32 (fun j => (x.acc (j / 64)).gran (j % 64)) i else rowOf32 (rsGran x) (i - 2048)

/-- Rows of codes in an image, and records that each of them has. -/
def WSlot.codeRows (v : WSlot) : Nat := v.kl * 128 * Check.tyWidth (v.fmt.toNat % 32) / 2048
def WSlot.rowRecs (v : WSlot) : Nat := if isQg v.fmt.toNat then 2048 / Check.tyWidth (v.fmt.toNat % 32) / imageG v.fmt.toNat else 0

/-- Granule `j` of an image as stored: its codes, then its group records. -/
def WSlot.granAt (v : WSlot) (j : Nat) : Gran :=
  let n := v.codeRows
  if j < 32 * n then (v.rows.get (.zero 32) (j / 32)).gran (j % 32)
  else
    let q := v.rowRecs / 2
    let k := j - 32 * n
    if q = 0 then .zero else if k / q < n then (v.recs.get (.zero 32) (k / q)).gran (k % q) else .zero

/-- A row of a slot's 33,792 bytes. -/
def WSlot.row (v : WSlot) (i : Nat) : Reg 32 :=
  if i < 128 then (if v.ready.isSome then rowOf32 v.granAt i else .zero 32)
  else if i < 130 then (if v.ready.isSome ∧ i = 128 then
    Reg.fresh 32 (packFields [((0, 8), 2), ((8, 8), v.mode), ((16, 16), v.kl), ((32, 8), v.fmt.toNat)]) else .zero 32)
  else if v.ready.isSome then rowOf32 (fun j => v.colsum.gran j) (i - 130) else .zero 32

def sec8 (x : Tile) (i : Nat) : Reg 32 := (x.w.get .empty (i / 132)).row (i % 132)

/-- The banks of a mask. -/
def bankList (banks : Nat) : List Nat := (List.range 64).filter fun b => bit banks b

def sec9 (x : Tile) (banks i : Nat) : Reg 32 :=
  if i = 0 then Reg.fresh 32 banks
  else
    let b := (bankList banks).getD ((i - 1) / 129) 0
    let r := (i - 1) % 129
    if r < 128 then x.pad.reg ((b * 128 + r) * 32) 32
    else Reg.fresh 32 (packNat 8 ((List.range 128).map fun k => (x.tag (b * 128 + k)).toNat))

/-- Locks and open access records of a tile (section 11). -/
def State.heldEnts (s : State) (t : Tid) : List Nat :=
  let ent := fun (k rank win h : Nat) => packFields [((0, 2), k), ((8, 13), rank), ((24, 8), win), ((32, 5), h)]
  (((s.locks.filter fun l => l.tile == t).map fun l => ent (if l.ex then 1 else 0) l.rank l.win l.holder.val) ++
   ((s.accRecs.filter fun r => r.tile == some t && !r.closing).map fun r => ent (if r.open_ then 3 else 2) r.rank r.win t.val)).take 63

def sec11 (s : State) (t : Tid) : Nat → Reg 32 :=
  let l := s.heldEnts t
  freshRow (l.length + (packNat 128 l) * 2 ^ 128)

/-- The scalars that a slot's operand log keeps: L base and index, T base, value and comparand, C a, b, c and d. -/
def logScalars (k w : Nat) : List Nat :=
  match k with
  | 4 => let f := LF.ofNat w; [f.base.toNat, f.x.toNat]
  | 5 => let f := TF.ofNat w; [f.base.toNat, if 328 ≤ f.data.toNat then f.data.toNat - 328 else f.data.toNat % 64,
                               bits f.data.toNat 6 3 + 8 * f.hi.toNat]
  | _ => let f := CF.ofNat w; [f.a.toNat, f.b.toNat, f.c.toNat, f.d.toNat]

def logPred (k w : Nat) : Nat :=
  match k with
  | 4 => (LF.ofNat w).pred.toNat
  | 5 => (TF.ofNat w).pred.toNat
  | _ => (CF.ofNat w).pred.toNat

/-- Granule `j` of a slot's 320 bytes of operand log: vector data, predicate, scalars (log entry 19). -/
def logGran (x : Tile) (k j : Nat) : Gran :=
  match x.oplog.find? fun e => e.slot == k with
  | none => .zero
  | some e =>
    let y := x.withLog e
    let w := match encode e.instr with | some p => p.2 | none => 0
    if j < 32 then (if k = 5 then (y.vec ((TF.ofNat w).data.toNat % 320)).gran j else .zero)
    else if j < 36 then (y.pred (logPred k w)).gran (j - 32)
    else match (logScalars k w)[j - 36]? with | some n => (y.scalar n).gran 0 | none => .zero

def sec12 (x : Tile) : Nat → Reg 32 := rowOf32 fun j =>
  match j with
  | 0 => Gran.fresh (x.sreg srCAUSE)
  | 1 => Gran.fresh (x.sreg srTRAPPC)
  | 2 => Gran.fresh (x.sreg srTRAPINFO)
  | 3 => Gran.fresh (x.sreg srSLOTDONE)
  | 4 => Gran.fresh (x.sreg srTRAPNX)
  | 5 => Gran.fresh (x.sreg (srTRAPNX + 1))
  | 6 => Gran.fresh x.tcyc
  | 7 => Gran.fresh (x.sreg (srTRAPNX + 2))
  | _ => if j < 128 then logGran x (4 + (j - 8) / 40) ((j - 8) % 40) else .zero

/-- Row `i` of section `k` of the cask of a tile. -/
def State.secRow (s : State) (t : Tid) (e : TaskEnt) (u : Susp) (k i : Nat) : Reg 32 :=
  let x := s.tileAt t
  match k with
  | 0 => sec0 x i
  | 1 => sec1 x i
  | 2 => sec2 x i
  | 3 => sec3 x e (if u.trap then x.snapRpt else x.rpt) i
  | 4 => sec4 x i
  | 5 => sec5 x i
  | 6 => sec6 x i
  | 7 => sec7 x i
  | 8 => sec8 x i
  | 9 => sec9 x u.banks.toNat i
  | 10 => u.image.getD i (.zero 32)
  | 11 => sec11 s t i
  | _ => sec12 x i

/-! ## Memory of a cask -/

/-- The physical byte of an address in a cask's pages. -/
def pageByte (pages : SMap Nat) (va : Nat) : Option Nat :=
  let b := pages.get 1 (va / 2 ^ 16)
  if b = 1 then none else some (b + va % 2 ^ 16)

/-- The 64 KiB pages of `n` bytes from `va`, as the tables give them; a page that is not mapped is left out. -/
def State.caskPages (s : State) (pdom : BitVec 16) (va n : Nat) : SMap Nat :=
  (List.range ((va + n - 1) / 2 ^ 16 - va / 2 ^ 16 + 1)).foldl (fun m k =>
    let p := va / 2 ^ 16 + k
    m.set 1 p (match s.physOf pdom (p * 2 ^ 16) with | some a => a | none => 1)) []

/-- Bytes 256i to 256i + 255 of a cask. -/
def State.caskRow (s : State) (pages : SMap Nat) (va i : Nat) : Reg 32 :=
  match pageByte pages (va + 256 * i) with
  | some a => s.memReg none (a / 8) 32
  | none => .zero 32

def State.putCaskRow (s : State) (pages : SMap Nat) (va i : Nat) (v : Reg 32) : State :=
  match pageByte pages (va + 256 * i) with
  | some a => s.memWrites none (gwCarry (a / 8) v (2 ^ 256 - 1))
  | none => s

/-- A header field is set in one step (R443). -/
def State.setHeader (s : State) (pages : SMap Nat) (va : Nat) (f : Nat × Nat) (v : Nat) : State :=
  match pageByte pages va with
  | some a => s.memWrites none (gwBytes (a + f.1 / 8) (f.2 / 8) v false)
  | none => s

/-- The header of the cask at an address. -/
def State.caskHeader (s : State) (pages : SMap Nat) (va : Nat) : Nat := (s.caskRow pages va 0).d.toNat

/-- Granule `j` of a section that starts `off` bytes into a cask. -/
def State.caskGran (s : State) (pages : SMap Nat) (va off j : Nat) : Gran :=
  match pageByte pages (va + off + 8 * j) with
  | some a => s.memGran none (a / 8)
  | none => .zero

/-- Offset of a section, where present. -/
def secOffset (h k : Nat) : Option Nat := if bit (hget h hfSecmask) k then some (bits h (8 * (0x60 + 8 * k)) 32) else none

/-! ## Capture (R448, R449, R450) -/

/-- Operations of the tile's handles that are outstanding (R444). -/
def outstanding (hs : List Handle) : Nat := ((hs.map fun h => (h.iss - h.vis - h.fail).toNat).sum) % 2 ^ 32

/-- The tile stops at its tile cycle c: results in flight are captured with what is left of their latency, and their sticky flags are
merged, since an entry has none (log entry 19). A `.trap` suspension keeps the capture made at trap entry. -/
def Tile.capture (x : Tile) (trap : Bool) : Tile :=
  let x := if trap then x
    else
      let fp := x.inflight.foldl (fun f l => f ||| l.fp) 0
      let st := x.inflight.foldl (fun f l => f ||| l.st) 0
      let x := (x.setSreg srFPCTL (x.sreg srFPCTL ||| fp)).setSreg srSTATUS (x.sreg srSTATUS ||| st)
      let owed := x.rpt
      { x.takeSnapshot with snapRpt := 0, rpt := owed }
  { (x.setSt stTDL true) with run := .draining, mheld := true, frozen := none, preempt := false, atYield := false, ceded := false }

/-- The tile stops for its cask (R448); c of `.trap` is the cycle of its trap entry (R449). -/
def State.capture (s : State) (t : Tid) : State :=
  s.modTile t fun x =>
    let x := x.capture (match x.susp with | some u => u.trap | none => false)
    { x with susp := x.susp.map fun u => { u with ftime := if u.trap then x.trapFt else s.ftime } }

/-- The tile is to capture now; a bundle finished in part comes first, in full (R428). -/
def Tile.capturing (x : Tile) : Bool :=
  match x.susp with
  | some u => x.rpt == 0 && (!x.trp || u.trap) && !x.inPart
  | none => false

/-- What the cask unit waits for (R448, step 2): the copies, the stores, the global loads and atomics, the handles, and the operations that
land in scratchpad. -/
def State.drained (s : State) (t : Tid) : Bool :=
  let x := s.tileAt t
  x.run == .draining && x.copies.isEmpty && !s.storesOut t (s.now + 1) && decide (x.mxBusy ≤ s.now) &&
  !(x.snapshot.any fun l => l.waiting && l.hold && decide (l.due < 2 ^ 59)) && (x.handles.all fun h => h.2.settled 0) &&
  !(s.ops.any fun o => o.tile == t && o.cask.isNone && !o.glob && !o.vis && !o.failed &&
    (match o.kind with | .get => true | .amo _ _ => true | _ => false))

/-- SUSPENSION_DRAIN_END (R448): the release of R203; the generation rises, and the rows are written from the 16th cycle on. -/
def execSuspensionDrainEnd (s : State) : Host.Outcome State Fault Refusal :=
  let t := s.arg.t
  match (s.tileAt t).susp, s.drained t with
  | some u, true =>
    let s := s.startRelease t 1
    let s := match (s.tileAt t).task with
      | some i => s.modTask i fun e => { e with gen := e.gen + 1 }
      | none => s
    let s := s.modTile t fun x => { x with run := .writing }
    .next ((s.schedule (s.now + 16) (ordEngine t) (.caskSections t 0)).plan (s.now + 16 + ceilDiv u.size 256) (ordEngine t) .caskWritten
      { EvArg.none with t := t })
  | _, _ => .next s

/-- L1 is empty once the release of R203 is complete. -/
def State.endR203 (s : State) (t : Tid) : State := if s.releaseEnds t (s.now + 1) 1 false then s.clearL1 t else s

/-- A row of a cask is written; the header and the handle block wait for the end. The array image is read in the first of these cycles. -/
def State.caskSections (s : State) (t : Tid) (row : Nat) : State :=
  let s := s.endR203 t
  let x := s.tileAt t
  match x.susp, s.taskOf t with
  | some u, some (_, e) =>
    if x.run ≠ .writing then s
    else
      let img := match x.mxAt with | some a => if u.trap then (List.range 192).map fun r => x.pad.reg (a / 8 + 32 * r) 32 else [] | none => []
      let u := if row = 0 then { u with image := img } else u
      let s := if row = 0 then s.modTile t fun x => { x with susp := some u } else s
      let s := match u.table.find? fun k => decide (k.2.1 ≤ row) && decide (row < k.2.1 + k.2.2) with
        | some k => if k.1 = 5 then s else s.putCaskRow u.pages u.va row (s.secRow t e u k.1 (row - k.2.1))
        | none => s
      if 256 * (row + 1) < u.size then s.schedule (s.now + 1) (ordEngine t) (.caskSections t (row + 1)) else s
  | _, _ => s

/-- The fields of a header up to nmem (Table 16-1). -/
def State.headerHead (s : State) (t : Tid) (e : TaskEnt) (u : Susp) (level state out : Nat) (va size : Nat) : List ((Nat × Nat) × Nat) :=
  let member := u.gang.isSome || (u.pre && decide (1 < e.nmem))
  [(hfMagic, caskMagic), (hfMajor, 1), (hfState, state),
   (hfFlags, u.pre.toNat + 2 * u.trap.toNat + 4 * u.mx.toNat + 8 * e.effect.toNat + 16 * member.toNat), (hfGen, e.gen.toNat),
   (hfPdom, (s.tileAt t).pdom.toNat), (hfHrank, s.rank), (hfOtile, t.val), (hfLevel, level), (hfHome, va), (hfSize, size), (hfOutst, out),
   (hfTask, (s.tileAt t).task.getD 0), (hfOrights, 0xF), (hfGang, (s.tileAt t).sreg srGANGID |>.toNat), (hfMember, e.member),
   (hfNmem, e.nmem - 1)]

/-- A tile cask's header. -/
def State.tileHeader (s : State) (t : Tid) (e : TaskEnt) (u : Susp) (state out : Nat) : Nat :=
  packFields (s.headerHead t e u 0 state out u.va u.size ++ [(hfFtime, u.ftime.toNat), (hfTcyc, (s.tileAt t).tcyc.toNat)] ++
    [(hfSecmask, (u.table.map fun k => 2 ^ k.1).sum), (hfHeld, (s.heldEnts t).length)] ++
    u.table.flatMap fun k => [((8 * (0x60 + 8 * k.1), 32), 256 * k.2.1), ((8 * (0x64 + 8 * k.1), 32), 256 * k.2.2)])

/-- Operations of a tile go on in its cask (R444). -/
def State.anchorOps (s : State) (t : Tid) (u : Susp) : State :=
  let a := s.nextId + 1
  let sec5 := match u.table.find? fun k => k.1 == 5 with | some k => u.va + 256 * k.2.1 | none => u.va
  { s with
    nextId := s.nextId + 1,
    anchors := s.anchors ++ ([⟨a, u.va, sec5, u.pages, none⟩] : List Anchor),
    ops := s.ops.map fun (o : OpRec) => if o.tile = t ∧ o.cask.isNone then { o with cask := some a } else o,
    accRecs := s.accRecs.map fun (r : AccRec) => if r.tile = some t then { r with tile := none } else r }

/-- The slots of a tile as its cask records them. -/
def Tile.slotImages (x : Tile) : List WSlot :=
  (List.range 4).filterMap fun w => let v := x.w.get .empty w; if v.ready.isSome then some { v with ready := some 0, img := 0 } else none

/-- The entry of a suspended tile. -/
def State.entrySuspended (s : State) (t : Tid) (u : Susp) : State :=
  match (s.tileAt t).task with
  | none => s
  | some i => (s.modTask i fun e => { e with st := .suspended, tile := none, pdom := (s.tileAt t).pdom, cask := some u.va, gcask := u.gang, pre := u.pre }).schedule
      (s.now + 1) (ordEngine t) (.tileFree t)

/-- The tiles of a gang whose casks are all written. -/
def State.gangDone (s : State) (order : Nat) : Option (List (Tid × TaskEnt × Susp)) :=
  (s.liveGang order).foldr (fun e acc =>
    match acc, e.2.tile with
    | some l, some t =>
      (match (s.tileAt t).susp with
       | some u => if u.done then some ((t, e.2, u) :: l) else none
       | none => none)
    | _, _ => none) (some [])

/-- The header of a gang cask and its member table (R442), when every member's header has performed. -/
def State.gangHeader (s : State) (g : Nat) (ms : List (Tid × TaskEnt × Susp)) : State :=
  match ms with
  | [] => s
  | (t, e, u) :: _ =>
    let out := (ms.map fun m => hget (s.caskHeader m.2.2.pages m.2.2.va) hfOutst).sum % 2 ^ 32
    let h := packFields (s.headerHead t e u 1 (if out = 0 then csSealed else csAnchored) out g (0x400 + ms.length * u.size))
    let s := s.putCaskRow u.pages g 0 (Reg.fresh 32 h)
    let tab := packNat 64 (ms.map fun m => m.2.2.va - g)
    let s := (List.range 2).foldl (fun (s : State) i => s.putCaskRow u.pages g (1 + i) (freshRow tab i)) s
    let vas := ms.map fun m => m.2.2.va
    let s := { s with anchors := s.anchors.map fun (a : Anchor) => if vas.contains a.va ∧ out ≠ 0 then { a with gang := some g } else a }
    ms.foldl (fun s m => s.entrySuspended m.1 m.2.2) s

/-- CASK_WRITTEN (R448): the handle block and the header perform together. -/
def execCaskWritten (s : State) : Host.Outcome State Fault Refusal :=
  let t := s.arg.t
  let x := s.tileAt t
  match x.susp, s.taskOf t with
  | some u, some (_, e) =>
    if x.run ≠ .writing ∨ u.done then .next s
    else
      let out := outstanding (x.handles.map (·.2))
      let state := if u.gang.isSome then 0 else if out = 0 then csSealed else csAnchored
      let s := match u.table.find? fun k => k.1 == 5 with
        | some k => (List.range 4).foldl (fun (s : State) i => s.putCaskRow u.pages u.va (k.2.1 + i) (sec5 x i)) s
        | none => s
      let s := s.putCaskRow u.pages u.va 0 (Reg.fresh 32 (s.tileHeader t e u state out))
      let s := { s with slotImgs := s.slotImgs ++ (if u.mx then x.slotImages else []) }
      let s := if out = 0 then { s with accRecs := s.accRecs.map fun (r : AccRec) => if r.tile = some t then { r with tile := none } else r }
        else s.anchorOps t u
      let s := s.modTile t fun x => { x with susp := some { u with done := true } }
      .next (match u.gang with
        | none => s.entrySuspended t u
        | some g => match s.gangDone e.order with
          | some ms => s.gangHeader g ms
          | none => s)
  | _, _ => .next s

/-- The tile of a cask that has been written is free. -/
def State.tileFree (s : State) (t : Tid) : State :=
  if (s.tileAt t).run = .writing then
    { (s.clearL1 t).modTile t Tile.vacate with locks := s.locks.filter fun l => l.tile != t }
  else s

/-! ## Notices of a suspended tile (R444) -/

/-- `outst` of a header falls; a cask that was ANCHORED is SEALED when it reaches 0. -/
def State.lowerOutst (s : State) (pages : SMap Nat) (va : Nat) : State :=
  let h := s.caskHeader pages va
  let n := (hget h hfOutst + 2 ^ 32 - 1) % 2 ^ 32
  let s := s.setHeader pages va hfOutst n
  if n = 0 ∧ hget h hfState = csAnchored then s.setHeader pages va hfState csSealed else s

/-- The handle record of an operation in its cask changes. -/
def State.caskHandle (s : State) (a : Anchor) (h : Nat) (f : Handle → Handle) : State :=
  let v := packNat 64 ((List.range 4).map fun j => (s.caskGran a.pages a.sec5 (32 * h) j).d.toNat)
  match pageByte a.pages (a.sec5 + 32 * h) with
  | some p => s.memWrites none (gwBytes p 32 (f (Handle.ofWord v)).word false)
  | none => s

/-- CASK_NOTICE_LANDING (R444): operation `arg.n` reaches level `arg.m`, or fails where that is 3. -/
def execCaskNoticeLanding (s : State) : Host.Outcome State Fault Refusal :=
  let lvl := s.arg.m
  let code := s.arg.code.toNat
  match s.op? s.arg.n with
  | none => .next s
  | some o =>
    if o.failed || (if lvl = 3 then o.vis else o.has lvl) then .next s
    else
      let s := match s.anchors.find? fun a => some a.id == o.cask with
        | none => s
        | some a =>
          let s := s.caskHandle a o.h fun h => if lvl = 3 then h.fails o code else h.reach o lvl
          if lvl < 2 then s
          else
            let s := s.lowerOutst a.pages a.va
            let s := match a.gang with | some g => s.lowerOutst a.pages g | none => s
            let live := s.ops.any fun p => p.cask == o.cask && p.seq != o.seq && !p.vis && !p.failed
            if live then s else { s with anchors := s.anchors.filter fun b => b.id != a.id }
      .next (s.modOp o.seq fun q => if lvl = 3 then { q with failed := true, loc := true, ret := [] } else q.reach lvl)

/-! ## Restoring (R455) -/

/-- A granule-wise value of a section. -/
def State.caskReg (s : State) (pages : SMap Nat) (va off n : Nat) : Reg n := Reg.ofGrans n ((List.range n).map (s.caskGran pages va off))

/-- The registers of section 0 and 1. -/
def State.restoreRegs (s : State) (pages : SMap Nat) (va o0 o1 : Nat) (x : Tile) : Tile :=
  let x := { x with s := [], p := [], v := [], q := [] }
  let x := (List.range 64).foldl (fun x n => x.setScalar n (s.caskReg pages va (o0 + 8 * n) 1)) x
  let x := (List.range 32).foldl (fun x n => x.setPred n (s.caskReg pages va (o0 + 512 + 32 * n) 4)) x
  (List.range 324).foldl (fun x n =>
    let v := s.caskReg pages va (o1 + 256 * n) 32
    if n < 320 then x.setVec n v else x.setLatch (n - 320) v) x

/-- A snapshot entry becomes a result in flight. Its TRAPINFO and its bundle were not recorded: they are free (log entry 3); nor were its issue
cycle and slot: DEDUCED: a collision with it takes slot 0, the entry's number and tile cycle 0 (R152, log entry 19). -/
def State.snapLanding (s : State) (pages : SMap Nat) (va off i : Nat) (now : Nat) : Option Landing :=
  let o := off + 576 * i
  let d := (s.caskGran pages va o 64).d.toNat
  if !bit d 40 then none
  else
    let num := bits d 3 10
    let mask := packNat 64 ((List.range 7).map fun k => (s.caskGran pages va o (65 + k)).d.toNat)
    let w : RWrite := match bits d 0 3 with
      | 0 => .scalar (BitVec.ofNat 6 num) (s.caskReg pages va o 1)
      | 1 => .pred (BitVec.ofNat 5 num) (s.caskReg pages va o 4) (2 ^ 256 - 1)
      | 2 => .vec num (s.caskReg pages va o 32) (BitVec.ofNat 256 mask) none
      | 3 => .latch (Fin.ofNat 4 num) (s.caskReg pages va o 32) (BitVec.ofNat 256 mask)
      | 4 => .acc num (s.caskReg pages va o 64) (BitVec.ofNat 128 mask)
      | _ => .sreg num (s.caskGran pages va o 0).d
    let c := bits d 32 8
    let q : TrapReq := { cls := BitVec.ofNat 4 (c / 16), low := BitVec.ofNat 4 c, info := Config.freeWord (s.free + 2 * i), kind := .after,
                         pc := Config.freeWord (s.free + 2 * i + 1) }
    some { id := 0, due := now + bits d 13 16, issue := i, tc := 0, slot := 0, pc := 0, writes := [w], fp := 0, st := 0,
           fault := if c = 0 then none else some q, waiting := false, hold := false }

/-- A staged configuration that a cask does not hold is free (log entry 3). -/
def freeCfg (n : Nat) : CopyCfg :=
  { lv := (List.range 6).map fun l => ⟨(Config.freeWord (n + 3 * l)).truncate 32, Config.freeWord (n + 3 * l + 1), Config.freeWord (n + 3 * l + 2)⟩,
    src := Config.freeWord (n + 18), dst := Config.freeWord (n + 19), m := Config.freeWord (n + 20),
    path := (Config.freeWord (n + 21)).truncate 2, op := (Config.freeWord (n + 22)).truncate 3, type := (Config.freeWord (n + 23)).truncate 5,
    cvt := Config.freeBit n, tagmode := (Config.freeWord (n + 24)).truncate 2, tag := (Config.freeWord (n + 25)).truncate 8, tensor := none }

/-- A latched configuration from its block. -/
def cfgOf (v : Nat) : CopyCfg :=
  let b := fun o n => bits v (8 * o) (8 * n)
  let m := b 1704 8
  { lv := (List.range 6).map fun l => ⟨BitVec.ofNat 32 (b (1536 + 24 * l) 8), BitVec.ofNat 64 (b (1544 + 24 * l) 8), BitVec.ofNat 64 (b (1552 + 24 * l) 8)⟩,
    src := BitVec.ofNat 64 (b 1680 8), dst := BitVec.ofNat 64 (b 1688 8), m := BitVec.ofNat 64 (b 1696 8), path := BitVec.ofNat 2 (bits m 0 2),
    op := BitVec.ofNat 3 (bits m 2 3), type := BitVec.ofNat 5 (bits m 5 5), cvt := bit m 20, tagmode := BitVec.ofNat 2 (bits m 18 2),
    tag := BitVec.ofNat 8 (bits m 10 8),
    tensor := if bit m 21 then some
        { op := BitVec.ofNat 4 (bits m 22 4), id := BitVec.ofNat 16 (b 1752 2), rb := BitVec.ofNat 7 (b 1754 1),
          org := (List.range 6).map fun l => Sys2Proof.sext 20 (bits (b (1760 + 8 * (l / 3)) 8) (20 * (l % 3)) 20),
          record := BitVec.ofNat 768 (b 1784 96) } else none }

/-- Number of the next copy, from its indices. -/
def cnOf (v : Nat) (c : CopyCfg) : Nat :=
  if c.tensor.isSome then bits v (8 * 1712) 32
  else ((List.range 6).foldr (fun l n => n * max 1 (c.lv.getD l ⟨1, 0, 0⟩).n.toNat + bits v (8 * (1712 + 4 * l)) 32) 0)

def stateOfCode : Nat → CState
  | 0 => .idle
  | 1 => .armed
  | 2 => .running
  | _ => .stopped

/-- A copy engine from its block, on tile `t` whose engines stand at `mclk` in tile cycle `c`. What its `CGO` was, its mode then and its
`.last` are not recorded: they are free (log entry 3). -/
def engineOf (v n nest mclk c : Nat) (t : Tid) : CopyEngine :=
  let cfg := cfgOf v
  let w := bits v (8 * 1736) 64
  let st := stateOfCode (bits w 0 2)
  let cn := cnOf v cfg
  let bf := (List.range 64).foldl (fun (m : SMap Word) k => m.set 0 k (BitVec.ofNat 64 (bits v (64 * k) 64))) []
  let u := match cfg.tensor with | some _ => t | none => (padTile t (cfg.da 0)).getD t
  { staged := freeCfg n, cfg := cfg, st := st, cause := BitVec.ofNat 4 (bits w 4 4), slid := bit w 2, tm := Config.freeBit n,
    pc := Config.freeWord (n + 26), issue := 0, nest := nest,
    next := if st == .armed || st == .running then mclk + (bits v (8 * 1744) 64 - c) else mclk,
    cn := if st == .idle then cfg.copies else cn, reqCn := cn, reqAt := if st == .armed || st == .running then mclk + (bits v (8 * 1744) 64 - c) else mclk,
    lasts := if cn = 0 then [] else [(cn - 1, Config.freeWord (n + 27))], erc := Config.freeBit (n + 1), held := [], bfmt := bf, rowmap := ((List.range 8192).filter fun k => bit v (4096 + k)).map (· + u.val * 8192), rq := [],
    rdAt := 0, wq := [] }

/-- A weight slot from its rows; the order of the image and its signedness are those of a slot that a cask recorded alike, else free
(log entry 3). -/
def State.slotOf (s : State) (pages : SMap Nat) (va off : Nat) : WSlot :=
  let h := (s.caskGran pages va off 4096).d.toNat
  if bits h 0 8 ≠ 2 then .empty
  else
    let v0 : WSlot := { ready := some 0, img := 0, mode := bits h 8 8, kl := bits h 16 16, fmt := BitVec.ofNat 8 (bits h 32 8), trans := false,
                        sgnB := false, rows := [], recs := [], colsum := s.caskReg pages va (off + 33280) 64 }
    let n := v0.codeRows
    let q := v0.rowRecs / 2
    let v1 := { v0 with
      rows := (List.range n).foldl (fun (m : SMap (Reg 32)) r => m.set (.zero 32) r (s.caskReg pages va (off + 256 * r) 32)) [],
      recs := (List.range n).foldl (fun (m : SMap (Reg 32)) r => m.set (.zero 32) r
        (Reg.ofGrans 32 ((List.range 32).map fun j => if j < q then s.caskGran pages va (off + 256 * n + 8 * q * r) j else .zero))) [] }
    match s.slotImgs.find? fun w => (List.range 132).all fun i => (w.row i).d == (v1.row i).d with
    | some w => { v1 with trans := w.trans, sgnB := w.sgnB }
    | none => { v1 with trans := Config.freeBit s.free, sgnB := Config.freeBit (s.free + 1) }

/-- Sections 7 to 9 (R455). A tile cask without section 8 leaves the slots EMPTY (log entry 19). -/
def State.restoreMatrix (s : State) (pages : SMap Nat) (va h : Nat) (x : Tile) : Tile :=
  let x := match secOffset h 7 with
    | none => x
    | some o =>
      let x := (List.range 1024).foldl (fun (x : Tile) n => x.setAcc n (s.caskReg pages va (o + 512 * n) 64)) x
      (List.range 128).foldl (fun (x : Tile) n =>
        let g := s.caskGran pages va (o + 524288) (n / 2)
        let v : Word := BitVec.ofNat 64 (bits g.d.toNat (32 * (n % 2)) 32)
        x.setRowSum n ⟨v, rindOf g.bad v⟩) x
  let x := match secOffset h 8 with
    | none => { x with w := x.w.map fun e => (e.1, { e.2 with ready := none }) }
    | some o => (List.range 4).foldl (fun (x : Tile) w =>
        let v := s.slotOf pages va (o + 33792 * w)
        { x with w := x.w.set .empty w { v with ready := v.ready.map fun _ => x.mclk, img := s.nextId + w } }) x
  match secOffset h 9 with
  | none => x
  | some o =>
    let banks := (s.caskGran pages va o 0).d.toNat
    ((bankList banks).mapIdx fun i b => (i, b)).foldl (fun (x : Tile) ib =>
      let p := o + 256 + 33024 * ib.1
      let ws := (List.range 4096).map fun j => let g := s.caskGran pages va p j; { g := 4096 * ib.2 + j, d := g.d, r := g.r, bad := g.bad, mask := 0xFF : GWrite }
      { x with
        pad := x.pad.writes ws,
        tags := (List.range 128).foldl (fun m k =>
          m.set 0 (128 * ib.2 + k) (BitVec.ofNat 8 (bits (s.caskGran pages va p (4096 + k / 8)).d.toNat (8 * (k % 8)) 8))) x.tags }) x

/-- The operand log of section 12, with the instructions of the bundle at TRAPPC. -/
def State.logEntries (s : State) (pages : SMap Nat) (va off : Nat) (bundle : Nat) (sd : Nat) (x : Tile) : List LogEntry :=
  [4, 5, 6].filterMap fun k =>
    let w := slotBits bundle k
    match decodeSlot k w with
    | .error _ => none
    | .ok (.nop _) => none
    | .ok i =>
      if bit sd k then none
      else
        let o := off + 64 + 320 * (k - 4)
        let y := x.setPred (logPred k w) (s.caskReg pages va (o + 256) 4)
        let y := if k = 5 then y.setVec ((TF.ofNat w).data.toNat % 320) (s.caskReg pages va o 32) else y
        let y := ((logScalars k w).mapIdx fun j n => (j, n)).foldl (fun (y : Tile) p => y.setScalar p.2 (s.caskReg pages va (o + 288 + 8 * p.1) 1)) y
        some { slot := k, instr := i, sv := y.s, pv := y.p, vv := y.v, qv := y.q }

/-- A `.trap` cask resumes by the return of R421, with the array state of its image (R455). -/
def State.restoreTrap (s : State) (pages : SMap Nat) (va h : Nat) (x : Tile) : Tile :=
  match secOffset h 12 with
  | none => x
  | some o =>
    let w := fun j => (s.caskGran pages va o j).d
    let x := ((((((x.setSreg srCAUSE (w 0)).setSreg srTRAPPC (w 1)).setSreg srTRAPINFO (w 2)).setSreg srSLOTDONE (w 3)).setSreg srTRAPNX (w 4)).setSreg
      (srTRAPNX + 1) (w 5)).setSreg (srTRAPNX + 2) (w 7)
    let pc := clear6 (w 1)
    let bundle := match s.physOf x.pdom pc.toNat with | some a => (s.memReg none (a / 8) 8).d.toNat | none => 0
    let x := { x with oplog := s.logEntries pages va o bundle (w 3).toNat x }
    let x := match secOffset h 10 with
      | none => x
      | some p =>
        let rows := (List.range 192).map fun r => s.caskReg pages va (p + 256 * r) 32
        match s.mxImages.find? fun (m : List (Reg 32) × Nat × List MCmd) => m.1 == rows with
        | some m => x.putQueue (m.2.2.map fun (c : MCmd) => { c with s := c.s + x.mclk - m.2.1 })
        | none => x
    let x := { x with snapshot := x.inflight.map (fun (l : Landing) => { l with due := l.due - (x.rclk + 1) }), snapRpt := x.rpt }
    let y := ({ x with rclk := x.rclk + 1 } : Tile).trapReturn
    { y with rclk := x.rclk }

/-- Locks and access records of section 11 come back to the tile (R455). -/
def State.restoreHeld (s : State) (pages : SMap Nat) (va h : Nat) (t : Tid) : State :=
  match secOffset h 11 with
  | none => s
  | some o => (List.range (min 63 (s.caskGran pages va o 0).d.toNat)).foldl (fun s i =>
      let e := (s.caskGran pages va o (2 + 2 * i)).d.toNat
      let rank := bits e 8 13
      let win := bits e 24 8
      if bits e 0 2 < 2 then
        { s with locks := s.locks ++ ([⟨rank, win, t, tid (bits e 32 5), bit e 0⟩] : List LockHeld) }
      else { s with accRecs := s.accRecs.map fun (r : AccRec) =>
        if r.rank = rank ∧ r.win = win ∧ r.tile.isNone then { r with tile := some t } else r }) s

/-- The cask at `va` is put onto tile `t`, where entry `i` goes on in this cycle at tile cycle c (R455). -/
def State.restoreTile (s : State) (t : Tid) (i va : Nat) (pdom : BitVec 16) (home : Bool) : State :=
  let h0 := s.caskHeader (s.caskPages pdom va 256) va
  let pages := s.caskPages pdom va (max 256 (hget h0 hfSize))
  let off := fun k => (secOffset h0 k).getD 0
  let c := hget h0 hfTcyc
  let x := { (s.tileAt t).vacate with task := some i, run := .running }
  let x := s.restoreRegs pages va (off 0) (off 1) x
  let x := { x with sr := (List.range 128).foldl (fun (m : SMap Word) n =>
      if 6 ≤ n ∧ n ≤ 11 then m else m.set 0 n (s.caskGran pages va (off 2) n).d) [] }
  let x := if home then x
    else
      let gid := match s.task i with | some e => e.leader | none => i
      (x.setSreg srTASKID (BitVec.ofNat 64 i)).setSreg srGANGID (BitVec.ofNat 64 gid)
  let w3 := fun j => (s.caskGran pages va (off 3) j).d
  let x := { x.setSt stTDL true with fq := [w3 0, w3 1, w3 2], rpt := (w3 3).toNat, yc := if Config.freeBit (s.free + 250) then (w3 4).truncate 32 else 0, tcyc := BitVec.ofNat 64 c,
                                     l1 := [], plru := [], fills := [], fbuf := [] }
  let x := { x with inflight := (List.range 96).filterMap fun k => s.snapLanding pages va (off 4) k (x.rclk + 1) }
  let hs := (List.range 32).foldl (fun (m : SMap Handle) k =>
    m.set .zero k (Handle.ofWord (packNat 64 ((List.range 4).map fun j => (s.caskGran pages va (off 5 + 32 * k) j).d.toNat)))) []
  let x := { x with handles := hs, hseen := hs }
  let eng := fun (k : Nat) => engineOf (packNat 64 ((List.range 256).map fun j => (s.caskGran pages va (off 6 + 2048 * k) j).d.toNat))
    (s.free + 192 + 28 * k) (s.nextId + 4 + k) x.mclk c t
  let x := (x.setEngine false (eng 0)).setEngine true (eng 1)
  let x := s.restoreMatrix pages va h0 x
  let x := s.restoreTrap pages va h0 x
  let f := w3 5
  let s := { s with free := s.free + 256, nextId := s.nextId + 6 }
  let s := (s.walkLogs pdom va (max 256 (hget h0 hfSize))).setTile t x
  let s := s.modTask i fun e => { e with
    st := .running, tile := some t, cask := none, gcask := none, pre := false, startAt := none, gen := f.truncate 16, effect := bit f.toNat 16,
    fails := bits f.toNat 24 2 }
  let s := (s.restoreHeld pages va h0 t).setHeader pages va hfState csSpent
  let a := (x.fq.headD 0).toNat
  s.prefill t ((List.range 16).map (· + a / 256) ++ (x.fq.map fun q => q.toNat / 256))

end Sys2Proof.Machine
end

