-- ==== Sys2Proof/Machine/CaskOps.lean ====
section
/-! DEFINITION. Casks in use: `YIELD`, `SUSP`, `SUSPG`, pre-emption (R428, R447 to R452), `RSM` and the end of its caller (R453 to R456),
starts and retirement by the task engine (R390, R393, R407), `CASKDUP`, `CASKDISC` and `CASKQ` (R457 to R461). -/

namespace Sys2Proof.Machine

open Check

/-! ## Rights (R445) -/

/-- The entry of the rights table for a domain: the first valid one. -/
def rtabRights (h pdom : Nat) : Option Nat :=
  ((List.range 8).find? fun j => let v := bits h (8 * 0x40 + 32 * j) 32; bit v 31 && bits v 0 16 == pdom).map fun j =>
    bits h (8 * 0x40 + 32 * j + 16) 4

/-- Rights of a caller, by its level and its domain. -/
def rightsOf (sv : Bool) (pdom h : Nat) : Nat :=
  if sv then 15
  else if pdom = hget h hfPdom then hget h hfOrights % 16
  else match rtabRights h pdom with
    | some r => r
    | none => hget h hfXrights % 16

/-- The cask was not written where it is found (R453). -/
def State.away (s : State) (va h : Nat) : Bool := va != hget h hfHome || hget h hfHrank % 2 ^ 13 != s.rank

/-- The STATUS saved in section 2 of a tile cask is at supervisor level. -/
def State.sectionSv (s : State) (pdom : BitVec 16) (va h : Nat) : Bool :=
  match secOffset h 2 with
  | some o => bit (s.caskGran (s.caskPages pdom (va + o) 8) va o 0).d.toNat stSV
  | none => false

/-- The saved STATUS of a cask is at supervisor level: for a gang cask, that of some member. -/
def State.savedSv (s : State) (pdom : BitVec 16) (va h : Nat) : Bool :=
  if hget h hfLevel = 0 then s.sectionSv pdom va h
  else (List.range (hget h hfNmem + 1)).any fun i =>
    let m := va + (s.caskGran (s.caskPages pdom va 0x400) va 0x100 i).d.toNat
    s.sectionSv pdom m (s.caskHeader (s.caskPages pdom m 256) m)

/-- Rights of a caller to the cask at `va`: below supervisor level no resume right where the saved STATUS.SV is 1 (R445). -/
def State.callerRights (s : State) (sv : Bool) (pdom : BitVec 16) (va h : Nat) : Nat :=
  let r := rightsOf sv pdom.toNat h
  if !sv && s.savedSv pdom va h then r / 2 * 2 else r

/-! ## Suspension (R447 to R452) -/

/-- Pages of a run, absent where not mapped. -/
def pagesOf (a n : Nat) (m : SMap Nat) : SMap Nat :=
  (List.range ((a + n - 1) / 2 ^ 16 - a / 2 ^ 16 + 1)).foldl (fun (r : SMap Nat) k => r.set 1 (a / 2 ^ 16 + k) (m.get 0 (a / 2 ^ 16 + k))) []

/-- A suspension whose cask is `n` bytes: its operands, its pages with write permission, then what it waits for (R447). -/
def State.suspSlot (s : State) (i : Instr) (f : YF) (dyn : List EncErr) (n : Nat) (wait : Option (Wait × State)) (act : SMap Nat → State) :
    Host.Outcome State Fault Refusal :=
  let x := s.tile
  let a := x.sv (YF.a f)
  let own := x.consumeS 7 3 (YF.a f) ++ x.consumeS 7 5 (YF.b f) ++ (if a % 256 ≠ 0 then [x.localT 7 3 a] else [])
  match x.runPages a n needW with
  | .pages m => s.issueSlot i dyn (x.yCond f) own wait (act (pagesOf a n m))
  | .fault va c l => s.issueSlot i dyn (x.yCond f) (own ++ [(rankT 7, x.issueTrap clsT (BitVec.ofNat 4 c) (walkInfo va l 6))]) none s
  | .miss va =>
    let walk := s.startWalk s.cur va 6
    s.issueFix i dyn (x.yCond f) (own ++ if x.timed then [x.classS 7 5 (sInfo 7 0 0 0)] else [])
      (fun q => if q.2.cls = clsS ∧ q.2.low = 5 then walk else s) (if x.timed then none else some (.walk x.pdom (BitVec.ofNat 64 va), walk)) s

/-- The bundle due finds matrix commands queued (R274): its own is not yet among them. -/
def Tile.mqBefore (x : Tile) : Bool := x.mq.any fun c => !(c.issue == x.rclk && c.tc == x.tcyc.toNat && c.pc == x.pc)

/-- The conditions of R447 by STATUS.TRP and the held array. -/
def Tile.suspErrs (x : Tile) (trap : Bool) : List EncErr :=
  comboErr (x.trp != trap) ++ comboErr (trap && x.trp && !x.mq.isEmpty && x.mxAt.isNone)

/-- R448, R449. -/
def execSusp (f : YF) (s : State) : Host.Outcome State Fault Refusal :=
  let x := s.tile
  let mx := bit (YF.x f) 0
  let trap := bit (YF.x f) 1
  let banks := x.sv (YF.b f)
  let n := caskSize mx banks trap x.mxAt.isSome
  s.suspSlot (.susp f) f (x.suspErrs trap) n (if !trap && x.mqBefore then some (.mqEmpty, s) else none) fun m =>
    let u : Susp := { va := x.sv (YF.a f), pages := m, mx := mx, trap := trap, banks := BitVec.ofNat 64 banks, pre := false, gang := none,
                      size := n, image := [], ftime := 0, done := false }
    s.onTile fun x => { x with susp := some u }

/-- The members of the resident task's gang. -/
def State.gangHere (s : State) (t : Tid) : List (Nat × TaskEnt) :=
  match s.taskOf t with
  | some (_, e) => s.gangOf e.order
  | none => []

def tileMask (ts : List Nat) : BitVec 32 := BitVec.ofNat 32 (ts.foldl (fun m t => m ||| 2 ^ t) 0)

/-- R450: the tile waits as at a `SYNC .gang` of every member. A gang of a reach job spans basins (log entry 19). -/
def execSuspg (f : YF) (s : State) : Host.Outcome State Fault Refusal :=
  let x := s.tile
  let mx := bit (YF.x f) 0
  let banks := x.sv (YF.b f)
  let g := s.gangHere s.cur
  let n := caskSize mx banks false false
  let i := match g.find? fun e => e.2.tile == some s.cur with | some e => e.2.member | none => 0
  s.suspSlot (.suspg f) f (comboErr (gangBound g)) (0x400 + g.length * n) (if x.mqBefore then some (.mqEmpty, s) else none) fun m =>
    let u : Susp := { va := x.sv (YF.a f) + 0x400 + i * n, pages := m, mx := mx, trap := false, banks := BitVec.ofNat 64 banks, pre := false,
                      gang := some (x.sv (YF.a f)), size := n, image := [], ftime := 0, done := false }
    (s.startRelease s.cur 2).onTile fun x => { x with run := .sync 2 false (tileMask (gangTiles g)) none, susp := some u }

/-- The suspension that member 0 of a gang asked for, as member `i` makes it (R450). -/
def Susp.ofMember (u : Susp) (i : Nat) : Susp :=
  match u.gang with
  | some g => { u with va := g + 0x400 + i * u.size, done := false }
  | none => u

/-- The members of a gang capture together (R450). -/
def State.captureGang (s : State) (ts : List Tid) : State :=
  let lead := ts.findSome? fun t => match s.taskOf t with | some (_, e) => if e.member = 0 then (s.tileAt t).susp else none | none => none
  ts.foldl (fun s t =>
    match s.taskOf t with
    | none => s
    | some (_, e) => (s.modTile t fun x => { x.tick with susp := match lead with | some u => some (u.ofMember e.member) | none => x.susp }).capture t) s

/-- The place of a pre-empted task's cask (R451). -/
def Tile.caskPlace (x : Tile) : Nat := (x.sreg srCASKAREA).toNat + 2 ^ 22 * (x.sreg srTASKID).toNat

/-- A pre-emption that can take place (R428). -/
def Tile.yields (x : Tile) : Bool := x.run == .running && x.atYield && x.preempt && !x.trp && x.susp.isNone && x.throttled.isNone

/-- PREEMPTION (R428, R451): as `SUSP.mx` with every bank. -/
def execPreemption (s : State) : Host.Outcome State Fault Refusal :=
  let t := s.arg.t
  let x := s.tileAt t
  if !x.yields then .next s
  else
    let n := caskSize true (2 ^ 64 - 1) false false
    let u : Susp := { va := x.caskPlace, pages := s.caskPages x.pdom x.caskPlace n, mx := true, trap := false, banks := BitVec.allOnes 64,
                      pre := true, gang := none, size := n, image := [], ftime := 0, done := false }
    .next ((s.walkLogs x.pdom x.caskPlace n).modTile t fun x => { x with susp := some u, atYield := false, preempt := false })

/-- A ready task of a priority or higher waits for a tile. -/
def State.readyAt (s : State) (pri : Nat) : Bool := s.taskList.any fun e => e.2.st == .ready && decide (pri ≤ e.2.pri)

/-- A gang takes the last place of its priority, and is asked to suspend (R452). -/
def State.cede (s : State) (t : Tid) : State :=
  match s.taskOf t with
  | none => s
  | some (_, e) =>
    if s.readyAt e.pri then
      let g := s.gangOf e.order
      let s := g.foldl (fun s m => s.modTask m.1 fun q => { q with place := s.spawns }) s
      ({ s with spawns := s.spawns + 1 } : State).askYield (gangTiles g)
    else s

/-- R452. -/
def execYield (f : YF) (s : State) : Host.Outcome State Fault Refusal :=
  let x := s.tile
  let s1 := if !x.mqBefore then
      let s := if bit (YF.x f) 0 && !x.trp then s.cede s.cur else s
      s.onTile fun x => { x with yc := 0, atYield := x.preempt && !x.trp }
    else s
  s.issueSlot (.yield f) [] (x.yCond f) [] none s1

/-! ## `RSM` (R453) -/

/-- An `RSM` whose claim has been decided for the bundle due. -/
def Tile.decided (x : Tile) : Option Claim :=
  match x.claim with
  | some c => if c.done ∧ c.pc = x.pc then some c else none
  | none => none

/-- R453: the first time, the sequencer stops before the bundle; once the claim is decided, the bundle issues or faults. -/
def execRsm (f : YF) (s : State) : Host.Outcome State Fault Refusal :=
  let x := s.tile
  let a := x.sv (YF.a f)
  match x.decided with
  | some c =>
    s.issueFix (.rsm f) [] (x.yCond f) (match c.fault with | some q => [q] | none => []) (fun _ => s.onTile fun x => { x with claim := none }) none s.startHalt
  | none =>
    let own := x.consumeS 7 3 (YF.a f) ++ (if a % 256 ≠ 0 then [x.localT 7 3 a] else [])
    match x.translate a needR with
    | .pa p =>
      let c : Claim := { pc := x.pc, va := a, pa := p, at_ := s.now, done := false, fault := none, size := 0, level := 0, home := false, entry := 0,
                         pdom := x.pdom }
      let go := (s.onTile fun x => { x with run := .claiming, claim := some c }).plan (s.now + 32) (ordEngine s.cur) .rsmClaim
        { EvArg.none with t := s.cur }
      match s.issueSlot (.rsm f) [] (x.yCond f) own none go with
      | .next r => .next (if r.tile.run = .claiming then r.note .froze else r)
      | o => o
    | .fault c l => s.issueSlot (.rsm f) [] (x.yCond f) (own ++ [(rankT 7, x.issueTrap clsT (BitVec.ofNat 4 c) (walkInfo a l 6))]) none s
    | .miss =>
      let walk := s.startWalk s.cur a 6
      s.issueFix (.rsm f) [] (x.yCond f) (own ++ if x.timed then [x.classS 7 5 (sInfo 7 0 0 0)] else [])
        (fun q => if q.2.cls = clsS ∧ q.2.low = 5 then walk else s) (if x.timed then none else some (.walk x.pdom (BitVec.ofNat 64 a), walk)) s

/-- A class E fault that a header field decides (R453). -/
def Tile.fieldTrap (x : Tile) (low : BitVec 4) (f : Nat × Nat) : Flt := (rankRec 7, x.issueTrap clsE low (recInfo 7 0 f.1 (f.1 + f.2 - 1)))

/-- The checks of R453 up to the wait for an ANCHORED cask. -/
def State.claimFault (s : State) (x : Tile) (c : Claim) (r : Reg 32) : Option Flt :=
  let h := r.d.toNat
  match x.consume 7 6 r fun _ => true with
  | q :: _ => some q
  | [] =>
    match headerErr h with
    | some f => some (x.fieldTrap 0xB f)
    | none =>
      if !bit (rightsOf x.sv? x.pdom.toNat h) 0 || (!x.sv? && s.savedSv c.pdom c.va h) then some (x.fieldTrap 0xF hfOrights)
      else if s.away c.va h && (hget h hfOutst != 0 || hget h hfHeld != 0 || hget h hfState == csAnchored) then
        some (x.fieldTrap (if hget h hfHrank % 2 ^ 13 = s.rank then 0xD else 0xE) (if hget h hfOutst ≠ 0 then hfOutst else hfHeld))
      else if hget h hfState = csClaimed ∨ hget h hfState = csSpent ∨ hget h hfState = csDiscarded then some (x.fieldTrap 0xC hfState)
      else none

/-- Pages of a cask's header that has been translated. -/
def Claim.pages (c : Claim) : SMap Nat := SMap.set 1 (c.va / 2 ^ 16) (c.pa - c.va % 2 ^ 16) []

/-- A claim succeeds: the header is CLAIMED, and a cask at home returns its entry to RUNNING (R453, R454). A gang is found by the entry and
the domain that its header names. -/
def State.claimed (s : State) (c : Claim) (h : Nat) : Claim × State :=
  let home := !s.away c.va h
  let i := hget h hfTask % 4096
  let own := home && (match s.task i with | some e => e.st == .suspended && e.cask == some c.va && e.pdom.toNat == hget h hfPdom | none => false)
  let gang := match s.task i with | some e => e.gcask == some c.va && e.pdom.toNat == hget h hfPdom | none => false
  let s := s.setHeader c.pages c.va hfState csClaimed
  let s := if own then s.modTask i fun e => { e with st := .running, pre := false } else s
  ({ c with done := true, size := hget h hfSize, level := hget h hfLevel, home := if hget h hfLevel = 0 then own else home,
             entry := if hget h hfLevel = 0 || gang then i else 4096 }, s)

/-- RSM_CLAIM (R453): a claim that finds its cask ANCHORED waits, with `n` = 1, and is repeated once the state has changed. -/
def execRsmClaim (s : State) : Host.Outcome State Fault Refusal :=
  let t := s.arg.t
  let x := s.tileAt t
  match x.claim with
  | none => .next s
  | some c =>
    if x.run ≠ .claiming ∨ c.done then .next s
    else
      let r := s.memReg none (c.pa / 8) 32
      let finish := fun (c : Claim) (s : State) =>
        (s.modTile t fun x => { x with claim := some c }).schedule (max (c.at_ + 64) (s.now + 32)) (ordEngine t) (.claimEnd t)
      let anchored := hget r.d.toNat hfState == csAnchored
      let wait := s.plan (s.now + 1) (ordLate t) .rsmClaim { EvArg.none with t := t, n := 1 }
      .next (if s.arg.n = 1 ∧ anchored then wait
        else match s.claimFault x c r with
        | some q => finish { c with done := true, fault := some q } s
        | none => if anchored then wait else let p := s.claimed c r.d.toNat; finish p.1 p.2)

/-- The bundle that a claim held is due. -/
def State.claimEnd (s : State) (t : Tid) : State :=
  s.modTile t fun x => match x.run with
    | .claiming => { x with run := .running }
    | _ => x

/-! ## The caller retires, and the cask is restored (R453 to R456) -/

/-- Cycles from a claim to the first issue of the resumed task (R455). -/
def restoreTime (size : Nat) : Nat := 33 + ceilDiv size 256

/-- The tile waits for the restore of a cask. -/
def State.beginRestore (s : State) (t : Tid) (i : Nat) (c : Claim) (at_ : Nat) : State :=
  (s.modTile t fun x => { x.vacate with run := .restoring, claim := some c }).plan at_ (ordEngine t) .restoreComplete
    { EvArg.none with t := t, n := i }

/-- A blank record of a priority: what the entry of a task resumed away from home holds (log entry 19). -/
def blankRecord (pri : Nat) : BitVec 1536 := BitVec.ofNat 1536 (1 + pri * 2 ^ 8)

/-- An entry for a task that is resumed away from home: a gang of `n` in spawn order `order`. -/
def awayEntry (order pri leader member n : Nat) (pdom : BitVec 16) (cask gcask : Option Nat) (st : TState) : TaskEnt :=
  { st := st, record := blankRecord pri, order := order, place := order, pri := pri, renamed := [], since := false, bypass := 0, pdom := pdom,
    tile := none, leader := leader, member := member, nmem := n, startAt := none, effect := false, spent := false, fails := 0, gen := 0, cask := cask,
    gcask := gcask, pre := false, root := false, shadows := [] }

/-- An `RSM` caller that has retired hands its tile, or away from home its entry too, to the task in the cask (R454). A retired entry
that still holds shadow tiles moves to a free one. -/
def State.handOver (s : State) (t : Tid) (i : Nat) (e : TaskEnt) (c : Claim) : State :=
  if c.level ≠ 0 then
    if c.home then
      match s.task c.entry with
      | some q => (s.gangOf q.order).foldl (fun s m => if m.2.st = .suspended ∧ m.2.gcask = some c.va then
          s.setTask m.1 (some { m.2 with st := .ready, startAt := none }) else s) s
      | none => s
    else { s with gangClaims := s.gangClaims ++ ([⟨c.va, c.pdom, e.pri⟩] : List GangClaim) }
  else if c.home then s.beginRestore t c.entry c (s.now + restoreTime c.size)
  else
    let s := match s.task i, s.freeEntries with
      | some q, j :: _ => s.setTask j (some q)
      | _, _ => s
    let s := s.setTask i (some (awayEntry s.spawns e.pri i 0 1 c.pdom none none .running))
    ({ s with spawns := s.spawns + 1 } : State).beginRestore t i c (s.now + restoreTime c.size)

/-- TASK_RETIRE (R407). -/
def execTaskRetire (s : State) : Host.Outcome State Fault Refusal :=
  let t := s.arg.t
  match s.taskOf t, s.mayRetire t with
  | some (i, e), true =>
    let x := s.tileAt t
    .next (match firstDue x.dueF with
      | some f => s.failTile t 7 (f.2.2.cls.toNat * 16 + f.2.2.low.toNat) f.2.2.info
      | none =>
        if x.trp then s.failTile t 4 0 0
        else match x.claim with
          | none => s.retire t
          | some c => (s.retire t).handOver t i e c)
  | _, _ => .next s

/-- RESTORE_COMPLETE (R455): the task of entry `arg.n` issues, and the cask is SPENT, with its gang's header. -/
def execRestoreComplete (s : State) : Host.Outcome State Fault Refusal :=
  let t := s.arg.t
  let i := s.arg.n
  match (s.tileAt t).claim, s.task i with
  | some c, some e =>
    if (s.tileAt t).run ≠ .restoring then .next s
    else if e.st ≠ .running then .next (s.modTile t Tile.vacate)
    else
      let s := match e.gcask with
        | some g => s.setHeader (s.caskPages c.pdom g 256) g hfState csSpent
        | none => s
      .next (s.restoreTile t i c.va c.pdom c.home)
  | _, _ => .next (if (s.tileAt t).run = .restoring then s.modTile t Tile.vacate else s)

/-! ## Starts (R390, R393, R456) -/

/-- The claim of the engine's own resumption of an entry. -/
def State.engineClaim (s : State) (i : Nat) (e : TaskEnt) (va : Nat) : Claim :=
  let h := s.caskHeader (s.caskPages e.pdom va 256) va
  { pc := 0, va := va, pa := 0, at_ := s.now, done := true, fault := none, size := hget h hfSize, level := 0,
    home := !s.away va h, entry := i, pdom := e.pdom }

/-- A cask that the engine is to claim is SEALED (R393), or its gang's header has been claimed. -/
def State.claimable (s : State) (e : TaskEnt) : Bool :=
  e.st == .ready || (match e.cask with | some va => s.caskState e.pdom va == csSealed | none => false)

/-- Starts a gang out of its casks, on one common cycle; the first time a cask is not SEALED, its entries no longer compete. -/
def State.startCasks (s : State) (ms : List ((Nat × TaskEnt) × Tid)) : State :=
  if ms.all fun m => s.claimable m.1.2 then
    let cs := ms.map fun m => (m, s.engineClaim m.1.1 m.1.2 (m.1.2.cask.getD 0))
    let at_ := s.now + restoreTime ((cs.map fun c => c.2.size).foldl max 0)
    cs.foldl (fun s c =>
      let e := c.1.1.2
      let s := if e.st = .suspended then s.setHeader (s.caskPages e.pdom c.2.va 256) c.2.va hfState csClaimed else s
      (s.setTask c.1.1.1 (some { e with st := .running, tile := some c.1.2, bypass := 0, pre := false })).beginRestore c.1.2 c.1.1.1 c.2 at_) s
  else ms.foldl (fun s m => s.modTask m.1.1 fun e => { e with pre := false }) s

/-- Starts a gang on tiles. -/
def State.startGang (s : State) (g : List (Nat × TaskEnt)) (ts : List Nat) : State :=
  let ms := g.zip (ts.map tid)
  if g.all fun e => e.2.cask.isNone then ms.foldl (fun s m => s.startMember m.1.1 m.2) s else s.startCasks ms

/-- TASK_START (R390): the gang that the engine chooses now, and the tasks it passes over. -/
def execTaskStart (s : State) : Host.Outcome State Fault Refusal :=
  match s.nextStart with
  | none => .next s
  | some (g, passed) =>
    let free := if gangBound g then s.freeTiles else s.openTiles
    match fitTiles (gangEnts g) free with
    | none => .next s
    | some ts => .next ((passed.foldl (fun s i => s.modTask i fun e => { e with bypass := e.bypass + 1 }) s).startGang g ts)

/-- New entries for the members of a gang cask that was claimed away from home, once enough are free (R456). -/
def State.enterGang (s : State) : State :=
  match s.gangClaims with
  | [] => s
  | c :: cs =>
    let pages := s.caskPages c.pdom c.va 0x400
    let n := hget (s.caskHeader pages c.va) hfNmem + 1
    let is := s.freeEntries.take n
    if is.length < n then s
    else
      let ms := is.mapIdx fun j i => (i, awayEntry s.spawns c.pri (is.headD 0) j n c.pdom
        (some (c.va + (s.caskGran pages c.va 0x100 j).d.toNat)) (some c.va) .ready)
      ms.foldl (fun s m => s.setTask m.1 (some m.2)) { s with spawns := s.spawns + 1, gangClaims := cs }

/-! ## `CASKDUP`, `CASKDISC`, `CASKQ` (R457 to R460) -/

def caskAddr (x : Tile) (a : Nat) : List Flt := if a % 256 ≠ 0 then [x.localT 6 3 a] else []

/-- R458. -/
def execCaskdup (f : CF) (s : State) : Host.Outcome State Fault Refusal :=
  let x := s.tile
  let a := x.sv f.a.toNat
  let b := x.sv f.b.toNat
  let own := x.consumeS 6 0 f.a.toNat ++ x.consumeS 6 1 f.b.toNat ++ caskAddr x a ++ caskAddr x b
  let go := fun (s : State) (_ : Nat) =>
    let n := s.newId
    (n.2.landWaiting 6 (2 ^ 59) [.scalar f.d (.zero 1)] n.1).schedule (s.now + 32) (ordEngine s.cur) (.caskdup s.cur n.1 a b x.pdom x.sv? s.now)
  match x.translate a needR with
  | .pa _ => s.globalSlot (.caskdup f) (x.cCond f) 6 b needW own noGate go
  | _ => s.globalSlot (.caskdup f) (x.cCond f) 6 a needR own noGate go

/-- An instruction on one cask: its unit is reached at issue + 32, its scalar comes at issue + 64. -/
def State.caskSlot (s : State) (i : Instr) (f : CF) (need : Nat) (ev : Nat → Nat → Ev) : Host.Outcome State Fault Refusal :=
  let x := s.tile
  let a := x.sv f.a.toNat
  s.globalSlot i (x.cCond f) 6 a need (x.consumeS 6 0 f.a.toNat ++ caskAddr x a) noGate fun s _ =>
    let n := s.newId
    (n.2.landWaiting 6 64 [.scalar f.d (.zero 1)] n.1).schedule (s.now + 32) (ordEngine s.cur) (ev n.1 a)

/-- R459. -/
def execCaskdisc (f : CF) (s : State) : Host.Outcome State Fault Refusal :=
  s.caskSlot (.caskdisc f) f needRW fun n a => .caskdisc s.cur n a s.tile.pdom s.tile.sv?

/-- R460. -/
def execCaskq (f : CF) (s : State) : Host.Outcome State Fault Refusal :=
  s.caskSlot (.caskq f) f needR fun n a => .caskq s.cur n a s.tile.pdom s.tile.sv?

/-- `CASKDUP` at the cask unit (R458): while it waits, it looks at the source behind each cycle's changes. -/
def State.caskdup (s : State) (t : Tid) (id src dst : Nat) (pdom : BitVec 16) (sv : Bool) (iss : Nat) : State :=
  let s := s.walkLogs pdom src 256
  let h := s.caskHeader (s.caskPages pdom src 256) src
  let n := hget h hfSize
  let status := fun (v : Nat) => s.schedule (max (iss + 64) s.now) (ordLate t) (.statusNow t id v)
  if (headerErr h).isSome then status 4
  else if hget h hfState = csAnchored then s.schedule (s.now + 1) (ordLate t) (.caskdup t id src dst pdom sv iss)
  else if hget h hfState ≠ csSealed then status 1
  else if hget h hfHeld ≠ 0 then status 2
  else if !bit (rightsOf sv pdom.toNat h) 1 then status 3
  else if src < dst + n ∧ dst < src + n then status 5
  else
    let d : Dup := { id := s.nextId, tile := t, land := id, src := src, dst := dst, pdom := pdom, size := n }
    let s := { s with nextId := s.nextId + 1, dups := s.dups ++ [d] }
    (s.schedule (s.now + 1) (ordEngine t) (.dupRow d.id 1)).plan (s.now + ceilDiv n 256) (ordEngine t) .caskdupCopyDone
      { EvArg.none with t := t, n := d.id }

/-- A row of a copy is carried; the header comes last. -/
def State.dupRow (s : State) (id row : Nat) : State :=
  match s.dups.find? fun d => d.id == id with
  | none => s
  | some d =>
    if d.size ≤ 256 * row then s
    else
      let v := s.caskRow (s.caskPages d.pdom (d.src + 256 * row) 256) d.src row
      (s.putCaskRow (s.caskPages d.pdom (d.dst + 256 * row) 256) d.dst row v).schedule (s.now + 1) (ordEngine d.tile) (.dupRow id (row + 1))

/-- CASKDUP_COPY_DONE (R458): the copy's header performs, SEALED, at its new home. -/
def execCaskdupCopyDone (s : State) : Host.Outcome State Fault Refusal :=
  match s.dups.find? fun d => d.id == s.arg.n with
  | none => .next s
  | some d =>
    let pages := s.caskPages d.pdom d.dst 256
    let s := { s with dups := s.dups.filter fun e => e.id != d.id }
    let s := s.putCaskRow pages d.dst 0 (s.caskRow (s.caskPages d.pdom d.src 256) d.src 0)
    let s := ((s.setHeader pages d.dst hfHome d.dst).setHeader pages d.dst hfHrank s.rank).setHeader pages d.dst hfState csSealed
    .next (s.modTile d.tile fun x => x.fillNow d.land 0)

/-- A cask at home gives back its lock or access interval `v`, as `WUNLOCK` and `WCOMPL` would (R459). -/
def State.giveUp (s : State) (v : Nat) : State :=
  let kind : OpKind := if bits v 0 2 < 2 then .unlock else .compl
  let o := { s.newOp ⟨0, 0, 0, 0, 0, 0, false, 0⟩ kind (bits v 8 13) (bits v 24 8) with
    lockTile := tid (bits v 32 5), held := true, loc := true, cask := some 0 }
  let s := if kind = .compl then { s with accRecs := closeAccess o.rank o.win s.accRecs } else s
  ({ s with ops := s.ops ++ [o], nextOpn := s.nextOpn + 1 } : State).schedule (s.now + 1) (ordPort s.rank) (.opEnter o.seq)

/-- The entry is suspended in the cask at its home `va` whose header names its domain. -/
def TaskEnt.inCask (e : TaskEnt) (va h : Nat) : Bool :=
  e.st == .suspended && e.pdom.toNat == hget h hfPdom && (e.cask == some va || e.gcask == some va)

/-- What discarding a cask at home does to its task and to what it holds. -/
def State.discardHome (s : State) (pages : SMap Nat) (va h : Nat) : State :=
  let i := hget h hfTask % 4096
  let s := match s.task i with
    | some e => if e.inCask va h then s.failTask i 3 0 0 else s
    | none => s
  match secOffset h 11 with
  | none => s
  | some o => (List.range (min 63 (s.caskGran pages va o 0).d.toNat)).foldl (fun s i => s.giveUp (s.caskGran pages va o (2 + 2 * i)).d.toNat) s

/-- `CASKDISC` at the cask unit (R459). -/
def State.caskdisc (s : State) (t : Tid) (id va : Nat) (pdom : BitVec 16) (sv : Bool) : State :=
  let s := s.walkLogs pdom va 256
  let pages := s.caskPages pdom va 256
  let h := s.caskHeader pages va
  let st := if (headerErr h).isSome then 3 else if hget h hfState ≠ csSealed ∧ hget h hfState ≠ csAnchored then 1
    else if !bit (rightsOf sv pdom.toNat h) 2 then 2 else 0
  let s := if st ≠ 0 then s
    else
      let s := s.setHeader pages va hfState csDiscarded
      if s.away va h then s
      else
        let all := s.caskPages pdom va (max 256 (hget h hfSize))
        if hget h hfLevel = 0 then s.discardHome all va h
        else
          let s := s.discardHome all va h
          (List.range (hget h hfNmem + 1)).foldl (fun s i =>
            let m := va + (s.caskGran all va 0x100 i).d.toNat
            s.discardHome all m (s.caskHeader all m)) s
  s.modTile t fun x => x.fill id (fillScalar (scalarOf st))

/-- What `CASKQ` reads (R460). -/
def State.caskWord (s : State) (va : Nat) (pdom : BitVec 16) (sv : Bool) : Nat :=
  let h := s.caskHeader (s.caskPages pdom va 256) va
  let ok := hget h hfMagic == caskMagic && hget h hfMajor == 1 && hget h hfMinor == 0
  let r := s.callerRights sv pdom va h
  (if ok then hget h hfState % 8 else 0) + (s.away va h).toNat * 8 + r * 16 +
    (if bit r 3 then hget h hfGen * 2 ^ 16 + hget h hfOutst * 2 ^ 32 else 0)

/-- `CASKQ` at the cask unit. -/
def State.caskq (s : State) (t : Tid) (id va : Nat) (pdom : BitVec 16) (sv : Bool) : State :=
  (s.walkLogs pdom va 256).modTile t fun x => x.fill id (fillScalar (scalarOf (s.caskWord va pdom sv)))

end Sys2Proof.Machine
end

