-- ==== Sys2Proof/Machine/Scan.lean ====
section
/-! DEFINITION. Reductions, scans and the recurrence in their fixed association orders (R100 to R103, R238 to R241). -/

namespace Sys2Proof.Machine

open Check

/-! ## The schedules. A lane is `none` while it is ID; beside each lane stand the flags of the applications attributed to it. -/

abbrev Lane (α : Type) := Option α × Nat

/-- One application of an operator; ID takes part without arithmetic. The flags are attributed to the lane that is written. DESIGN CHOICE: a
lane that meets no application keeps its operand's bits: no FZI or FZO, no canonical NaN, no IV; R86 and R215 speak of an operation's
operands and results, and R100 and R101 do not say what holds where no operation is applied (log entry 28). -/
def appLane {α : Type} (op : α → α → α × Nat) (x y : Lane α) : Lane α :=
  match x.1, y.1 with
  | none, _ => y
  | some a, none => (some a, y.2)
  | some a, some b => let r := op a b; (some r.1, y.2 ||| r.2)

/-- One level of the pairwise tree of R100. -/
def redPairs {α : Type} (op : α → α → α × Nat) : List (Lane α) → List (Lane α)
  | x :: y :: l =>
    let r := appLane op x y
    (r.1, r.2 ||| x.2) :: redPairs op l
  | l => l

def redTree {α : Type} (op : α → α → α × Nat) : Nat → List (Lane α) → List (Lane α)
  | 0, l => l
  | n + 1, l => redTree op n (redPairs op l)

/-- The lanes `k` with `hit k` take the operator of lane `k - d` and themselves. -/
def scanStep {α : Type} (op : α → α → α × Nat) (d : Nat) (hit : Nat → Bool) (t : List (Lane α)) : List (Lane α) :=
  t.mapIdx fun k x => if hit k then appLane op (t.getD (k - d) (none, 0)) x else x

/-- Up-sweep of R101: levels 0 to `n - 1`. -/
def upSweep {α : Type} (op : α → α → α × Nat) (n : Nat) (t : List (Lane α)) : List (Lane α) :=
  (List.range n).foldl (fun t d => scanStep op (2 ^ d) (fun k => k % 2 ^ (d + 1) == 2 ^ (d + 1) - 1) t) t

/-- Down-sweep of R101: levels `n - 2` to 0. -/
def downSweep {α : Type} (op : α → α → α × Nat) (n : Nat) (t : List (Lane α)) : List (Lane α) :=
  (List.range (n - 1)).reverse.foldl
    (fun t d => scanStep op (2 ^ d) (fun k => decide (3 * 2 ^ d ≤ k + 1) && (k + 1 - 3 * 2 ^ d) % 2 ^ (d + 1) == 0) t) t

/-- The schedule of R101 with a carry-in; `n` is the logarithm of the lane count. -/
def bkScan {α : Type} (op : α → α → α × Nat) (n : Nat) (carry : Option α) (t : List (Lane α)) : List (Lane α) :=
  let t := downSweep op n (upSweep op n t)
  match carry with
  | none => t
  | some c => t.map fun x => appLane op (some c, 0) x

/-! ## Operators (R238, R102, R103) -/

/-- The operator that sub selects. DESIGN CHOICE: FZI and FZO act at every application, so that a subnormal intermediate value is flushed: the
schedules speak of one rounding for each application, R215 of the operands and results of the operation (log entry 28). -/
def redOp (ctl t mode sub : Nat) (sat : Bool) (a b : Nat) : Res :=
  if tyF t then
    match sub with
    | 0 => fAdd ctl t mode a b
    | 1 => fMinMax false false ctl t a b
    | 2 => fMinMax true false ctl t a b
    | 6 => fMinMax false true ctl t a b
    | _ => fMinMax true true ctl t a b
  else
    match sub with
    | 0 => (satOr sat t (ival t a + ival t b), 0)
    | 3 => (a &&& b, 0)
    | 4 => (a ||| b, 0)
    | 5 => (a ^^^ b, 0)
    | 1 | 6 => intRes t min a b
    | _ => intRes t max a b

/-- Empty values (Table 4-9). -/
def redEmpty (t sub : Nat) : Nat :=
  if tyF t then
    match sub with
    | 0 => 0
    | 1 | 6 => (fmtOf t).infBits
    | _ => (fmtOf t).signBit true + (fmtOf t).infBits
  else
    match sub with
    | 1 | 6 => wrapI (tyWidth t) (iHigh t)
    | 2 | 7 => wrapI (tyWidth t) (iLow t)
    | 3 => 2 ^ tyWidth t - 1
    | _ => 0

/-- `segop` of R102: whether the lane starts a segment, and its value. -/
def segOp (op : Nat → Nat → Res) (x y : Bool × Nat) : (Bool × Nat) × Nat :=
  if y.1 then ((true, y.2), 0)
  else let r := op x.2 y.2; ((x.1, r.1), r.2)

/-- `recop` of R103; the first part of a pair is `none` for the carry. DESIGN CHOICE: the inner product is a result and then an operand, so FZO
and FZI act on it and it raises flags of its own; the operator's text has RND and no more (log entry 28). -/
def recOp (ctl mode : Nat) (x y : Option Nat × Nat) : (Option Nat × Nat) × Nat :=
  let a2 := y.1.getD 0
  let p := fMul ctl 10 mode a2 x.2
  let q := fAdd ctl 10 mode p.1 y.2
  match x.1, y.1 with
  | some a1, some a2 => let m := fMul ctl 10 mode a1 a2; ((some m.1, q.1), m.2 ||| p.2 ||| q.2)
  | a1, none => ((a1, q.1), p.2 ||| q.2)
  | none, some a2 => ((some a2, q.1), p.2 ||| q.2)

/-! ## Meanings -/

/-- Lanes of a source: ID where inactive. -/
def lanesOf {α : Type} (act : List Bool) (v : List α) : List (Lane α) :=
  List.zipWith (fun a x => (if a then some x else none, 0)) act v

/-- The carry-in (R240): the last element of c, when imm16 bit 0 is 1. -/
def carryOf (x : Tile) (f : VF) (w : Nat) : Option Nat :=
  if f.imm16.getLsbD 0 then some ((x.vElems f.c.toNat w).getD (2048 / w - 1) 0) else none

def carryCheck (x : Tile) (f : VF) (w : Nat) (act : List Bool) : List Flt :=
  if f.imm16.getLsbD 0 && act.any id then x.vConsume (vSlot f) 2 f.c.toNat w (oneHot (2048 / w) (2048 / w - 1)) else []

/-- R239. -/
def execVred (f : VF) (s : State) : Ans :=
  let x := s.tile
  let t := VF.t f
  let w := VF.w f
  let act := x.vActive f w
  let r := (redTree (redOp x.ctl t f.rnd.toNat f.sub.toNat f.sat) (Nat.log2 (2048 / w)) (lanesOf act (x.vElems f.a.toNat w))).headD (none, 0)
  let v := r.1.getD (redEmpty t f.sub.toNat)
  s.issueSlot (.vred f) [] true (x.vConsume (vSlot f) 0 f.a.toNat w act) none
    (s.vLandF f 6 t (vWrite f w ((List.range (2048 / w)).map fun i => some (if i = 0 then v else 0))) [if tyF t then r.2 else 0])

/-- R240. -/
def execVscan (f : VF) (s : State) : Ans :=
  let x := s.tile
  let t := VF.t f
  let w := VF.w f
  let act := x.vActive f w
  let r := bkScan (redOp x.ctl t f.rnd.toNat f.sub.toNat f.sat) (Nat.log2 (2048 / w)) (carryOf x f w) (lanesOf act (x.vElems f.a.toNat w))
  s.issueSlot (.vscan f) [] true (x.vConsume (vSlot f) 0 f.a.toNat w act ++ carryCheck x f w act) none
    (s.vLandF f 8 t (vWrite f w (vOut act f.z (r.map fun l => l.1.getD 0))) (r.map fun l => if tyF t then l.2 else 0))

/-- R240: lane k starts a segment when b.e[k] is not 0. DESIGN CHOICE: the bits are compared, so that -0 is not 0 (log entry 28). -/
def execVsegscan (f : VF) (s : State) : Ans :=
  let x := s.tile
  let t := VF.t f
  let w := VF.w f
  let act := x.vActive f w
  let v := List.zip ((x.vElems f.b.toNat w).map (· != 0)) (x.vElems f.a.toNat w)
  let r := bkScan (segOp (redOp x.ctl t f.rnd.toNat f.sub.toNat f.sat)) (Nat.log2 (2048 / w)) ((carryOf x f w).map fun c => (false, c))
    (lanesOf act v)
  s.issueSlot (.vsegscan f) [] true
    (x.vConsume (vSlot f) 0 f.a.toNat w act ++ x.vConsume (vSlot f) 1 f.b.toNat w act ++ carryCheck x f w act) none
    (s.vLandF f 8 t (vWrite f w (vOut act f.z (r.map fun l => (l.1.getD (false, 0)).2))) (r.map fun l => if tyF t then l.2 else 0))

/-- R241. -/
def execVrec (f : VF) (s : State) : Ans :=
  let x := s.tile
  let act := x.vActive f 32
  let v := List.zip ((x.vElems f.a.toNat 32).map some) (x.vElems f.b.toNat 32)
  let r := bkScan (recOp x.ctl f.rnd.toNat) 6 ((carryOf x f 32).map fun h => (none, h)) (lanesOf act v)
  s.issueSlot (.vrec f) [] true
    (x.vConsume (vSlot f) 0 f.a.toNat 32 act ++ x.vConsume (vSlot f) 1 f.b.toNat 32 act ++ carryCheck x f 32 act) none
    (s.vLandF f 10 10 (vWrite f 32 (vOut act f.z (r.map fun l => (l.1.getD (none, 0)).2))) (r.map (·.2)))

end Sys2Proof.Machine
end

