-- ==== Sys2Proof/Machine/Special.lean ====
section
/-! DEFINITION. The special functions of V1 (R246, R247, Table 8-3): exact values where they are exact, else the function's value to
more than 250 bits, the last bit standing for what is left over, rounded as R247 gives (log entry 12). -/

namespace Sys2Proof.Machine

open Check

/-! ## Fixed-point constants and series, `fxP` fraction bits -/

abbrev fxP : Nat := 288

def fxOne : Nat := 2 ^ fxP

/-- ln 2 as the sum of 1 / (k 2^k). -/
def fxLn2 : Nat := (List.range 290).foldl (fun s k => s + fxOne / ((k + 1) * 2 ^ (k + 1))) 0

/-- arctan (1 / n) by its series. -/
def fxAtanInv (n : Nat) : Nat :=
  ((List.range 130).foldl (fun (s : Int) k =>
    let term : Int := ((fxOne / (n ^ (2 * k + 1) * (2 * k + 1)) : Nat) : Int)
    if k % 2 = 0 then s + term else s - term) 0).toNat

/-- π by Machin's formula. -/
def fxPi : Nat := 16 * fxAtanInv 5 - 4 * fxAtanInv 239

/-- `m * 2 ^ e` in fixed point. -/
def fxOf (m : Nat) (e : Int) : Nat := if 0 ≤ e + fxP then m <<< (e + fxP).toNat else m >>> (-(e + fxP)).toNat

/-- e^r of a fixed-point r below 1 in magnitude. -/
def fxExp (r : Int) : Nat :=
  ((List.range 90).foldl (fun (a : Int × Int) k => let t := a.1 * r / (fxOne : Int) / ((k + 1 : Nat) : Int); (t, a.2 + t))
    ((fxOne : Int), (fxOne : Int))).2.toNat

/-- A value that is not exact: the last bit is set. -/
def inexactV (neg : Bool) (m : Nat) (e : Int) : FVal := .fin neg (2 * m + 1) (e - 1)

/-- e^y for fixed-point y, as mantissa and exponent. -/
def fxExpOf (y : Int) : Nat × Int :=
  let n := (2 * y + fxLn2) / (2 * (fxLn2 : Int))
  (fxExp (y - n * fxLn2), n - fxP)

/-- Beyond this magnitude an exponential over- or underflows. -/
def hugeArg (m : Nat) (e : Int) : Bool := decide (12 ≤ e + (Nat.log2 m : Int))

/-! ## The functions at a finite argument that is not zero -/

/-- 2^x: exact at integers. -/
def exp2V (neg : Bool) (m : Nat) (e : Int) : FVal :=
  if hugeArg m e then inexactV false 1 (if neg then -5000 else 5000)
  else
    let k := (-e).toNat
    let z : Int := if 0 ≤ e then dyInt neg m e 0 else if neg then -(m : Int) else m
    if 0 ≤ e then .fin false 1 z
    else
      let n := z / (2 ^ k : Nat)
      let f := (z % (2 ^ k : Nat)).toNat
      if f = 0 then .fin false 1 n
      else inexactV false (fxExp ((f * fxLn2) >>> k : Nat)) (n - fxP)

/-- e^x. -/
def expV (neg : Bool) (m : Nat) (e : Int) : FVal :=
  if hugeArg m e then inexactV false 1 (if neg then -5000 else 5000)
  else
    let y : Int := fxOf m e
    let r := fxExpOf (if neg then -y else y)
    inexactV false r.1 r.2

/-- log2 of a positive value: exact at powers of two. -/
def log2V (m : Nat) (e : Int) : FVal :=
  let l := Nat.log2 m
  if m = 2 ^ l then (let z := e + l; .fin (decide (z < 0)) z.natAbs 0)
  else
    let up := decide (3 * 2 ^ l ≤ 2 * m)
    let b := if up then 2 ^ (l + 1) else 2 ^ l
    let n : Int := e + l + (if up then 1 else 0)
    let z : Int := ((m : Int) - b) * fxOne / ((m + b : Nat) : Int)
    let zz := z * z / (fxOne : Int)
    let s := ((List.range 70).foldl (fun (a : Int × Int) k =>
      (a.1 * zz / (fxOne : Int), a.2 + a.1 / ((2 * k + 1 : Nat) : Int))) (z, (0 : Int))).2
    let v := n * fxOne + 2 * s * fxOne / (fxLn2 : Int)
    inexactV (decide (v < 0)) v.natAbs (-(fxP : Int))

/-- tanh x. -/
def tanhV (neg : Bool) (m : Nat) (e : Int) : FVal :=
  if e + (Nat.log2 m : Int) < -20 then .fin neg (m * 2 ^ 64 - 1) (e - 64)
  else
    let t := if hugeArg m e then 1 else let r := fxExpOf (-(2 * (fxOf m e : Int))); max 1 (fxOf r.1 r.2)
    inexactV neg (((fxOne - t) * fxOne) / (fxOne + t)) (-(fxP : Int))

/-- 1 / (1 + e^−x). -/
def sigmV (neg : Bool) (m : Nat) (e : Int) : FVal :=
  if hugeArg m e then (if neg then inexactV false 1 (-5000) else inexactV false (fxOne - 1) (-(fxP : Int)))
  else
    let r := fxExpOf (-(fxOf m e : Int))
    let t := fxOf r.1 r.2
    if neg then inexactV false (r.1 * fxOne / (fxOne + t)) r.2 else inexactV false (fxOne * fxOne / (fxOne + t)) (-(fxP : Int))

/-- The alternating series of sine (`odd` 1) or cosine (`odd` 0) over θ² in fixed point, without the factor θ of sine. -/
def fxTrig (odd : Nat) (tt : Nat) : Nat :=
  ((List.range 45).foldl (fun (a : Int × Int) k =>
    let t := -(a.1 * tt / (fxOne : Int)) / (((2 * k + 1 + odd) * (2 * k + 2 + odd) : Nat) : Int)
    (t, a.2 + t)) ((fxOne : Int), (fxOne : Int))).2.toNat

/-- sin 2πy or cos 2πy for y = a / 2^k of at most 1/8. -/
def trigSmall (cosine neg : Bool) (a k : Nat) : FVal :=
  let th := (2 * fxPi * a) >>> k
  let tt := th * th / fxOne
  if cosine then inexactV neg (fxTrig 0 tt) (-(fxP : Int))
  else inexactV neg (a * (2 * fxPi) * fxTrig 1 tt) (-(2 * fxP : Int) - k)

/-- sin 2πf for f = a / 2^k in [0, 1), with k at least 3; the sign of an exact zero is `zneg`. -/
def sinTurn (neg zneg : Bool) (a k : Nat) : FVal :=
  let q := 2 ^ k / 4
  if a % q = 0 then
    match a / q with
    | 1 => .fin neg 1 0
    | 3 => .fin (!neg) 1 0
    | _ => .fin zneg 0 0
  else
    match a * 8 / 2 ^ k with
    | 0 => trigSmall false neg a k
    | 1 => trigSmall true neg (q - a) k
    | 2 => trigSmall true neg (a - q) k
    | 3 => trigSmall false neg (2 * q - a) k
    | 4 => trigSmall false (!neg) (a - 2 * q) k
    | 5 => trigSmall true (!neg) (3 * q - a) k
    | 6 => trigSmall true (!neg) (a - 3 * q) k
    | _ => trigSmall false (!neg) (4 * q - a) k

/-- The fraction of |x| over a denominator of at least 8. -/
def turnOf (m : Nat) (e : Int) : Nat × Nat :=
  if 0 ≤ e then (0, 3) else let k := (-e).toNat; ((m * 8) % 2 ^ (k + 3), k + 3)

/-- sin 2πx; zeros take the sign of x. -/
def sintV (neg : Bool) (m : Nat) (e : Int) : FVal := let a := turnOf m e; sinTurn neg neg a.1 a.2

/-- cos 2πx as the sine a quarter turn on; zeros are +0. -/
def costV (m : Nat) (e : Int) : FVal := let a := turnOf m e; sinTurn false false ((a.1 + 2 ^ a.2 / 4) % 2 ^ a.2) a.2

/-- 1 / √x of a positive value. -/
def rsqV (m : Nat) (e : Int) : FVal :=
  let m := if e % 2 = 0 then m else 2 * m
  let e := if e % 2 = 0 then e else e - 1
  let r := isqrt (2 ^ 320 / m)
  .fin false (2 * r + (if r * r * m = 2 ^ 320 then 0 else 1)) (-160 - e / 2 - 1)

/-! ## Special values (Table 8-3) -/

def oneV (neg : Bool) : FVal := .fin neg 1 0
def zeroV (neg : Bool) : FVal := .fin neg 0 0

inductive Sfu where
  | rcp | rsq | exp2 | log2 | exp | tanh | sigm | sint | cost
deriving DecidableEq, Repr

/-- The exceptions that belong to the operand, and the function's value. -/
def sfuV (k : Sfu) (x : FVal) : Nat × FVal :=
  match x with
  | .nan s => (0, .nan s)
  | .inf neg =>
    match k with
    | .rcp => (0, zeroV neg)
    | .rsq => if neg then (flIV, .nan false) else (0, zeroV false)
    | .log2 => if neg then (flIV, .nan false) else (0, .inf false)
    | .exp2 | .exp => (0, if neg then zeroV false else .inf false)
    | .tanh => (0, oneV neg)
    | .sigm => (0, if neg then zeroV false else oneV false)
    | .sint | .cost => (flIV, .nan false)
  | .fin neg m e =>
    if m = 0 then
      match k with
      | .rcp | .rsq => (flDZ, .inf neg)
      | .log2 => (flDZ, .inf true)
      | .exp2 | .exp | .cost => (0, oneV false)
      | .sigm => (0, .fin false 1 (-1))
      | .tanh | .sint => (0, zeroV neg)
    else
      match k with
      | .rcp => divV (oneV false) (.fin neg m e)
      | .rsq => if neg then (flIV, .nan false) else (0, rsqV m e)
      | .log2 => if neg then (flIV, .nan false) else (0, log2V m e)
      | .exp2 => (0, exp2V neg m e)
      | .exp => (0, expV neg m e)
      | .tanh => (0, tanhV neg m e)
      | .sigm => (0, sigmV neg m e)
      | .sint => (0, sintV neg m e)
      | .cost => (0, costV m e)

/-- R247: RNE to FP32, then to a narrower type in the instruction's mode; FZO on the returned value. -/
def sfuRes (k : Sfu) (ctl t mode a : Nat) : Res :=
  let x := fin ctl t a
  if x.isNan then ((fmtOf t).nanBits, ivOf [x])
  else
    let r := sfuV k x
    if r.2.isNan then ((fmtOf t).nanBits, r.1)
    else
      let y := roundF 10 0 r.2
      if t = 10 then
        let o := fzo ctl 10 y
        (o.1, r.1 ||| o.2)
      else
        let o := fout ctl t mode (fval 10 y.1)
        (o.1, r.1 ||| y.2 ||| o.2)

/-- exp2CR of R106. -/
def exp2CR (a : Nat) : Nat := (sfuRes .exp2 0 10 0 a).1

/-! ## Meanings -/

def State.sfu (s : State) (i : Instr) (f : VF) (k : Sfu) : Ans :=
  s.vOp1 i f 12 (sfuRes k s.tile.ctl (VF.t f) f.rnd.toNat)

/-- R247. -/
def execVrcp (f : VF) (s : State) : Ans := s.sfu (.vrcp f) f .rcp

/-- R247. -/
def execVrsq (f : VF) (s : State) : Ans := s.sfu (.vrsq f) f .rsq

/-- R247. -/
def execVexp2 (f : VF) (s : State) : Ans := s.sfu (.vexp2 f) f .exp2

/-- R247. -/
def execVlog2 (f : VF) (s : State) : Ans := s.sfu (.vlog2 f) f .log2

/-- R247. -/
def execVexp (f : VF) (s : State) : Ans := s.sfu (.vexp f) f .exp

/-- R247. -/
def execVtanh (f : VF) (s : State) : Ans := s.sfu (.vtanh f) f .tanh

/-- R247. -/
def execVsigm (f : VF) (s : State) : Ans := s.sfu (.vsigm f) f .sigm

/-- R247. -/
def execVsint (f : VF) (s : State) : Ans := s.sfu (.vsint f) f .sint

/-- R247. -/
def execVcost (f : VF) (s : State) : Ans := s.sfu (.vcost f) f .cost

/-- R247: every type and mode. -/
def execVsqrt (f : VF) (s : State) : Ans := s.vOp1 (.vsqrt f) f 12 (fSqrt s.tile.ctl (VF.t f) f.rnd.toNat)

/-- R247: every type and mode. -/
def execVdiv (f : VF) (s : State) : Ans := s.vOp2 (.vdiv f) f 12 (fDiv s.tile.ctl (VF.t f) f.rnd.toNat)

end Sys2Proof.Machine
end

