-- ==== Sys2Proof/Machine/Sync.lean ====
section
/-! DEFINITION. `SYNC`: arrival, restart, and the rounds of reach `SYNC` (R171 to R175, R353); class M events (R424). -/

namespace Sys2Proof.Machine

open Check

/-! ## Class M (R34, R359, R424) -/

/-- A class M event reaches a tile with a task: it is taken after at most 64 more bundles, at a free one (log entry 3). -/
def State.raiseM (s : State) (t : Tid) (low : BitVec 4) (info : Word) : State :=
  let (n, s) := s.drawNat
  s.modTile t fun x => if x.task.isSome then { x with mDue := x.mDue ++ [(n % 65, low, info)] } else x

/-- CLASS_M_EVENT (R424). -/
def execClassMEvent (s : State) : Host.Outcome State Fault Refusal := .next (s.raiseM s.arg.t s.arg.low s.arg.w)

/-- The number that a source's last event has (R34). -/
def State.lastSeq (s : State) (cls idx : Nat) : Nat := (s.host.seqs.get 0 (cls * 2 ^ 13 + idx % 2 ^ 13) - 1).toNat

/-- Tiles whose task is bound to a timetable (R392). -/
def State.boundTiles (s : State) : List Tid :=
  (List.finRange 32).filter fun t => match s.taskOf t with | some (_, e) => recRjob e.record != 0 | none => false

/-- Class M from a fabric port on some tiles, with the event that it reports. -/
def State.portM (s : State) (p : Nat) (low : BitVec 4) (ts : List Tid) : State :=
  let s := s.event srcFabric p evOther low.toNat
  let n := s.lastSeq srcFabric p
  ts.foldl (fun s t => s.raiseM t low (BitVec.ofNat 64 n)) s

/-- A port of the die holds a sync stream in its active table. -/
def State.holdsSync (s : State) (stream : Nat) : Bool := s.ports.toList.any fun p => streamKind (p.streams.get 0 stream) == 3

/-! ## The instruction (R171 to R174) -/

/-- Scope of the release of a level (R42). -/
def syncScope (lvl : Nat) : Nat := if lvl = 0 then 1 else if lvl = 3 then 3 else 2

/-- A reach `SYNC` outside a reach job, or of a stream that no port holds (R174). -/
def State.reachErr (s : State) (stream : Nat) : Bool :=
  !(s.holdsSync stream && match s.taskOf s.cur with | some (_, e) => recRjob e.record != 0 | none => false)

/-- R171 to R174: the bundle's slots act, and the sequencer stops. -/
def execSync (f : YF) (s : State) : Host.Outcome State Fault Refusal :=
  let x := s.tile
  let lvl := syncLevel f
  let m := if 2 ≤ lvl then x.sv (YF.a f) else 0
  let m := if lvl = 3 then m % 2 ^ 12 else m
  s.issueSlot (.sync f) [] (x.yCond f)
    ((if 2 ≤ lvl then x.consumeS 7 5 (YF.a f) else []) ++ (if lvl = 3 ∧ s.reachErr m then [x.classS 7 0xA 0] else [])) none
    ((s.startRelease s.cur (syncScope lvl)).onTile fun x =>
      { x with run := .sync (BitVec.ofNat 2 lvl) (syncTimed f) (BitVec.ofNat 32 m) none })

/-! ## Arrival (R172, R173) -/

/-- Everything that R173 waits for has happened; the status of a `WFREE` is not waited for (R327). -/
def State.mayArrive (s : State) (t : Tid) : Bool :=
  let x := s.tileAt t
  match x.run with
  | .sync lvl _ _ none =>
    (x.inflight.all fun l => decide (2 ^ 63 ≤ l.due)) && x.mxNow.isEmpty && x.mq.isEmpty && s.releaseEnds t (s.now + 1) (syncScope lvl.toNat) false
  | _ => false

/-- The tiles that a waiting tile waits for; itself always. -/
def State.participants (s : State) (t : Tid) : List Tid :=
  match (s.tileAt t).run, s.taskOf t with
  | .sync lvl _ mask _, some (_, e) =>
    let g := (s.gangOf e.order).filterMap fun m => m.2.tile
    (List.finRange 32).filter fun u => u == t || (g.contains u &&
      (match lvl.toNat with
       | 0 => spanOf u == spanOf t
       | 1 => true
       | 2 => mask.getLsbD u.val
       | _ => false))
  | _, _ => [t]

def Tile.arrivedAt (x : Tile) : Option Nat := match x.run with | .sync _ _ _ a => a | _ => none

/-- Every participant of a tile that waits below the reach level has arrived. -/
def State.roundDone (s : State) (t : Tid) : Bool :=
  (match (s.tileAt t).run with | .sync lvl .. => lvl != 3 | _ => false) && (s.participants t).all fun u => (s.tileAt u).arrivedAt.isSome

/-- The tile's restart is in the calendar. -/
def State.restartPlanned (s : State) (t : Tid) : Bool :=
  s.agenda.any fun e => match e.ev with | .event .syncRestart a => a.tiles.getLsbD t.val | _ => false

/-- Level and mode of a waiting tile. -/
def Tile.syncForm (x : Tile) : Option (Bool × Bool) := match x.run with | .sync lvl timed _ _ => some (lvl == 0, timed) | _ => none

/-- The restart of the tiles whose last participant has arrived: 3 cycles after it for `.span`, else 6 (R174). -/
def State.planRestart (s : State) : State :=
  let ready := (List.finRange 32).filter fun t => s.roundDone t && !s.restartPlanned t
  [(true, true), (true, false), (false, true), (false, false)].foldl (fun s k =>
    let ts := ready.filter fun t => (s.tileAt t).syncForm == some k
    if ts.isEmpty then s
    else s.plan (s.now + if k.1 then 3 else 6) ordBind .syncRestart { EvArg.none with tiles := tileMask (ts.map (·.val)), flag := k.2 }) s

/-- SYNC_ARRIVAL (R173). -/
def execSyncArrival (s : State) : Host.Outcome State Fault Refusal :=
  let t := s.arg.t
  if !s.mayArrive t then .next s
  else
    .next (s.modTile t fun x => { x with run := match x.run with
      | .sync lvl timed m _ => .sync lvl timed m (some s.now)
      | r => r }).planRestart

/-! ## Restart (R174) -/

/-- A tile goes on after its `SYNC` bundle: the acquire, the mode, and the bundle's RPT cycles. A collision held during the wait is taken as an
engine-time fault (R175). -/
def Tile.restart (x : Tile) (timed : Bool) : Tile :=
  let x := (x.acquire.setSt stTM timed).setSt stTDL (!timed)
  { x.tick with run := .running, syncRest := x.rpt != 0, dueF := x.dueF.map fun f => (f.1, f.2.1, { f.2.2 with kind := .after }) }

/-- The waiting tiles of a list restart, or capture when they wait at `SUSPG` (R450). -/
def State.restartTiles (s : State) (ts : List Tid) (timed : Bool) : State :=
  let ts := ts.filter fun t => (s.tileAt t).arrivedAt.isSome
  let cap := ts.filter fun t => match (s.tileAt t).susp with | some u => u.gang.isSome | none => false
  (ts.filter fun t => !cap.contains t).foldl (fun s t => s.modTile t fun x => x.restart timed) (s.captureGang cap)

/-- SYNC_RESTART (R174). -/
def execSyncRestart (s : State) : Host.Outcome State Fault Refusal :=
  .next (s.restartTiles ((List.finRange 32).filter fun t => s.arg.tiles.getLsbD t.val) s.arg.flag)

/-! ## Reach rounds (R353) -/

/-- The tiles that wait at a stream. -/
def State.waitersOf (s : State) (stream : Nat) : List Tid :=
  (List.finRange 32).filter fun t => match (s.tileAt t).run with | .sync lvl _ m _ => lvl == 3 && m.toNat == stream | _ => false

/-- The participants of this basin in a stream: the bound tasks of the jobs whose tasks wait at it, and while none waits every bound task
(log entry 20). -/
def State.reachParticipants (s : State) (stream : Nat) : List Tid :=
  let jobs := (s.waitersOf stream).filterMap fun t => (s.taskOf t).map fun e => recRjob e.2.record
  s.boundTiles.filter fun t => match s.taskOf t with | some (_, e) => jobs.isEmpty || jobs.contains (recRjob e.record) | none => false

/-- Every participant has arrived two cycles before the slot. -/
def State.roundReady (s : State) (stream : Nat) : Bool :=
  !(s.waitersOf stream).isEmpty && (s.reachParticipants stream).all fun t => (s.waitersOf stream).contains t &&
    (match (s.tileAt t).arrivedAt with | some a => decide (a + 2 ≤ s.now) | none => false)

/-- SYNC_RESULT (R353): a result of 1 releases the participants at the round's slot plus roff, those that had
arrived two cycles before it; `arg.w` is the start of that slot. A
void result raises class M. -/
def execSyncResult (s : State) : Host.Outcome State Fault Refusal :=
  let f := s.arg.flit
  let p := s.arg.port
  let st := s.arg.n
  let g := f.data.gran 0
  if f.kind ≠ 4 ∨ g.bad then .next (s.portM p.val 2 (s.reachParticipants st))
  else if !g.d.getLsbD 0 then .next s
  else
    let go := s.now + ((s.arg.w.toNat + streamRoff (s.ports[p].streams.get 0 st)) - s.ftime.toNat)
    let age := s.ftime.toNat - s.arg.w.toNat
    let ts := (s.waitersOf st).filter fun t => !s.restartPlanned t &&
      (match (s.tileAt t).arrivedAt with | some a => decide (a + 2 + age ≤ s.now) | none => false)
    .next ([true, false].foldl (fun s timed =>
      let us := ts.filter fun t => (s.tileAt t).syncForm == some (false, timed)
      if us.isEmpty then s
      else if go = s.now then s.restartTiles us timed
      else s.plan go ordBind .syncRestart { EvArg.none with tiles := tileMask (us.map (·.val)), flag := timed }) s)

end Sys2Proof.Machine
end

