-- ==== Sys2Proof/Machine/Coll.lean ====
section
/-! DEFINITION. The collective engine of this basin (R360 to R381): records, association orders, staging, steps on partials, destination
writes, launch and reservation; and the operators of the weir switch (R355 to R357). -/

namespace Sys2Proof.Machine

open Check

/-! ## The record (Table 13-1) -/

def crF (r : BitVec 512) (w lo n : Nat) : Nat := bits r.toNat (64 * w + lo) n
def crOp (r : BitVec 512) : Nat := crF r 0 8 4
def crType (r : BitVec 512) : Nat := crF r 0 12 5
def crOpr (r : BitVec 512) : Nat := crF r 0 17 4
def crAlg (r : BitVec 512) : Nat := crF r 0 21 2
def crStrm (r : BitVec 512) : Bool := bit (crF r 0 23 1) 0
def crExcl (r : BitVec 512) : Bool := bit (crF r 0 24 1) 0
def crNocnt (r : BitVec 512) : Bool := bit (crF r 0 25 1) 0
def crK0 (r : BitVec 512) : Nat := crF r 0 32 12
def crSid (r : BitVec 512) : Nat := crF r 0 44 12
def crLo (r : BitVec 512) : Nat := crF r 1 0 13
def crStride (r : BitVec 512) : Nat := crF r 1 13 13
def crN (r : BitVec 512) : Nat := crF r 1 26 13
def crRoot (r : BitVec 512) : Nat := crF r 1 39 13
def crSrc (r : BitVec 512) : Nat := crF r 2 0 64
def crDoff (r : BitVec 512) : Nat := crF r 3 0 36
def crWin (r : BitVec 512) : Nat := crF r 3 36 8
def crThr (r : BitVec 512) : Nat := crF r 5 0 32
def crT0 (r : BitVec 512) : Nat := crF r 6 0 64
def crD (r : BitVec 512) : Nat := crF r 7 0 8
def crVo (r : BitVec 512) : Nat := crF r 7 8 16
def crTp (r : BitVec 512) : Nat := crF r 7 24 16

/-- 4-bit elements move as whole bytes, two to a unit (R362). -/
def crNib (r : BitVec 512) : Bool := crType r == 11 || crType r == 12
def crE (r : BitVec 512) : Nat := if crNib r then crF r 4 0 32 / 2 else crF r 4 0 32
def crZ (r : BitVec 512) : Nat := if crNib r then crF r 4 32 20 / 2 else crF r 4 32 20

/-- Bytes of a unit (R361). -/
def crUnit (r : BitVec 512) : Nat :=
  if crOpr r = 6 then crTp r else if crOpr r = 7 then 8 else if crNib r then 1 else tyWidth (crType r) / 8

/-- Units of a member's source (R364). -/
def crUnits (r : BitVec 512) : Nat := if crOp r = 1 then crN r * crE r else crE r
def crChunks (r : BitVec 512) : Nat := ceilDiv (crUnits r) (max 1 (crZ r))
def crRank (r : BitVec 512) (k : Nat) : Nat := crLo r + k * crStride r

/-- The member index of a rank. -/
def crMember (r : BitVec 512) (rank : Nat) : Option Nat :=
  let d := rank - crLo r
  if crLo r ≤ rank ∧ d % max 1 (crStride r) = 0 ∧ d / max 1 (crStride r) < crN r then some (d / max 1 (crStride r)) else none

def crRootMember (r : BitVec 512) : Nat := (crMember r (crRoot r)).getD 0

/-- Member `k` has a source (Table 13-2). -/
def crHasSrc (r : BitVec 512) (k : Nat) : Bool := crOp r != 3 || k == crRootMember r

/-- The fields that the members of a collective share (R363). -/
def crShared (r : BitVec 512) : Nat :=
  let w := fun i m => (crF r i 0 64 &&& (m ^^^ (2 ^ 64 - 1))) * 2 ^ (64 * i)
  w 0 (0xFFF * 2 ^ 32 + 2 ^ 25) + w 1 0 + w 3 (2 ^ 36 - 1) + w 4 0 + w 5 (2 ^ 32 - 1) + w 6 0 + w 7 0

/-! ## Record checks (R362, R377) -/

/-- Types of an operator (Table 13-3). -/
def collTypeOk (op opr alg t : Nat) : Bool :=
  if op = 2 ∨ op = 3 then decide (t ≤ 12)
  else match opr with
    | 0 => if alg = 1 then t == 10 || t == 8 else (4 ≤ t && t ≤ 7) || t == 10 || t == 8
    | 1 | 2 => if alg = 1 then t == 10 || t == 8 || t == 4 || t == 5 else (4 ≤ t && t ≤ 7) || t == 10 || t == 8
    | 3 | 4 | 5 => decide (t < 8)
    | _ => t == 10

/-- Algorithms of an operation (Table 13-2). -/
def collAlgOk (op alg : Nat) : Bool :=
  match op with
  | 0 => decide (alg < 3)
  | 1 => alg == 0
  | 2 => decide (alg < 2)
  | 3 => decide (alg < 3)
  | 4 => decide (alg < 3)
  | _ => alg == 0

/-- The failing fields, by rising bit position. -/
def collErrs (r : BitVec 512) : List (Nat × Nat) :=
  let op := crOp r
  let opr := crOpr r
  let alg := crAlg r
  let f := fun (w lo n : Nat) (b : Bool) => recField (64 * w + lo) n b
  let odd := fun v : Nat => (op == 2 || op == 3) && crNib r && v % 2 == 1
  let z := crF r 4 32 20
  let zb := min (crZ r) (crUnits r) * crUnit r
  let last := crLo r + (crN r - 1) * crStride r
  f 0 0 8 (crF r 0 0 8 != 1) ++ f 0 8 4 (decide (5 < op)) ++
  f 0 12 5 (decide (op < 6) && (if opr < 8 then !collTypeOk op opr alg (crType r) else decide (12 < crType r))) ++
  f 0 17 4 (decide (7 < opr) || ((op == 2 || op == 3) && opr != 0) || (opr == 7 && op != 5)) ++
  f 0 21 2 (decide (op < 6) && (!collAlgOk op alg || (alg == 1 && !crStrm r))) ++ f 0 24 1 (crExcl r && op != 5) ++
  f 0 26 6 (crF r 0 26 6 != 0) ++ f 0 44 12 (!crStrm r && crSid r != 0) ++ f 0 56 8 (crF r 0 56 8 != 0) ++
  f 1 0 13 (decide (8191 < last)) ++ f 1 13 13 (crStride r == 0) ++ f 1 26 13 (crN r == 0 || decide (4608 < crN r)) ++
  f 1 39 13 (if op = 3 ∨ op = 4 then (crMember r (crRoot r)).isNone else crRoot r != 0) ++ f 1 52 12 (crF r 1 52 12 != 0) ++
  f 3 44 20 (crF r 3 44 20 != 0) ++ f 4 0 32 (crF r 4 0 32 == 0 || odd (crF r 4 0 32)) ++
  f 4 32 20 (z == 0 || odd z || decide (262144 < zb)) ++ f 4 52 12 (crF r 4 52 12 != 0) ++ f 5 32 32 (crF r 5 32 32 != 0) ++
  f 6 0 64 (crT0 r % 4 != 0 || (!crStrm r && crT0 r != 0)) ++ f 7 0 8 (opr != 6 && crD r != 0) ++
  f 7 8 16 (if opr = 6 then crVo r % 4 != 0 || decide (crVo r < 8) else crVo r != 0) ++
  f 7 24 16 (if opr = 6 then crTp r % 4 != 0 || decide (crTp r < crVo r + 4 * crD r) else crTp r != 0) ++ f 7 40 24 (crF r 7 40 24 != 0)

/-! ## Steps and their order (R366 to R369) -/

/-- A step at member `k`: the operands in fold order, partials by stage and none for the member's own chunk; what it writes (0 nothing, 1 the result,
2 the first operand, 3 the empty value); the members that get the result, with the stage at which they take it; whether it goes to the
package's slot of the stream. -/
structure CRule where
  k : Nat
  ins : List (Option Nat)
  wr : Nat
  out : List (Nat × Nat)
  port : Bool
deriving DecidableEq, Repr

/-- A run of units of one chunk that is folded alike: source units a to b - 1, and what is added for the destination unit. -/
structure CPath where
  a : Nat
  b : Nat
  sh : Int
  rules : List CRule
deriving DecidableEq, Repr

/-- Members in a line: member, whether it folds its own chunk in, what it writes. -/
def lineRules (l : List (Nat × Bool × Nat)) : List CRule :=
  l.mapIdx fun i e =>
    { k := e.1, ins := (if i = 0 then [] else [some i]) ++ (if e.2.1 then [none] else []), wr := e.2.2,
      out := match l[i + 1]? with | some n => [(n.1, i + 1)] | none => [], port := false }

def ringFrom (s m n : Nat) : List Nat := (List.range m).map fun i => (s + i) % n

/-- The fold of R366 that ends at a member, and the gather that follows it. -/
def foldLine (n last : Nat) (gather : Bool) : List CRule :=
  lineRules ((ringFrom (last + 1) n n).map (fun k => (k, true, if k = last then 1 else 0)) ++
    (if gather then (ringFrom (last + 1) (n - 1) n).map fun k => (k, false, 1) else []))

/-- Data that pass round the ring from a member. -/
def passLine (n own : Nat) : List CRule := lineRules ((own, true, 1) :: (ringFrom (own + 1) (n - 1) n).map fun k => (k, false, 1))

/-- R369. -/
def scanLine (n : Nat) (excl : Bool) : List CRule :=
  lineRules ((List.range n).map fun k => (k, true, if excl then (if k = 0 then 3 else 2) else 1))

def powers : List Nat := (List.range 13).map (2 ^ ·)

/-- The members whose values a member folds in, in order (R367), and the one that it sends to. -/
def treeKids (k n : Nat) : List Nat := (powers.filter fun t => k % (2 * t) == 0 && decide (k + t < n)).map (k + ·)
def treeParent (k : Nat) : Nat := k - (powers.find? fun t => k % (2 * t) != 0).getD 0

def treeDown (n skip : Nat) : List CRule :=
  ((List.range (n - 1)).map (· + 1)).map fun k =>
    { k := k, ins := [some (n + k)], wr := if k = skip then 0 else 1, out := (treeKids k n).map fun j => (j, n + j), port := false }

/-- The fold toward member 0, where `wr` and `out` say what becomes of the result. -/
def treeUp (n wr : Nat) (out : List (Nat × Nat)) : List CRule :=
  (List.range n).map fun k =>
    { k := k, ins := none :: (treeKids k n).map some, wr := if k = 0 then wr else 0, out := if k = 0 then out else [(treeParent k, k)],
      port := false }

def toKids (k n : Nat) : List (Nat × Nat) := (treeKids k n).map fun j => (j, n + j)

def treeBroadcast (n root : Nat) : List CRule :=
  (if root = 0 then [{ k := 0, ins := [none], wr := 1, out := toKids 0 n, port := false }]
   else [{ k := root, ins := [none], wr := 1, out := [(0, 2 * n)], port := false },
         { k := 0, ins := [some (2 * n)], wr := 1, out := toKids 0 n, port := false }]) ++ treeDown n root

def treeReduce (n root : Nat) : List CRule :=
  if root = 0 then treeUp n 1 []
  else treeUp n 0 [(root, 2 * n + 1)] ++ [{ k := root, ins := [some (2 * n + 1)], wr := 1, out := [], port := false }]

/-- The members of one package fold in ascending index, and the last hands the result to the port (R368). -/
def weirLine (ms : List Nat) : List CRule :=
  (lineRules (ms.map fun k => (k, true, 0))).mapIdx fun i q => { q with port := decide (i + 1 = ms.length) }

def weirFold (pkg : Nat → Nat) (n : Nat) : List CRule :=
  (((List.range n).map pkg).eraseDups).flatMap fun p => weirLine ((List.range n).filter fun k => pkg k == p)

/-- The paths of chunk `c`; `pkg` gives a member's package. -/
def collPaths (pkg : Nat → Nat) (r : BitVec 512) (c : Nat) : List CPath :=
  let n := crN r
  let lo := c * crZ r
  let hi := min ((c + 1) * crZ r) (crUnits r)
  let root := crRootMember r
  let alg := crAlg r
  let whole := fun (rules : List CRule) => [({ a := lo, b := hi, sh := 0, rules := rules } : CPath)]
  match crOp r with
  | 0 =>
    if alg = 1 then whole (weirFold pkg n)
    else if alg = 2 then whole (treeUp n 1 (toKids 0 n) ++ treeDown n n)
    else (List.range n).map fun j =>
      { a := lo + j * (hi - lo) / n, b := lo + (j + 1) * (hi - lo) / n, sh := 0, rules := foldLine n j true }
  | 1 => (List.range n).map fun j =>
      let a := max lo (j * crE r)
      { a := a, b := max a (min hi ((j + 1) * crE r)), sh := -((j * crE r : Nat) : Int), rules := foldLine n j false }
  | 2 => (List.range n).map fun j =>
      { a := lo, b := hi, sh := ((j * crE r : Nat) : Int),
        rules := if alg = 1 then [{ k := j, ins := [none], wr := 0, out := [], port := true }] else passLine n j }
  | 3 => whole (if alg = 1 then [{ k := root, ins := [none], wr := 0, out := [], port := true }]
      else if alg = 2 then treeBroadcast n root else passLine n root)
  | 4 => whole (if alg = 1 then weirFold pkg n else if alg = 2 then treeReduce n root else foldLine n root false)
  | _ => whole (scanLine n (crExcl r))

/-! ## Pieces: what one flit carries (R368, R370) -/

/-- Flits of a triple. -/
def crSplit (r : BitVec 512) : Nat := max 1 (ceilDiv (crD r) 62)

/-- The pieces of a path: first byte and length, or for rescale the triple and the place among its flits. -/
def collPieces (r : BitVec 512) (p : CPath) : List (Nat × Nat) :=
  if crOpr r = 6 then (List.range (p.b - p.a)).flatMap fun u => (List.range (crSplit r)).map fun q => (u, q)
  else
    let n := (p.b - p.a) * crUnit r
    (List.range (ceilDiv n 256)).map fun i => (256 * i, min 256 (n - 256 * i))

/-- Elements of v in the q-th flit of a triple. -/
def crVec (r : BitVec 512) (q : Nat) : Nat := min 62 (crD r - 62 * q)

/-- Data bytes of a piece. -/
def pieceLen (r : BitVec 512) (p : Nat × Nat) : Nat := if crOpr r = 6 then 8 + 4 * crVec r p.2 else p.2

/-- BF16 is widened for the fold of a package and rounded once (R355, R368). -/
def crWide (r : BitVec 512) : Bool := crAlg r == 1 && crOpr r == 0 && crType r == 8 && crOp r != 2 && crOp r != 3

def splitGran (w : Nat) (g : Gran) : List Nat := (List.range (64 / w)).map fun i => bits g.d.toNat (w * i) w
def joinGran (w : Nat) (bad : Bool) (l : List Nat) : Gran := let d : Word := BitVec.ofNat 64 (packNat w l); ⟨d, rindOf bad d⟩

def widenGrans (l : List Gran) : List Gran :=
  l.flatMap fun g => let e := (splitGran 16 g).map (· * 2 ^ 16); [joinGran 32 g.bad (e.take 2), joinGran 32 g.bad (e.drop 2)]

def toBf16 (x : Nat) : Nat := (roundF 8 0 (fval 10 x)).1

def narrowGrans : List Gran → List Gran
  | a :: b :: l => joinGran 16 (a.bad || b.bad) ((splitGran 32 a ++ splitGran 32 b).map toBf16) :: narrowGrans l
  | _ => []

/-! ## Operators (R355, R356, R362, R370) -/

/-- `rescale` of R356 on element lists: m, s, then v. -/
def rescaleStep (x y : List Nat) : List Nat :=
  let m1 := x.getD 0 0
  let m2 := y.getD 0 0
  let inf := (fmtOf 10).infBits
  let ninf := (fmtOf 10).signBit true + inf
  if (fval 10 m1).isNan || (fval 10 m2).isNan || m1 == inf || m2 == inf then x.map fun _ => (fmtOf 10).nanBits
  else
    let m := uMinMax true 10 m1 m2
    let weight := fun a => if a = ninf then 0 else exp2CR (fSub 0 10 0 a m).1
    let term := fun v w => if w = 0 then 0 else (fMul 0 10 0 v w).1
    let w1 := weight m1
    let w2 := weight m2
    m :: (List.zipWith (fun a b => uAdd 10 (term a w1) (term b w2)) x y).drop 1

/-- `recop` of R103 on pairs (a, b), the earlier first. -/
def recurStep (x y : Gran) : List Nat :=
  let e := fun (g : Gran) i => bits g.d.toNat (32 * i) 32
  [(fMul 0 10 0 (e x 0) (e y 0)).1, uAdd 10 (fMul 0 10 0 (e y 0) (e x 1)).1 (e y 1)]

/-- One fold step on granules; `bad` tells that a triple of the second operand is bad as a whole. -/
def collCombine (opr t : Nat) (x y : List Gran) (bad : Bool) : List Gran :=
  if opr = 6 then
    let p := bad || x.any Gran.bad || y.any Gran.bad
    let l := rescaleStep (x.flatMap (splitGran 32)) (y.flatMap (splitGran 32))
    (List.range x.length).map fun j => joinGran 32 p ((l.drop (2 * j)).take 2)
  else
    List.zipWith (fun a b =>
      if opr = 7 then joinGran 32 (a.bad || b.bad) (recurStep a b)
      else joinGran (tyWidth t) (a.bad || b.bad)
        (List.zipWith (fun u v => (redOp 0 t 0 opr false u v).1) (splitGran (tyWidth t) a) (splitGran (tyWidth t) b))) x y

/-- The empty value (R369). -/
def collEmpty (r : BitVec 512) (n : Nat) : List Gran :=
  match crOpr r with
  | 7 => List.replicate n (joinGran 32 false [0x3F800000, 0])
  | 6 => joinGran 32 false [(fmtOf 10).signBit true + (fmtOf 10).infBits, 0] :: List.replicate (n - 1) .zero
  | o => let w := tyWidth (crType r); List.replicate n (joinGran w false (List.replicate (64 / w) (redEmpty (crType r) o)))

def voidData : Reg 32 := ⟨0, rindRep 32 0xDD⟩

/-! ## The weir switch's combination (R355, R357), for what arrives in a combined slot -/

/-- Operator codes of kind 6 as those of a record (Table 12-8). -/
def weirOpr (op : Nat) : Nat := if op = 1 then 2 else if op = 2 then 1 else op

def weirTypeOk (op t : Nat) : Bool :=
  match op with
  | 0 => t == 10 || t == 8
  | 1 => t == 10 || t == 8 || t == 4 || t == 5
  | 2 => t == 10 || t == 8 || t == 4 || t == 5
  | 6 => t == 10
  | _ => decide (t < 8)

/-- A combine slot: inputs in ascending port order, none for one that is missing or fails its tag. -/
def weirCombine (l : List (Option Flit)) : Flit :=
  let fs := l.filterMap fun x => x
  match fs with
  | [] => { Flit.void with kind := 5, data := voidData }
  | f :: rest =>
    let same := rest.all fun g => g.kind == f.kind && g.op == f.op && g.type == f.type && g.count == f.count
    if fs.length ≠ l.length ∨ !same ∨ f.kind ≠ 6 ∨ 6 < f.op.toNat ∨ !weirTypeOk f.op.toNat f.type.toNat then { f with data := voidData }
    else
      let n := (f.count.toNat + 8) / 8
      let opr := weirOpr f.op.toNat
      let wide := f.op = 0 ∧ f.type = 8
      let val := fun (g : Flit) => let v := g.data.grans.take n; if wide then widenGrans v else v
      let acc := rest.foldl (fun a g => collCombine opr (if wide then 10 else f.type.toNat) a (val g) false) (val f)
      let out := if wide then narrowGrans acc else acc
      { f with data := Reg.ofGrans 32 (out ++ List.replicate (32 - out.length) .zero) }

/-! ## Records of the engine -/

def State.collBy (s : State) (p : CollRec → Bool) : Option CollRec := s.colls.find? p
def State.collOf (s : State) (c : CollId) : Option CollRec := s.collBy fun q => q.id == c
def State.collAt (s : State) (opn : Nat) : Option CollRec := s.collBy fun q => q.opn == opn

def State.modColl (s : State) (opn : Nat) (f : CollRec → CollRec) : State :=
  { s with colls := s.colls.map fun c => if c.opn = opn then f c else c }

/-- The package of a member. -/
def State.memberPkg (s : State) (r : BitVec 512) (k : Nat) : Nat := (s.pkgOf (crRank r k)).getD 0

def State.pathsOf (s : State) (r : BitVec 512) (c : Nat) : List CPath := collPaths (s.memberPkg r) r c

/-- A member is a destination (Table 13-2). -/
def crIsDest (r : BitVec 512) (k : Nat) : Bool := crOp r != 4 || k == crRootMember r

/-- Pieces that a member writes. -/
def State.writeCount (s : State) (r : BitVec 512) (k : Nat) : Nat :=
  ((List.range (crChunks r)).flatMap fun c => (s.pathsOf r c).map fun p =>
    (collPieces r p).length * (if crAlg r = 1 then (crIsDest r k).toNat else (p.rules.filter fun q => q.k == k && q.wr != 0).length)).sum

/-- A partial that one member sends to another, or hands to its package's port for the switch. -/
structure Passed where
  part : PartId
  src : Nat
  dst : Nat
  port : Bool
deriving DecidableEq, Repr

/-- The partials of a collective in the order of R368: chunk, stage, path, piece. -/
def State.flitSeq (s : State) (r : BitVec 512) : List Passed :=
  (List.range (crChunks r)).flatMap fun c =>
    let ps := (s.pathsOf r c).mapIdx fun i p => (i, p)
    let rows := (ps.map fun p => p.2.rules.length).foldl max 0
    (List.range rows).flatMap fun j => ps.flatMap fun p =>
      match p.2.rules[j]? with
      | none => []
      | some q =>
        (List.range (collPieces r p.2).length).flatMap fun x =>
          let idn := fun stage => ({ coll := ⟨crLo r, crStride r, crN r, 0⟩, chunk := c, path := p.1, stage := stage, piece := x, wide := .zero 32 } : PartId)
          (q.out.map fun o => ⟨idn o.2, q.k, o.1, false⟩) ++ (if q.port then [⟨idn 0, q.k, q.k, true⟩] else [])

/-- What the slots of a weir collective bring, in order: chunk, path, piece. -/
def State.weirItems (s : State) (r : BitVec 512) : List (Nat × Nat × Nat) :=
  (List.range (crChunks r)).flatMap fun c => ((s.pathsOf r c).mapIdx fun i p => (i, p)).flatMap fun p =>
    (List.range (collPieces r p.2).length).map fun x => (c, p.1, x)

/-! ## Slots of a stream (R343, R368, R375) -/

def dkind (e : BitVec 32) : Nat := bits e.toNat 30 2
def dstream (e : BitVec 32) : Nat := bits e.toNat 18 12
def akind (e : BitVec 32) : Nat := bits e.toNat 16 2
def astream (e : BitVec 32) : Nat := bits e.toNat 4 12

def Port.entryAt (p : Port) (i : Nat) : BitVec 32 := p.active.getD (i % max 1 p.active.length) 0

/-- Slots that begin in [a, b) and whose entry is one of those selected. -/
def Port.slotCount (p : Port) (sel : BitVec 32 → Bool) (a b : Nat) : Nat :=
  let i0 := (a - p.t0.toNat + 3) / 4
  let i1 := (b - p.t0.toNat + 3) / 4
  ((List.range (i1 - i0)).filter fun i => sel (p.entryAt (i0 + i))).length

def departsOn (sid : Nat) (e : BitVec 32) : Bool := dkind e == 1 && dstream e == sid
def arrivesOn (sid : Nat) (e : BitVec 32) : Bool := akind e == 1 && astream e == sid

/-- Two streams of a port that take their flits from one towpath context (R351, R371); a stream and itself always. -/
def Port.sameCtx (p : Port) (a b : Nat) : Bool :=
  let e := fun i => p.streams.get 0 i
  a == b || (streamKind (e a) == 1 && streamKind (e b) == 1 && streamCtx (e a) == streamCtx (e b))

/-- The slots in which a port sends, or expects, flits of the context of a stream. -/
def Port.sends (p : Port) (sid : Nat) (e : BitVec 32) : Bool := dkind e == 1 && p.sameCtx sid (dstream e)
def Port.expects (p : Port) (sid : Nat) (e : BitVec 32) : Bool := akind e == 1 && p.sameCtx sid (astream e)

/-- The port among those whose slots serve a stream that carries it to or from a package: that of the link of R347, else the first (log entry
20); none when another die drives that link. -/
def State.streamVia (s : State) (ps : List (Fin 9)) (link : Nat) : Option (Fin 9) :=
  (s.portOfLink link).map fun p => if ps.contains p then p else ps.headD p

/-- The ports whose slots carry a stream out, and in. -/
def State.streamOuts (s : State) (sid : Nat) : List (Fin 9) := (List.finRange 9).filter fun p => s.ports[p].active.any (departsOn sid)
def State.streamIns (s : State) (sid : Nat) : List (Fin 9) := (List.finRange 9).filter fun p => s.ports[p].active.any (arrivesOn sid)

/-- The link on which another package's flits for this one arrive (R347). -/
def State.backLink (s : State) (pkg : Nat) : Nat := (s.myPkg + s.nPkgs - pkg) % max 1 s.nPkgs / max 1 s.rotor

/-- The port of this die in whose slots a partial of a stream collective leaves the package (R368, R371). -/
def State.leavesBy (s : State) (r : BitVec 512) (e : Passed) : Option (Fin 9) :=
  if !crStrm r || s.memberPkg r e.src != s.myPkg then none
  else if e.port then (s.streamOuts (crSid r)).head?
  else if s.memberPkg r e.dst = s.myPkg then none
  else s.streamVia (s.streamOuts (crSid r)) (s.connLink (s.memberPkg r e.dst)).1

/-- The port of this die in whose slots a partial of a ring or tree comes from another package. -/
def State.comesBy (s : State) (r : BitVec 512) (e : Passed) : Option (Fin 9) :=
  if e.port || s.memberPkg r e.dst != s.myPkg || s.memberPkg r e.src = s.myPkg then none
  else s.streamVia (s.streamIns (crSid r)) (s.backLink (s.memberPkg r e.src))

/-- What the slots of a port carry out, and in, for a collective: the partials of every member of the package, in order (log entry 20). -/
def State.slotSeq (s : State) (r : BitVec 512) (p : Fin 9) : List Passed := (s.flitSeq r).filter fun e => s.leavesBy r e == some p
def State.arriveSeq (s : State) (r : BitVec 512) (p : Fin 9) : List Passed := (s.flitSeq r).filter fun e => s.comesBy r e == some p

/-! ## Messages between engines (R373) -/

def State.collSend (s : State) (rank : Nat) (m : CollMsg) : State :=
  if rank = s.rank then
    let at_ := s.now + 4
    match m with
    | .launch l => s.plan at_ (ordPort rank) .launchNotice { EvArg.none with launch := l }
    | .request c => s.plan at_ (ordPort rank) .reservationRequest { EvArg.none with coll := c }
    | .grant c k => s.plan at_ (ordPort rank) .reservationGrant { EvArg.none with coll := c, n := k }
    | .go c => s.plan at_ (ordPort rank) .go { EvArg.none with coll := c }
    | .fail c e => s.plan at_ (ordPort rank) .go { EvArg.none with coll := c, code := BitVec.ofNat 5 e }
  else { s with collOut := s.collOut ++ [(s.now, rank, m)] }

/-! ## Reservation (R373) -/

/-- The members that a member's partials go to or come from. -/
def State.partners (s : State) (r : BitVec 512) (k : Nat) : List Nat :=
  ((s.pathsOf r 0).flatMap fun p => p.rules.flatMap fun q =>
    (q.out.filter fun o => o.1 == k || q.k == k).flatMap fun o => [q.k, o.1]).eraseDups.filter (· != k)

/-- The ports of this die in which a member needs a context. -/
def State.ctxPorts (s : State) (r : BitVec 512) (k : Nat) : List (Fin 9) :=
  ((s.partners r k).flatMap fun m =>
    let p := s.memberPkg r m
    if p = s.myPkg then [0]
    else
      (s.portOfLink (s.connLink p).1).toList ++ (s.portOfLink (s.backLink p)).toList).eraseDups

/-- Towpath contexts of a port that its stream table fixes (R375). -/
def Port.fixedCtx (p : Port) : Nat := (((p.streams.filter fun e => streamKind e.2 == 1).map fun e => streamCtx e.2).eraseDups).length

def crPool (r : BitVec 512) : Nat := 2 * crZ r * crUnit r

/-- Every resource that a member needs can be taken. -/
def State.collFits (s : State) (c : CollRec) : Bool :=
  let on := s.colls.filter fun q => q.granted && !crStrm q.record
  decide (on.length < 16) && decide ((on.map fun q => crPool q.record).sum + crPool c.record ≤ 8388608) &&
  (s.ctxPorts c.record c.member).all fun p => decide (s.ports[p].ctx.length + s.ports[p].fixedCtx < 16)

def State.modPort (s : State) (p : Fin 9) (f : Port → Port) : State := { s with ports := s.ports.set p (f s.ports[p]) }

/-- Serves the requests that wait, in arrival order, while the first can be granted. -/
def State.serveGrants : Nat → State → State
  | 0, s => s
  | n + 1, s =>
    match s.grants with
    | [] => s
    | q :: l =>
      match s.collOf q with
      | none => serveGrants n { s with grants := l }
      | some c =>
        if !s.collFits c then s
        else
          let s := (s.ctxPorts c.record c.member).foldl (fun s p => s.modPort p fun x => { x with ctx := x.ctx ++ [q] })
            (({ s with grants := l } : State).modColl c.opn fun c => { c with granted := true })
          serveGrants n (s.collSend (crRank c.record 0) (.grant q c.member))

/-- A collective ends at this member: its resources are free. -/
def State.dropColl (s : State) (opn : Nat) : State :=
  match s.collAt opn with
  | none => s
  | some c =>
    let free := fun (p : Port) => { p with ctx := p.ctx.filter fun i => i != c.id }
    let s := { s with colls := s.colls.filter fun q => q.opn != opn, ports := s.ports.map free }
    s.serveGrants s.grants.length

def State.failColl (s : State) (opn code : Nat) : State :=
  match s.collAt opn with
  | none => s
  | some _ => (s.opFail opn code).dropColl opn

/-! ## Handle levels (R379) -/

def CollRec.local? (c : CollRec) : Bool :=
  c.late || (c.granted && (c.gone || crStrm c.record) && (!crHasSrc c.record c.member || decide (c.chunks.length = crChunks c.record)))

/-- The collective is visible at this member once everything of Table 13-5 holds. -/
def State.finishColl (s : State) (opn : Nat) : State :=
  match s.collAt opn with
  | none => s
  | some c =>
    if c.local? && c.gone && c.writes == 0 && c.sends == 0 then
      if c.code = 0 ∨ c.code = 8 then
        let s := if c.code = 8 then s.modOp opn fun o => { o with poisoned := true } else s
        (s.opLevel opn 2).dropColl opn
      else s.failColl opn c.code
    else s

/-- A piece has been written or accepted; the first code other than 8 stays. -/
def State.collDone (s : State) (opn : Nat) (written : Bool) (code : Nat) : State :=
  (s.modColl opn fun c => { c with
    writes := if written then c.writes - 1 else c.writes, sends := if written then c.sends else c.sends - 1,
    code := if code = 0 then c.code else if c.code = 0 ∨ c.code = 8 then (if code = 8 then 8 else code) else c.code }).finishColl opn

/-! ## Destination writes (R372) -/

/-- Where a piece goes in the window: offsets, lengths, and the byte of the value at which each begins. -/
def pieceDest (r : BitVec 512) (p : CPath) (x : Nat × Nat) : List (Nat × Nat × Nat) :=
  let base := (crDoff r : Int) + ((p.a : Int) + p.sh) * (crUnit r : Int)
  if crOpr r = 6 then
    let o := (base + ((x.1 * crTp r : Nat) : Int)).toNat
    (if x.2 = 0 then [(o, 8, 0)] else []) ++ (if crVec r x.2 = 0 then [] else [(o + crVo r + 248 * x.2, 4 * crVec r x.2, 8)])
  else [((base + (x.1 : Int)).toNat, x.2, 0)]

/-- Granule `j` of a piece, as events name it: by its byte in the units of the member, and the operation (log entry 21). -/
def CollRec.granNo (c : CollRec) (p : CPath) (x : Nat × Nat) (j : Nat) : Nat :=
  (if crOpr c.record = 6 then (p.a + x.1) * crTp c.record + 248 * x.2 else p.a * crUnit c.record + x.1) / 8 + j + c.opn % 2 ^ 16 * 2 ^ 45

/-- A destination write is checked as a put of member rank `src` (R311, R372). -/
def State.collPut (s : State) (c : CollRec) (src : Nat) (p : CPath) (x : Nat × Nat) (v : List Gran) : State :=
  let win := crWin c.record
  let got := (v.mapIdx fun j g => (j, g)).foldl (fun (m : SMap Gran) e => m.set Gran.zero e.1 e.2) ([] : SMap Gran)
  let ds := pieceDest c.record p x
  let flit := fun (d : Nat × Nat × Nat) =>
    { Flit.void with kind := 1, type := BitVec.ofNat 5 (crType c.record), src := BitVec.ofNat 13 src, dst := BitVec.ofNat 13 s.rank,
                     win := BitVec.ofNat 8 win, count := (flitSpan d.1 d.2.1).2, offset := (flitSpan d.1 d.2.1).1 }
  let bad := ds.findSome? fun d =>
    match s.portCheck (flit d) rightPut (flitLen (flit d)) with
    | .error e => some (flit d, e)
    | .ok w => if w.st = .passive then some (flit d, 1) else none
  match bad with
  | some (f, e) =>
    ((s.modWindow win fun w => { w with rej := w.rej + 1 }).event srcPort 0 evReject (win + e * 2 ^ 8 + f.src.toNat * 2 ^ 16)).schedule (s.now + 1)
      (ordPort s.rank) (.collDone c.opn true e)
  | none =>
    let ls := ds.map fun d => (d, flitData [{ r := d.1, a := d.2.2, len := d.2.1, got := got }] d.1 d.2.1)
    let ws := ls.map fun l => (l.1.1, l.1.2.1, l.2.1)
    let s := s.rindEvents srcPort 0 inWindow (ls.flatMap fun l => l.2.2.map (· + win * 2 ^ 37))
    let poisoned := ds.any fun d => ((List.range ((d.2.2 + d.2.1 + 7) / 8 - d.2.2 / 8)).any fun j => (v.getD (d.2.2 / 8 + j) .zero).bad)
    (s.modWindow win fun w => { w with inFlight := w.inFlight + 1 }).schedule (s.now + 16) (ordPort src) (.collWrite c.opn win src ws poisoned)

/-- A piece that has come from a fabric port over the hop to the basin's port (R350, R372). -/
def State.collPutAt (s : State) (opn src chunk path piece : Nat) (v : List Gran) : State :=
  match s.collAt opn with
  | none => s
  | some c =>
    match (s.pathsOf c.record chunk)[path]? with
    | none => s
    | some p => match (collPieces c.record p)[piece]? with
      | none => s
      | some x => s.collPut c src p x v

/-- A destination write performs; the handle follows in the next cycle. -/
def State.collWrite (s : State) (opn win : Nat) (ws : List (Nat × Nat × Reg 32)) (poisoned : Bool) : State :=
  match s.windows.get none win with
  | none => s
  | some e =>
    let s := ws.foldl (fun (s : State) w =>
      s.applyPut e { Flit.void with count := BitVec.ofNat 8 (w.2.1 - 1), offset := BitVec.ofNat 36 w.1, data := w.2.2 }) s
    (s.modWindow win fun e => { e with inFlight := e.inFlight - 1 }).schedule (s.now + 1) (ordPort s.rank)
      (.collDone opn true (if poisoned then 8 else 0))

/-! ## Steps on partials (R370, R371) -/

/-- Where the member's own units of a piece lie in its source. -/
def CollRec.ownPieces (c : CollRec) (chunk : Nat) (p : CPath) (x : Nat × Nat) : List Piece :=
  let r := c.record
  let got := c.chunks.getD chunk []
  if crOpr r = 6 then
    let a := crSrc r + (p.a + x.1) * crTp r
    [{ r := 0, a := a, len := 8, got := got }] ++
      (if crVec r x.2 = 0 then [] else [{ r := 8, a := a + crVo r + 248 * x.2, len := 4 * crVec r x.2, got := got }])
  else [{ r := 0, a := crSrc r + p.a * crUnit r + x.1, len := x.2, got := got }]

/-- The member's own units of a piece, and whether a triple of theirs is bad. -/
def CollRec.own (c : CollRec) (chunk : Nat) (p : CPath) (x : Nat × Nat) : List Gran × Bool :=
  let r := c.record
  let got := c.chunks.getD chunk []
  let n := pieceLen r x
  let v := (flitData (c.ownPieces chunk p x) 0 n).1.grans.take ((n + 7) / 8)
  let bad := crOpr r == 6 &&
    (let a := crSrc r + (p.a + x.1) * crTp r
     [(a, 8), (a + crVo r, 4 * crD r)].any fun q =>
       (List.range ((q.1 + q.2 + 7) / 8 - q.1 / 8)).any fun j => decide (0 < q.2) && (got.get Gran.zero (q.1 / 8 + j)).bad)
  (if crWide r then widenGrans v else v, bad)

/-- The operand of a step: its value, whether it is bad as a whole, and the rank that sent it. -/
abbrev CIn := List Gran × Bool × Nat

def partIs (p : Option PartId) (chunk path stage piece : Nat) : Bool :=
  match p with
  | some q => q.chunk == chunk && q.path == path && q.stage == stage && q.piece == piece
  | none => false

/-- The value of a partial flit. -/
def partValue (r : BitVec 512) (x : Nat × Nat) (f : Flit) : List Gran :=
  let n := (pieceLen r x + 7) / 8
  if crWide r then (f.data.grans ++ (match f.part with | some q => q.wide.grans | none => [])).take (2 * n) else f.data.grans.take n

def CollRec.operand (c : CollRec) (rank chunk pi : Nat) (p : CPath) (xi : Nat) (x : Nat × Nat) : Option Nat → Option CIn
  | none => if chunk < c.chunks.length then (let v := c.own chunk p x; some (v.1, v.2, rank)) else none
  | some st => (c.waiting.find? fun f => partIs f.part chunk pi st xi).map fun f => (partValue c.record x f, false, f.src.toNat)

def allSome {α : Type} : List (Option α) → Option (List α)
  | [] => some []
  | none :: _ => none
  | some a :: l => (allSome l).map (a :: ·)

/-- A flit that carries a piece. -/
def State.partFlit (s : State) (c : CollRec) (chunk pi stage xi : Nat) (p : CPath) (x : Nat × Nat) (dst : Nat) (port : Bool) (v : List Gran) : Flit :=
  let r := c.record
  let fold := port && (crOp r == 0 || crOp r == 4)
  let v := if port && crWide r then narrowGrans v else v
  { Flit.void with
    kind := if fold then 6 else if crStrm r then 5 else 1, op := if fold then BitVec.ofNat 5 (weirOpr (crOpr r)) else 0,
    type := BitVec.ofNat 5 (crType r), src := BitVec.ofNat 13 s.rank, dst := BitVec.ofNat 13 dst, win := BitVec.ofNat 8 (crWin r),
    count := BitVec.ofNat 8 (pieceLen r x - 1), offset := BitVec.ofNat 36 (((p.a : Int) + p.sh) * (crUnit r : Int)).toNat,
    tag := if crStrm r then BitVec.ofNat 16 (crSid r) else 0, last := true,
    data := Reg.ofGrans 32 (v.take 32 ++ List.replicate (32 - v.length) .zero),
    part := some { coll := c.id, chunk := chunk, path := pi, stage := stage, piece := xi, wide := Reg.ofGrans 32 (v.drop 32 ++ List.replicate (64 - max 32 v.length) .zero) } }

/-- The first partial of a collective, for one that has no flit of its own. -/
def zeroPart (c : CollId) : PartId := { coll := c, chunk := 0, path := 0, stage := 0, piece := 0, wide := .zero 32 }

/-- A granule poisoned as it stands. -/
def poisonGran (g : Gran) : Gran := ⟨g.d, rindOf true g.d⟩

/-- A contribution as a void flit (R351). -/
def voidedFlit (f : Flit) : Flit := { f with data := voidData, part := f.part.map fun d => { d with wide := voidData } }

/-- A partial leaves, `late` cycles from now, void from a late member: through the stream's slots at a port of this die, over the die path to a
port of another, which then reports its acceptance, or to the successor. One inside the package is accepted on its arrival, after 8 or 24
cycles: the places of other basins are not known here (log entry 3). -/
def State.sendPart (s : State) (c : CollRec) (e : Passed) (f : Flit) (late : Nat) : State :=
  let f := if c.late then voidedFlit f else f
  let away := s.memberPkg c.record e.dst != s.myPkg
  if (s.leavesBy c.record e).isSome then s.modColl c.opn fun c => { c with ready := c.ready ++ [(s.now + late, f)] }
  else if e.port || (away && crStrm c.record) then { s with outbox := s.outbox ++ [(s.now + late, f)] }
  else
    let s := s.schedule (s.now + late) (ordPort s.rank) (.send f)
    if away then s
    else
      let (far, s) := s.drawBit
      s.schedule (s.now + late + if far then 24 else 8) (ordPort s.rank) (.collDone c.opn false 0)

/-- Takes a step on a piece, when its operands are there; `hop` is the way from the fabric port of its partial to the basin's port. -/
def State.takeStep (s : State) (opn chunk pi : Nat) (p : CPath) (q : CRule) (xi : Nat) (x : Nat × Nat) (hop : Nat) : State :=
  match s.collAt opn with
  | none => s
  | some c =>
    match allSome (q.ins.map (c.operand s.rank chunk pi p xi x)) with
    | none => s
    | some [] => s
    | some (v :: vs) =>
      let r := c.record
      let t := if crWide r then 10 else crType r
      let first := if v.2.1 && (!vs.isEmpty || !q.out.isEmpty || q.port) then v.1.map poisonGran else v.1
      let acc := vs.foldl (fun a w => collCombine (crOpr r) t a w.1 w.2.1) first
      let made := if vs.isEmpty then [] else (List.range acc.length).filter fun j => (acc.getD j .zero).bad
      let met := if q.ins.contains none then (flitData (c.ownPieces chunk p x) 0 (pieceLen r x)).2 else []
      let s := s.rindEvents srcEngine 1 inColl ((made ++ met).eraseDups.map (c.granNo p x))
      let s := s.modColl opn fun c => { c with waiting := c.waiting.filter fun f =>
        !(q.ins.any fun i => match i with | some st => partIs f.part chunk pi st xi | none => false) }
      let src := v.2.2
      let put := fun (s : State) w => if hop = 0 then s.collPut c src p x w else s.schedule (s.now + hop) (ordPort src) (.collPut opn src chunk pi xi w)
      let s := match q.wr with
        | 0 => s
        | 1 => put s acc
        | 2 => put s v.1
        | _ => put s (collEmpty r v.1.length)
      let late := if q.ins.any Option.isSome then 8 else 0
      let pass := fun (s : State) (stage dst : Nat) (port : Bool) =>
        let f := s.partFlit c chunk pi stage xi p x (crRank r dst) port acc
        s.sendPart c ⟨f.part.getD (zeroPart c.id), c.member, dst, port⟩ f late
      let s := q.out.foldl (fun s o => pass s o.2 o.1 false) s
      if q.port then pass s 0 c.member true else s

/-- The steps of this member that begin with its own chunk. -/
def State.runChunk (s : State) (opn chunk : Nat) : State :=
  match s.collAt opn with
  | none => s
  | some c =>
    ((s.pathsOf c.record chunk).mapIdx fun i p => (i, p)).foldl (fun s ip =>
      (ip.2.rules.filter fun q => q.k == c.member && q.ins.contains none).foldl (fun s q =>
        ((collPieces c.record ip.2).mapIdx fun i x => (i, x)).foldl (fun s x => s.takeStep opn chunk ip.1 ip.2 q x.1 x.2 0) s) s) s

/-- The data of a weir slot's flit. -/
def weirValue (r : BitVec 512) (x : Nat × Nat) (f : Flit) : List Gran := f.data.grans.take ((pieceLen r x + 7) / 8)

/-- A partial arrives at the step that takes it; the switch's output, whose stage is 0, at the destination (R368). -/
def State.takePart (s : State) (c : CollRec) (f : Flit) (hop : Nat) : State :=
  match f.part with
  | none => s
  | some d =>
    if crAlg c.record = 1 ∧ d.stage = 0 then
      (match ((s.pathsOf c.record d.chunk)[d.path]?).bind fun p => (collPieces c.record p)[d.piece]? with
       | some x => if crIsDest c.record c.member then s.collPutAt c.opn f.src.toNat d.chunk d.path d.piece (weirValue c.record x f) else s
       | none => s)
    else
    let s := s.modColl c.opn fun c => { c with waiting := c.waiting ++ [f] }
    match (s.pathsOf c.record d.chunk)[d.path]? with
    | none => s
    | some p =>
      match p.rules.find? fun q => q.k == c.member && q.ins.contains (some d.stage), (collPieces c.record p)[d.piece]? with
      | some q, some x => s.takeStep c.opn d.chunk d.path p q d.piece x hop
      | _, _ => s

/-- TOWPATH_PARTIAL (R371). -/
def execTowpathPartial (s : State) : Host.Outcome State Fault Refusal :=
  let f := s.arg.flit
  match f.part with
  | none => .next (s.event srcEngine 1 evOther 0)
  | some d =>
    match s.collOf d.coll with
    | none => .next (s.event srcEngine 1 evOther 0)
    | some c => .next (s.takePart c f 0)

/-! ## Staging (R364, R365) -/

/-- The granules of a chunk are read, in one step, as they stand before the writes of the cycle (R38). -/
def State.readChunk (s : State) (c : CollRec) (chunk : Nat) : SMap Gran :=
  let r := c.record
  let lo := crSrc r + chunk * crZ r * crUnit r
  let n := (min ((chunk + 1) * crZ r) (crUnits r) - chunk * crZ r) * crUnit r
  (List.range ((lo + n + 7) / 8 - lo / 8)).foldl (fun (m : SMap Gran) j =>
    let g := lo / 8 + j
    m.set Gran.zero g (s.granWas ((c.pages.get 0 (g / 8192) + 8 * (g % 8192)) / 8))) ([] : SMap Gran)

/-- What stands for a chunk that is not ready. -/
def voidChunk (r : BitVec 512) (chunk : Nat) : SMap Gran :=
  let lo := crSrc r + chunk * crZ r * crUnit r
  let n := (min ((chunk + 1) * crZ r) (crUnits r) - chunk * crZ r) * crUnit r
  (List.range ((lo + n + 7) / 8 - lo / 8)).foldl (fun (m : SMap Gran) j => m.set Gran.zero (lo / 8 + j) ⟨0, 0xDD⟩) ([] : SMap Gran)

/-- A chunk is ready (R364): its counter holds a good value at or above the threshold. -/
def State.chunkReady (s : State) (c : CollRec) (chunk : Nat) : Bool :=
  let g := (s.counter ((crK0 c.record + chunk) % 4096)).gran 0
  crNocnt c.record || (!g.bad && decide (crThr c.record ≤ g.d.toNat))

/-- Puts a chunk into the staging pool and takes the steps that it begins. -/
def State.stageChunk (s : State) (opn : Nat) (v : SMap Gran) : State :=
  match s.collAt opn with
  | none => s
  | some c =>
    let k := c.chunks.length
    let s := (s.modColl opn fun c => { c with chunks := c.chunks ++ [v] }).runChunk opn k
    if k + 1 = crChunks c.record then (s.opLevel opn 0).finishColl opn else s

/-- A standing collective whose next chunk is ready. -/
def State.chunkDue (s : State) : Option CollId :=
  (s.collBy fun c => c.gone && !crStrm c.record && crHasSrc c.record c.member && decide (c.chunks.length < crChunks c.record) &&
    s.chunkReady c c.chunks.length).map (·.id)

/-- The next chunk of a standing collective is staged when it is ready (R365). -/
def State.stageNext (s : State) (opn : Nat) : State :=
  match s.collAt opn with
  | none => s
  | some c =>
    if c.gone && !crStrm c.record && crHasSrc c.record c.member && decide (c.chunks.length < crChunks c.record) && s.chunkReady c c.chunks.length then
      s.stageChunk c.opn (s.readChunk c c.chunks.length)
    else s

/-- CHUNK_STAGING (R365). -/
def execChunkStaging (s : State) : Host.Outcome State Fault Refusal :=
  .next (match s.collOf s.arg.coll with
    | none => s
    | some c => s.stageNext c.opn)

/-- Every chunk of a stream collective is staged (R365). -/
def State.streamStage (s : State) (opn : Nat) : State :=
  match s.collAt opn with
  | none => s
  | some c =>
    let s := s.modColl c.opn fun c => { c with granted := true }
    if crHasSrc c.record c.member then
      (List.range (crChunks c.record)).foldl (fun s k =>
        s.stageChunk c.opn (if s.chunkReady c k then s.readChunk c k else voidChunk c.record k)) s
    else (s.opLevel c.opn 0).finishColl c.opn

/-- STREAM_STAGING (R365): at T0 - 64. -/
def execStreamStaging (s : State) : Host.Outcome State Fault Refusal :=
  .next (match s.collOf s.arg.coll with
    | none => s
    | some c => s.streamStage c.opn)

/-- FTIME reaches T0 (R379). -/
def State.collBegin (s : State) (opn : Nat) : State := ((s.modColl opn fun c => { c with gone := true }).opLevel opn 1).finishColl opn

/-! ## What the slots of a stream carry (R351, R352, R368, R375) -/

/-- The stream collective in the context of a stream at a port that a slot belongs to, among those that have begun. -/
def State.streamColl (s : State) (p : Fin 9) (sid lead at_ : Nat) (fits : CollRec → Nat → Bool) (count : Nat → Nat) : Option (CollRec × Nat) :=
  let l := (s.colls.filter fun c =>
      crStrm c.record && s.ports[p].sameCtx sid (crSid c.record) && decide (crT0 c.record + lead ≤ at_)).filterMap fun c =>
    let m := count (crT0 c.record + lead)
    if fits c m then some (c, m) else none
  l.foldl (fun (a : Option (CollRec × Nat)) e => match a with
    | some b => if crT0 b.1.record < crT0 e.1.record then some e else a
    | none => some e) none

/-- The flit of a collective stream's slot that departs now from port `p`, from the context that the stream table names. Nothing of this basin
leaves in a slot of another basin of its package. -/
def State.streamSlot (s : State) (p : Fin 9) (sid : Nat) : Flit × State :=
  let now := s.ftime.toNat
  let void : Flit := { Flit.void with kind := 5, tag := BitVec.ofNat 16 sid, data := voidData }
  match s.streamColl p sid 0 now (fun c m => decide (m < (s.slotSeq c.record p).length))
      (fun a => s.ports[p].slotCount (s.ports[p].sends sid) a now) with
  | none => (void, s)
  | some (c, m) =>
    match (s.slotSeq c.record p)[m]? with
    | none => (void, s)
    | some e =>
      if e.src ≠ c.member then (Flit.void, s)
      else
      let d := e.part
      let s := s.schedule (s.now + if c.late then 4 else 240) (ordPort s.rank) (.collDone c.opn false 0)
      match c.ready.find? fun f => decide (f.1 ≤ s.now) && partIs f.2.part d.chunk d.path d.stage d.piece with
      | some f => (f.2, s.modColl c.opn fun c => { c with ready := c.ready.erase f })
      | none =>
        let ps := s.pathsOf c.record d.chunk
        match ps[d.path]? with
        | none => (void, s)
        | some pth =>
          let x := ((collPieces c.record pth)[d.piece]?).getD (0, 0)
          ({ s.partFlit c d.chunk d.path d.stage d.piece pth x (crRank c.record e.dst) e.port [] with data := voidData }, s)

/-- The rank in the header of what a weir slot brings (R372). -/
def State.weirSender (s : State) (r : BitVec 512) (path : Nat) : Nat :=
  match crOp r with
  | 2 => crRank r path
  | 3 => crRoot r
  | _ =>
    let ks := List.range (crN r)
    let low := (ks.map (s.memberPkg r)).foldl min (s.memberPkg r 0)
    crRank r ((ks.find? fun k => s.memberPkg r k == low).getD 0)

/-- The flit of slot `m` of a stream at a port, when it is for this member; `hop` is its way from the fabric port (R350). -/
def State.streamTake (s : State) (p : Fin 9) (c : CollRec) (m : Nat) (f : Flit) (hop : Nat) : State :=
  let r := c.record
  if crAlg r = 1 then
    match (s.weirItems r)[m]? with
    | none => s
    | some (chunk, pi, xi) =>
      match ((s.pathsOf r chunk)[pi]?).bind fun p => (collPieces r p)[xi]? with
      | none => s
      | some x =>
        if !crIsDest r c.member then s
        else
          let src := if f.kind = 5 ∧ f.part.isNone then s.weirSender r pi else f.src.toNat
          if hop = 0 then s.collPutAt c.opn src chunk pi xi (weirValue r x f)
          else s.schedule (s.now + hop) (ordPort src) (.collPut c.opn src chunk pi xi (weirValue r x f))
  else
    match f.part with
    | some _ => if f.dst.toNat = s.rank then s.takePart c f hop else s
    | none =>
      match (s.arriveSeq r p)[m]? with
      | none => s
      | some e =>
        if e.dst ≠ c.member then s
        else s.takePart c { f with src := BitVec.ofNat 13 (crRank r e.src), part := some { e.part with coll := c.id } } hop

/-- A flit of a collective stream that came on port `p` at FTIME `at_`; it is held while its collective has not been launched (R375). -/
def State.streamArrive (s : State) (p : Fin 9) (sid at_ : Nat) (f : Flit) (hop : Nat) : State :=
  match s.streamColl p sid 240 at_ (fun c m => decide (m < (if crAlg c.record = 1 then (s.weirItems c.record).length
      else (s.arriveSeq c.record p).length)))
      (fun a => s.ports[p].slotCount (s.ports[p].expects sid) a at_) with
  | some (c, m) => s.streamTake p c m f hop
  | none => s.modPort p fun x => { x with held := x.held ++ [(sid, at_, f)] }

/-- A late launch takes what its ports have held, in arrival order. -/
def State.takeHeld (s : State) (r : BitVec 512) : State :=
  (List.finRange 9).foldl (fun s p =>
    let mine := fun (h : Nat × Nat × Flit) => s.ports[p].sameCtx h.1 (crSid r) && decide (crT0 r + 240 ≤ h.2.1)
    let hs := s.ports[p].held.filter mine
    hs.foldl (fun s h => s.streamArrive p h.1 h.2.1 h.2.2 0) (s.modPort p fun x => { x with held := x.held.filter fun h => !mine h })) s

/-! ## Launch (R363, R373, R375, R378) -/

/-- The number of a launch on a group, and the next. -/
def State.nextNum (s : State) (r : BitVec 512) : CollId × State :=
  let g := (crLo r, crStride r, crN r)
  let n := match s.collNums.find? fun e => (e.1, e.2.1, e.2.2.1) == g with | some e => e.2.2.2 | none => 0
  (⟨g.1, g.2.1, g.2.2, n⟩,
   { s with collNums := (g.1, g.2.1, g.2.2, (n + 1) % 2 ^ 32) :: s.collNums.filter fun e => !((e.1, e.2.1, e.2.2.1) == g) })

/-- Cycles until an FTIME. -/
def State.until_ (s : State) (t : Nat) : Nat := t - s.ftime.toNat

/-- A late member has nothing to stage: its own units are void (R375). -/
def State.stageVoid (s : State) (opn : Nat) : State :=
  match s.collAt opn with
  | none => s
  | some c =>
    if crHasSrc c.record c.member then
      (List.range (crChunks c.record)).foldl (fun s k => s.stageChunk opn (voidChunk c.record k)) s
    else s

/-- A collective is launched with the pages of its source (R378). A stream collective after T0 - 64 is late (R375). -/
def State.collLaunch (s : State) (t : Tid) (f : CF) (r : BitVec 512) (pages : SMap Nat) : State :=
  let late := crStrm r && decide (crT0 r - 64 < s.ftime.toNat)
  let o := ({ s with cur := t } : State).newOp f .coll s.rank (crWin r)
  let s := s.issueOp o
  match crMember r s.rank with
  | none => s.opFail o.seq 4
  | some k =>
    if (List.range (crN r)).any fun j => !s.reachable (crRank r j) then s.opFail o.seq 9
    else
      let (idn, s) := s.nextNum r
      let own := fun (l : List Passed) => (l.filter fun e => e.src == k).length
      let gone := fun p => if late then s.ports[p].slotCount (s.ports[p].sends (crSid r)) (crT0 r) s.ftime.toNat else 0
      let sends := ((List.finRange 9).map fun p => own ((s.slotSeq r p).drop (gone p))).sum +
        own ((s.flitSeq r).filter fun e => (s.leavesBy r e).isNone)
      let c : CollRec :=
        { id := idn, tile := t, opn := o.seq, record := r, member := k, pages := pages, at_ := s.now, granted := false, gone := false, late := late,
          chunks := [], waiting := [], ready := [], writes := s.writeCount r k, sends := sends, code := 0 }
      let s := { s with colls := s.colls ++ [c] }
      let s := s.collSend (crRank r 0) (.launch ⟨idn, k, r⟩)
      if !crStrm r then s
      else
        let s := s.schedule (s.now + max 1 (s.until_ (crT0 r))) (ordPort s.rank) (.collBegin o.seq)
        if late then ((s.opLevel o.seq 0).stageVoid o.seq).takeHeld r
        else if s.until_ (crT0 r - 64) = 0 then s.streamStage o.seq
        else s.plan (s.now + s.until_ (crT0 r - 64)) ordRead .streamStaging { EvArg.none with coll := idn }

/-- LAUNCH_NOTICE (R363, R373): member 0's engine matches the notices of one number. -/
def execLaunchNotice (s : State) : Host.Outcome State Fault Refusal :=
  let l := s.arg.launch
  let s := { s with launches := s.launches ++ [l] }
  let ls := s.launches.filter fun q => q.id == l.id
  if ls.length < l.id.n then .next s
  else
    let s := { s with launches := s.launches.filter fun q => q.id != l.id }
    if ls.any fun q => crShared q.record != crShared l.record then
      .next (ls.foldl (fun s q => s.collSend (crRank l.record q.member) (.fail l.id 4)) s)
    else if crStrm l.record then .next s
    else .next (s.collSend (crRank l.record 0) (.request l.id))

/-- RESERVATION_REQUEST (R373). -/
def execReservationRequest (s : State) : Host.Outcome State Fault Refusal :=
  let s := { s with grants := s.grants ++ [s.arg.coll] }
  .next (s.serveGrants s.grants.length)

/-- RESERVATION_GRANT (R373): member 0 asks the next member, or sends go to every one. -/
def execReservationGrant (s : State) : Host.Outcome State Fault Refusal :=
  let c := s.arg.coll
  let rank := fun k => c.lo + k * c.stride
  if s.arg.n + 1 < c.n then .next (s.collSend (rank (s.arg.n + 1)) (.request c))
  else .next ((List.range c.n).foldl (fun s k => s.collSend (rank k) (.go c)) s)

/-- GO (R373): chunks that are ready are staged in its cycle (R365). A code in place of go tells that the notices differ (R363). -/
def execGo (s : State) : Host.Outcome State Fault Refusal :=
  match s.collOf s.arg.coll with
  | none => .next s
  | some c =>
    if s.arg.code ≠ 0 then .next (s.failColl c.opn s.arg.code.toNat)
    else
      let s := (s.modColl c.opn fun c => { c with gone := true }).opLevel c.opn 1
      .next (if crHasSrc c.record c.member then (List.range (crChunks c.record)).foldl (fun s _ => s.stageNext c.opn) s
        else (s.opLevel c.opn 0).finishColl c.opn)

/-! ## The instruction (R376 to R378, R381) -/

/-- A collective record in scratchpad. -/
def Tile.collRecord (x : Tile) (a : Nat) : BitVec 512 := BitVec.ofNat 512 (packNat 64 ((List.range 8).map fun k => (x.pad.gran (a / 8 + k)).d.toNat))

def collAddr (x : Tile) (a : Nat) : List Flt :=
  if padSize ≤ a then [x.localT 6 1 a] else if a % 64 ≠ 0 then [x.localT 6 3 a] else []

/-- The first bad granule of the record, at operand 6. -/
def Tile.collBad (x : Tile) (a : Nat) : List Flt :=
  match (List.range 8).find? fun k => (x.pad.gran (a / 8 + k)).bad with
  | none => []
  | some k =>
    let g := x.pad.gran (a / 8 + k)
    [(rankI 6, x.issueTrap clsI (badLow g) (badInfo 6 6 0 ((a / 8 + k) % 32) g))]

/-- Collectives of the basin that wait for reservation (R374). -/
def State.collWaiting (s : State) : Nat := (s.colls.filter fun c => !c.granted && !crStrm c.record).length

/-- The gates of `.rel` and of R374, with the causes of Table 13-6. -/
def State.collGate (s : State) (f : CF) : List Flt × Option (Wait × State) :=
  let x := s.tile
  let rel := bit f.x.toNat 0
  let full := decide (64 ≤ s.collWaiting)
  if x.timed then
    ((if rel && !s.remoteDone s.cur 2 then [x.classS 6 0xE (winInfo 1 (cHand f))] else []) ++
     (if full then [x.classS 6 0xE (winInfo 2 (cHand f))] else []), none)
  else
    let g := if rel then s.releaseGate 6 2 false else ([], none)
    (g.1, match g.2 with | some w => some w | none => if full then some (.collPlace, s) else none)

/-- The bytes from the first unit of a source to the end of what is read of the last. -/
def crRun (r : BitVec 512) : Nat :=
  if crOpr r = 6 then (crUnits r - 1) * crTp r + (if crD r = 0 then 8 else crVo r + 4 * crD r) else crUnits r * crUnit r

/-- This basin is a member with a source. -/
def State.collSource (s : State) (r : BitVec 512) : Bool := match crMember r s.rank with | some k => crHasSrc r k | none => false

/-- Class T or class S of a unit that acts for the tile after issue, taken at its next cycle (R413). -/
def Tile.unitTrap (x : Tile) (cls low : BitVec 4) (info : Nat) (pc : Word) : Tile :=
  { x with dueF := x.dueF ++ [(x.rclk - 1, 6, { cls := cls, low := low, info := BitVec.ofNat 64 info, kind := .after, pc := pc })] }

/-- `COLL` at issue + start (R378): its source is translated as that of `WPUT` (R328); in free mode it waits for a walk. -/
def State.collStart (s : State) (t : Tid) (f : CF) (r : BitVec 512) (pc : Word) : State :=
  let x := s.tileAt t
  if !s.collSource r then s.collLaunch t f r []
  else match x.runPages (crSrc r) (crRun r) needR with
    | .pages m => s.collLaunch t f r m
    | .fault va c l => s.modTile t fun x => x.unitTrap clsT (BitVec.ofNat 4 c) (walkInfo va l 6) pc
    | .miss va =>
      let s := s.startWalk t va 6
      if x.timed then s.modTile t fun x => x.unitTrap clsS 5 (sInfo 6 0 0 0) pc
      else s.schedule (s.now + 1) (ordPort s.rank) (.coll t f r pc)

/-- R376 to R378. -/
def execColl (f : CF) (s : State) : Host.Outcome State Fault Refusal :=
  let x := s.tile
  let a := x.sv f.a.toNat
  let addr := collAddr x a
  let r := x.collRecord a
  let errs := if addr.isEmpty then x.collBad a ++ (match collErrs r with | p :: _ => [x.recTrap 6 0 p.1 p.2] | [] => []) else []
  let own := x.consumeS 6 0 f.a.toNat ++ addr ++ errs
  let g := s.collGate f
  let go := fun (pages : SMap Nat) =>
    let s := (s.relAct (bit f.x.toNat 0)).markEffect s.cur
    if f.imm20 = 0 then s.collLaunch s.cur f r pages
    else s.schedule (s.now + f.imm20.toNat) (ordPort s.rank) (.coll s.cur f r x.pc)
  if f.imm20 = 0 ∧ errs.isEmpty ∧ addr.isEmpty ∧ s.collSource r then
    match x.runPages (crSrc r) (crRun r) needR with
    | .pages m => s.issueSlot (.coll f) [] (x.cCond f) (own ++ g.1) g.2 (go m)
    | .fault va c l => s.issueSlot (.coll f) [] (x.cCond f) (own ++ g.1) g.2 (s.laterT 6 c l va 6)
    | .miss va =>
      let h := s.missGate 6 va
      s.issueFix (.coll f) [] (x.cCond f) (own ++ g.1 ++ h.1) (s.walkOnMiss 6 va) h.2 s
  else s.issueSlot (.coll f) [] (x.cCond f) (own ++ g.1) g.2 (go [])

end Sys2Proof.Machine
end

