-- ==== Sys2Proof/Machine/Fabric.lean ====
section
/-! DEFINITION. The fabric ports of the die (R335 to R359): link states, slots and what departs in them, standing connections, streams,
epochs, and link failure. -/

namespace Sys2Proof.Machine

/-! ## Link failure (R339, R340, R358) -/

/-- The active table has scheduled slots (R358). -/
def Port.timetabled (p : Port) : Bool := p.active.any fun e => dkind e == 1 || akind e == 1

/-- A link enters FAILED (R358): management flits that wait are gone, what it carried fails 1,024 cycles later; class M reaches the bound tiles. -/
def State.failLink (s : State) (p : Fin 9) : State :=
  let x := s.ports[p]
  if x.link = .off ∨ x.link = .failed then s
  else
    let s := (s.modPort p fun x => { x with link := .failed, since := s.now, mgmt := [], proved := false }).plan (s.now + 1024) (ordPort s.rank) .linkFailureTimeout
      { EvArg.none with n := s.linkOf p, m := s.nextOpn }
    if x.timetabled then s.portM p.val 1 s.boundTiles else s.event srcFabric p.val evOther 1

/-- A link of another die of the package enters FAILED, as its port reports (R335, R358). -/
def State.failFar (s : State) (j : Nat) : State :=
  ({ s with farUp := s.farUp.filter fun i => i != j } : State).plan (s.now + 1024) (ordPort s.rank) .linkFailureTimeout
    { EvArg.none with n := j, m := s.nextOpn }

/-- A collective of this member with a neighbour that only this link reaches. -/
def State.collOver (s : State) (j : Nat) (c : CollRec) : Bool :=
  !crStrm c.record && (0 :: s.partners c.record c.member).any fun k => s.linkTo (crRank c.record k) == some j

/-- Flits of an operation still wait in this basin: it has not departed, or they are queued at a fabric port. -/
def State.unsent (s : State) (o : OpRec) : Bool :=
  !o.sent || (s.reqQ ++ s.ctlQ).any fun q => q.flit.src.toNat == s.rank && q.flit.opn.toNat == o.opn && q.flit.part.isNone

/-- An operation that was sent over a link, or can only be sent over it, before the operation `n`, and that is not accepted (R358). -/
def State.cutOff (s : State) (j n : Nat) (o : OpRec) : Bool :=
  let only := s.unsent o && !(s.linksTo o.rank).isEmpty && (s.linksTo o.rank).all (· == j)
  !o.acc && !o.vis && !o.failed && o.kind.travels && decide (o.seq < n) && (o.links.contains j || only)

/-- LINK_FAILURE_TIMEOUT (R358): what link `arg.n` carried, or was to carry, when it failed; `arg.m` is the number of operations issued until
then. -/
def execLinkFailureTimeout (s : State) : Host.Outcome State Fault Refusal :=
  let j := s.arg.n
  let ops := s.ops.filter (s.cutOff j s.arg.m)
  let cs := s.colls.filter fun c => decide (c.opn < s.arg.m) && s.collOver j c
  let gone := fun (q : Queued) => ops.any fun o => q.flit.src.toNat == s.rank && q.flit.opn.toNat == o.opn
  let s := { s with reqQ := s.reqQ.filter fun q => !gone q, ctlQ := s.ctlQ.filter fun q => !gone q }
  .next (cs.foldl (fun s c => s.failColl c.opn 9) (ops.foldl (fun s o => s.opFail o.seq 9) s))

/-- LANE_LOCK_LOSS (R340); with the flag, on link `arg.n` of another die. -/
def execLaneLockLoss (s : State) : Host.Outcome State Fault Refusal :=
  .next (if s.arg.flag then s.failFar s.arg.n else if s.ports[s.arg.port].link = .active then s.failLink s.arg.port else s)

/-- REFERENCE_LOCK_LOSS (R339). -/
def execReferenceLockLoss (s : State) : Host.Outcome State Fault Refusal :=
  .next ((List.finRange 9).foldl (fun s p => s.failLink p) (s.portM 0 3 s.boundTiles))

/-! ## Bring-up (R340, R341) -/

def State.setLink (s : State) (p : Fin 9) (l : LinkState) : State := s.modPort p fun x => { x with link := l, since := s.now }

/-- A link of another die of the package has been brought up, as its port reports (R13, R335). -/
def State.bringUpFar (s : State) (j : Nat) : State := { s with joined := true, farUp := j :: s.farUp.filter fun i => i != j }

/-- LANE_LOCK (R340); with the flag, link `arg.n` of another die has come up. -/
def execLaneLock (s : State) : Host.Outcome State Fault Refusal :=
  .next (if s.arg.flag then s.bringUpFar s.arg.n else if s.ports[s.arg.port].link = .train then s.setLink s.arg.port .align else s)

/-- TRAINING_TIMEOUT (R340). -/
def execTrainingTimeout (s : State) : Host.Outcome State Fault Refusal :=
  let x := s.ports[s.arg.port]
  .next (if x.link = .train ∧ x.since + 16777216 ≤ s.now then s.failLink s.arg.port else s)

abbrev switchHop := 240

/-- A management flit (Table 12-3). -/
def mgmtFlit (op : BitVec 5) (data : BitVec 2048) : Flit := { Flit.void with kind := 7, op := op, data := Reg.fresh 32 data.toNat }

/-- The id of a port's link (R342, R469). -/
def State.linkId (s : State) (p : Fin 9) : Nat := match s.boot with | some b => b.linkIds.getD p.val 0 | none => 0

/-- A port begins a key exchange (R341): it draws a random value and a key pair, and sends its certificate, public key and random value. -/
def State.startExchange (s : State) (p : Fin 9) : State :=
  let (k, s) := s.drawNat
  let (a, s) := s.drawWord
  let (b, s) := s.drawWord
  let (c, s) := s.drawWord
  let (d, s) := s.drawWord
  let r : BitVec 256 := d ++ c ++ b ++ a
  s.modPort p fun x => { x with priv := k, rand := r, proved := false, mgmt := x.mgmt ++ [mgmtFlit 0 (Config.helloData (Config.publicKey k) r)] }

/-- ALIGNMENT (R340): the measured latency, padded to that of the hop (Table 12-6). -/
def execAlignment (s : State) : Host.Outcome State Fault Refusal :=
  let p := s.arg.port
  .next (if s.ports[p].link = .align then (if s.arg.n ≤ switchHop then (s.setLink p .auth).startExchange p else s.failLink p) else s)

/-- What a port does with the switch's public key `arg.n` and random value `arg.nonce` (R341): it signs what both sides sent, and the keys of key
epoch `e` are derived. -/
def State.answerExchange (s : State) (p : Fin 9) (e : Nat) : State :=
  s.modPort p fun x => { x with
    nextKeys := Config.linkKeys x.priv s.arg.n s.arg.nonce x.rand (s.linkId p) e,
    mgmt := x.mgmt ++ [mgmtFlit 0 (Config.signData x.priv (s.linkId p) e (Config.publicKey x.priv) s.arg.n x.rand s.arg.nonce)] }

/-- The package holds rank 0 (R339). -/
def State.holdsRankZero (s : State) : Bool :=
  match s.boot with
  | some b => b.rank.toNat == 0 || b.pkgOfRank.any fun q => q.1 == 0 && q.2 == b.pkg
  | none => false

/-- A link enters KEYED: the counter starts, and the port of switch 0 in the package of rank 0 sends the epoch (R339, R342). -/
def State.keyed (s : State) (p : Fin 9) : State :=
  (s.setLink p .keyed).modPort p fun x => { x with
    flits := 0, epoch := 0, rekey := false, proved := false, keys := x.nextKeys, tagFails := [],
    mgmt := x.mgmt ++ if s.holdsRankZero ∧ s.linkOf p = 0 then [mgmtFlit 3 0] else [] }

/-- KEY_EXCHANGE (R341, R342): the switch's side of an exchange has come, for the first keys of a link or those of its next key epoch. The flags
tell that its certificate and its signature verify. The port's own signature still leaves in AUTH, unencrypted (R340). -/
def execKeyExchange (s : State) : Host.Outcome State Fault Refusal :=
  let p := s.arg.port
  let ok := s.arg.flag && s.arg.flag2
  let x := s.ports[p]
  .next (match x.link with
    | .auth => if ok then (if x.proved then s else (s.answerExchange p 0).modPort p fun x => { x with proved := true }) else s.failLink p
    | .keyed | .active =>
      if ok && decide (2 ^ 47 ≤ x.flits % 2 ^ 48) then (s.answerExchange p (x.epoch + 1)).modPort p fun x => { x with rekey := true } else s
    | _ => s)

/-- REKEY_START (R342): the exchange for the next key epoch starts; none is complete yet. -/
def execRekeyStart (s : State) : Host.Outcome State Fault Refusal :=
  let p := s.arg.port
  .next (if s.ports[p].flits % 2 ^ 48 = 2 ^ 47 then (s.modPort p fun x => { x with rekey := false }).startExchange p else s)

/-- REKEY_COMMIT (R340, R342): the boundary of a key epoch. -/
def execRekeyCommit (s : State) : Host.Outcome State Fault Refusal :=
  let p := s.arg.port
  let x := s.ports[p]
  .next (if x.flits % 2 ^ 48 ≠ 0 ∨ x.flits / 2 ^ 48 ≠ x.epoch + 1 then s
    else if x.rekey then s.modPort p fun x => { x with epoch := x.epoch + 1, rekey := false, keys := x.nextKeys, mgmt := x.mgmt ++ [mgmtFlit 1 0] }
    else if x.link = .active then s.failLink p else s)

/-- EPOCH (R339): FTIME is the value of the flit plus the latency of its way from the sending port, through switch 0 to the port of link 0, and
from there by the die path to another die (Table 12-6). -/
def execEpoch (s : State) : Host.Outcome State Fault Refusal :=
  let set := fun n => { s with ftime := (s.arg.flit.data.gran 0).d + BitVec.ofNat 64 n, ftOn := true }
  .next (match s.portOfLink 0 with
    | some p => if s.ports[p].link = .keyed ∨ s.ports[p].link = .active then set switchHop else s
    | none => set (switchHop + 24))

/-! ## Departure tables (R343 to R345) -/

/-- A word of a table or of a stream table with a reserved field or kind. -/
def entryBad (e : BitVec 32) : Bool :=
  dkind e == 3 || akind e == 3 || bits e.toNat 0 4 != 0 || (dkind e != 1 && dstream e != 0) || (akind e != 1 && astream e != 0)

def streamBad (e : Word) : Bool :=
  let k := streamKind e
  decide (3 < k) || bits e.toNat 44 4 != 0 || bits e.toNat 0 20 != 0 || (k != 2 && streamPeer e != 0) || (k != 1 && streamCtx e != 0) ||
  (k != 3 && streamRoff e != 0)

/-- Some 1,024 consecutive slots, counted cyclically, have no idle entry. -/
def noIdle (l : List (BitVec 32)) : Bool :=
  let n := l.length
  (List.range n).any fun i => (List.range 1024).all fun k => dkind (l.getD ((i + k) % max 1 n) 0) != 0

/-- Why a port refuses a table: 1 a reserved field or kind, 2 an unused stream, 3 no idle slot among 1,024, 4 a restart offset below the
round trip of a round, which is that of the switch hop (log entry 20). -/
def tableErr (table : List (BitVec 32)) (streams : SMap Word) : Option Nat :=
  let used := fun sid => streamKind (streams.get 0 sid) != 0
  if table.any entryBad || streams.any (fun e => streamBad e.2) then some 1
  else if table.any fun e => (dkind e == 1 && !used (dstream e)) || (akind e == 1 && !used (astream e)) then some 2
  else if noIdle table then some 3
  else if streams.any fun e => streamKind e.2 == 3 && decide (streamRoff e.2 < switchHop) then some 4
  else none

/-- TABLE_ACTIVATION (R343, R345, R340): a KEYED link becomes ACTIVE, and the package's links are up (R13). -/
def execTableActivation (s : State) : Host.Outcome State Fault Refusal :=
  let p := s.arg.port
  match s.ports[p].shadow with
  | none => .next s
  | some (table, t, streams) =>
    if s.ftime < t then .next s
    else
      match tableErr table streams with
      | some e => .next ((s.modPort p fun x => { x with shadow := none }).event srcFabric p.val evRefusal e)
      | none =>
        let up := s.ports[p].link == .keyed
        .next (({ s with joined := s.joined || up } : State).modPort p fun x => { x with
          active := table, shadow := none, t0 := t, streams := streams, link := if up then .active else x.link })

/-! ## Standing connections (R346 to R349) -/

def State.conn (s : State) (pkg : Nat) : Conn :=
  match s.conns.find? fun c => c.pkg == pkg with
  | some c => c
  | none => { pkg := pkg, nextSend := 0, nextRecv := 0, resend := false, owed := false, kept := [], again := [] }

def State.setConn (s : State) (c : Conn) : State := { s with conns := c :: s.conns.filter fun d => d.pkg != c.pkg }

/-- Flits that an acknowledgement covers are accepted: the partials among them count (R379). -/
def State.acked (s : State) (l : List Flit) : State :=
  l.foldl (fun s f => match f.part with
    | some d => (match s.collOf d.coll with | some c => s.collDone c.opn false 0 | none => s)
    | none => s) s

/-- An acknowledgement arrives: bits 5:0 the next lseq expected, bit 6 the resend flag. -/
def State.takeAck (s : State) (pkg : Nat) (tag : BitVec 16) : State :=
  let c := s.conn pkg
  match c.kept with
  | [] => s
  | f :: _ =>
    let n := (tag.truncate 6 - f.lseq).toNat
    if c.kept.length < n then s
    else
      let kept := c.kept.drop n
      ((s.setConn { c with kept := kept, again := if tag.getLsbD 6 then kept else c.again.filter kept.contains }).acked (c.kept.take n))

/-- What replies toward a package carry. -/
def Conn.ackTag (c : Conn) : BitVec 16 := BitVec.ofNat 16 (c.nextRecv.toNat + 64 * c.resend.toNat)

/-- A flit takes its lseq, its acknowledgement when it is a reply, and is kept. -/
def State.sequence (s : State) (pkg : Nat) (f : Flit) : Flit × State :=
  let c := s.conn pkg
  let f := { f with lseq := c.nextSend, tag := if f.kind = 2 then c.ackTag else f.tag }
  (f, s.setConn { c with nextSend := c.nextSend + 1, kept := c.kept ++ [f], owed := c.owed && f.kind != 2 })

/-- A kept flit goes again; a reply carries the acknowledgement of now. -/
def State.resendFlit (s : State) (pkg : Nat) (f : Flit) (l : List Flit) : Flit × State :=
  let c := s.conn pkg
  (if f.kind = 2 then { f with tag := c.ackTag } else f, s.setConn { c with again := l, owed := c.owed && f.kind != 2 })

/-- Queued flits for a package that have reached the port. -/
def State.waitingFor (s : State) (pkg : Nat) (l : List Queued) : List Queued :=
  l.filter fun q => decide (q.at_ ≤ s.now) && s.pkgOf q.flit.dst.toNat == some pkg

/-- Notices that wait together leave in one flit, up to 16 (R338, R348). -/
def mergeNotices (l : List Flit) : Flit → Flit := fun f =>
  let recs := l.map fun g => bits g.data.d.toNat 0 128
  { f with count := BitVec.ofNat 8 (16 * l.length - 1), data := Reg.fresh 32 (packNat 128 recs) }

/-- The queue whose head has waited longest: one per target, ties by ascending rank. -/
def pickHead : List Queued → Option Queued
  | [] => none
  | e :: l =>
    match pickHead l with
    | none => some e
    | some d => if d.at_ < e.at_ ∨ (d.at_ = e.at_ ∧ d.flit.dst < e.flit.dst) then some d else some e

/-- What was queued first. -/
def firstQueued : List Queued → Option Queued
  | [] => none
  | e :: l =>
    match firstQueued l with
    | none => some e
    | some d => if d.no < e.no then some d else some e

/-- The heads toward each target rank: requests and control keep issue order between them (R324). -/
def queueHeads (l : List Queued) : List Queued :=
  (l.map fun e => e.flit.dst).eraseDups.filterMap fun r => firstQueued (l.filter fun e => e.flit.dst == r)

/-- Takes a request or control flit out of its queue. -/
def State.unqueue (s : State) (q : Queued) : State := { s with reqQ := s.reqQ.erase q, ctlQ := s.ctlQ.erase q }

/-- The idle flit. -/
def idleFlit : Flit := Flit.void

/-- A rank of a package. -/
def State.rankIn (s : State) (pkg : Nat) : Nat := match s.boot with | some b => ((b.pkgOfRank.find? fun q => q.2 == pkg).map (·.1)).getD 0 | none => 0

/-- A reply that carries nothing but an acknowledgement, between ranks of the two packages (R348). -/
def State.ackFlit (s : State) (pkg : Nat) : Flit :=
  { idleFlit with kind := 2, op := 3, src := BitVec.ofNat 13 s.rank, dst := BitVec.ofNat 13 (s.rankIn pkg), tag := (s.conn pkg).ackTag }

/-- What a standing slot toward a package carries (R348, R349). -/
def State.standingFlit (s : State) (pkg : Nat) : Flit × State :=
  let c := s.conn pkg
  match c.again with
  | f :: l => s.resendFlit pkg f l
  | [] =>
    if 32 ≤ c.kept.length then
      (if c.owed then (s.ackFlit pkg, s.setConn { c with owed := false }) else (idleFlit, s))
    else
      match s.waitingFor pkg s.repQ with
      | e :: l =>
        if e.flit.op = 2 then
          let ns := ((e :: l).filter fun q => q.flit.op == 2).take 16
          ({ s with repQ := s.repQ.filter fun q => !ns.contains q } : State).sequence pkg (mergeNotices (ns.map (·.flit)) e.flit)
        else ({ s with repQ := s.repQ.erase e } : State).sequence pkg e.flit
      | [] =>
        match pickHead (queueHeads (s.waitingFor pkg (s.reqQ ++ s.ctlQ))) with
        | some e => (s.unqueue e).sequence pkg e.flit
        | none =>
          if c.owed then (s.ackFlit pkg, s.setConn { c with owed := false })
          else (idleFlit, s)

/-- The flit of a remote-operation stream: the head of the queue to its peer, after what is to be sent again (R349, R351). -/
def State.streamHead (s : State) (peer : Nat) : Flit × State :=
  match s.pkgOf peer with
  | none => (idleFlit, s)
  | some pkg =>
    let c := s.conn pkg
    match c.again with
    | f :: l => if f.dst.toNat = peer then s.resendFlit pkg f l else (idleFlit, s)
    | [] =>
      match firstQueued ((s.waitingFor pkg (s.reqQ ++ s.ctlQ)).filter fun e => e.flit.dst.toNat == peer) with
      | some e => if 32 ≤ c.kept.length then (idleFlit, s) else (s.unqueue e).sequence pkg e.flit
      | none => (idleFlit, s)

/-! ## Slots (R343, R346, R351, R353) -/

/-- The slot that begins now, when the port has an active table. -/
def State.slotIndex (s : State) (p : Fin 9) : Option Nat :=
  let x := s.ports[p]
  if x.active.isEmpty ∨ s.ftime < x.t0 then none
  else
    let d := s.ftime.toNat - x.t0.toNat
    if d % 4 = 0 then some (d / 4 % x.active.length) else none

/-- The phase of a standing slot: its place among the standing slots, modulo the rotor period (R346). -/
def State.slotPhase (s : State) (p : Fin 9) (i : Nat) : Nat :=
  ((s.ports[p].active.take i).filter fun e => dkind e == 2).length % max 1 s.rotor

/-- The package that a standing slot connects to (R346). -/
def State.slotPkg (s : State) (p : Fin 9) (i : Nat) : Nat := (s.myPkg + s.rotor * s.linkOf p + s.slotPhase p i) % max 1 s.nPkgs

/-- Dynamic flits to the package of a standing slot travel on this link and phase only (R347). -/
def State.carries (s : State) (p : Fin 9) (i : Nat) : Bool :=
  let pkg := s.slotPkg p i
  pkg != s.myPkg && s.connLink pkg == (s.linkOf p, s.slotPhase p i)

/-- The sync flit of a stream (R353). -/
def State.syncFlit (s : State) (sid : Nat) : Flit :=
  { Flit.void with kind := 4, src := BitVec.ofNat 13 s.rank, tag := BitVec.ofNat 16 sid, data := Reg.fresh 32 (s.roundReady sid).toNat }

/-- The flit of a slot's entry. -/
def State.slotFlit (s : State) (p : Fin 9) (i : Nat) (e : BitVec 32) : Flit × State :=
  match dkind e with
  | 1 =>
    let sid := dstream e
    let st := s.ports[p].streams.get 0 sid
    (match streamKind st with
     | 1 => s.streamSlot p sid
     | 2 => s.streamHead (streamPeer st)
     | 3 => (s.syncFlit sid, s)
     | _ => (idleFlit, s))
  | 2 => if s.carries p i then s.standingFlit (s.slotPkg p i) else (idleFlit, s)
  | _ => (idleFlit, s)

/-- The flit counter moves on, and the rekeying that falls due (R342). -/
def State.countSlot (s : State) (p : Fin 9) : State :=
  let s := s.modPort p fun x => { x with flits := x.flits + 1 }
  let n : Nat := (s.ports[p] : Port).flits % 2 ^ 48
  if n = 2 ^ 47 then s.plan s.now (ordPort s.rank) .rekeyStart { EvArg.none with port := p }
  else if n = 0 then s.plan s.now (ordPort s.rank) .rekeyCommit { EvArg.none with port := p }
  else s

/-- The next management flit of a port leaves; that of an epoch carries FTIME, which counts from then on in the
package that sends it (R339, R341, R342). -/
def State.sendMgmt (s : State) (p : Fin 9) : State :=
  match s.ports[p].mgmt with
  | [] => s
  | f :: l =>
    let s := s.modPort p fun x => { x with mgmt := l }
    if f.op = 3 then ({ s with ftOn := true } : State).leave (mgmtFlit 3 (BitVec.ofNat 2048 s.ftime.toNat)) else s.leave f

/-- A slot of a link in AUTH: the exchange's flits leave, unencrypted; behind the last of them the link enters KEYED when the switch's side has
verified (R340, R341). -/
def State.authSlot (s : State) (p : Fin 9) : State :=
  let s := s.sendMgmt p
  if s.ports[p].proved ∧ s.ports[p].mgmt.isEmpty then s.keyed p else s

/-- A request, or control of an origin, of this basin has left over a port's link (R358). -/
def State.noteLink (s : State) (p : Fin 9) (f : Flit) : State :=
  let own := f.kind = 1 ∨ (f.kind = 3 ∧ (f.op = 1 ∨ f.op = 2 ∨ f.op = 4 ∨ f.op = 5 ∨ f.op = 7))
  if own ∧ f.part.isNone ∧ f.src.toNat = s.rank then
    match s.ops.find? fun o => o.opn == f.opn.toNat && o.sent && o.rank == f.dst.toNat with
    | none => s
    | some o => { s with ops := s.ops.map fun q =>
        if q.leader = o.leader ∧ !q.links.contains (s.linkOf p) then { q with links := q.links ++ [s.linkOf p] } else q }
  else s

/-- FABRIC_SLOT (R340, R342, R343): one slot of a port. Management flits go in slots that are idle. -/
def execFabricSlot (s : State) : Host.Outcome State Fault Refusal :=
  let p := s.arg.port
  let x := s.ports[p]
  .next (match x.link with
    | .align => s.leave (mgmtFlit 2 (Config.alignData (s.linkId p)))
    | .auth => s.authSlot p
    | .keyed => (s.countSlot p).sendMgmt p
    | .active =>
      let s := s.countSlot p
      (match s.slotIndex p with
       | none => s.sendMgmt p
       | some i =>
         if dkind (x.entryAt i) = 0 then s.sendMgmt p
         else
           let r := s.slotFlit p i (x.entryAt i)
           if r.1.kind = 0 then r.2 else (r.2.noteLink p r.1).leave r.1)
    | _ => s)

/-- Ports that have a slot to send at this cycle. -/
def State.slotPorts (s : State) : List (Fin 9) :=
  if (if s.ftOn then s.ftime.toNat else s.now) % 4 = 0 then
    (List.finRange 9).filter fun p => s.ports[p].link == .align || s.ports[p].link == .auth || s.ports[p].link == .keyed || s.ports[p].link == .active
  else []

/-- A port whose shadow table is to be activated. -/
def State.activationDue (s : State) : Option (Fin 9) :=
  (List.finRange 9).find? fun p => match s.ports[p].shadow with | some (_, t, _) => decide (t ≤ s.ftime) | none => false

/-! ## Arrivals (R349, R351, R352) -/

/-- The records of a notices flit (R338). -/
def noticeRecords (f : Flit) : List Nat := (List.range ((f.count.toNat + 1) / 16)).map fun k => bits f.data.d.toNat (128 * k) 128

/-- A flit goes on from a fabric port toward its basin: 4 cycles to this one; the others' ports are other agents. Notices go to every basin that
a record names. -/
def State.forward (s : State) (f : Flit) : State :=
  if f.kind = 2 ∧ f.op = 2 then
    let mine := (noticeRecords f).filter fun r => bits r 69 13 == s.rank
    let rest := (noticeRecords f).filter fun r => bits r 69 13 != s.rank
    let s := if mine.isEmpty then s else s.arriveAt (s.now + 4) f
    if rest.isEmpty then s else s.leave { f with count := BitVec.ofNat 8 (16 * rest.length - 1), data := Reg.fresh 32 (packNat 128 rest) }
  else if f.dst.toNat = s.rank then s.arriveAt (s.now + 4) f
  else match flitArrival f with
    | some _ => s.leave f
    | none => s.event srcFabric 0 evOther 0

/-- A tag that fails counts toward the failure of an ACTIVE link: 16 within 2^20 slots (R340). -/
def State.tagFailure (s : State) (p : Fin 9) : State :=
  let s := s.modPort p fun x => { x with tagFails := (x.tagFails ++ [x.flits]).filter fun n => decide (x.flits < n + 2 ^ 20) }
  if s.ports[p].link = .active ∧ 16 ≤ s.ports[p].tagFails.length then s.failLink p else s

/-- The data of a flit whose tag failed at the switch (R349). -/
def flitBlanked (f : Flit) : Bool := f.data == voidData

/-- The flag that asks a package to send again (R349). -/
def State.askResend (s : State) (pkg : Nat) : State := s.setConn { s.conn pkg with resend := true, owed := true }

/-- A flit of a connection arrives: taken in sequence, or discarded with the resend flag (R349). Whether its target's request queue has room is
free (log entry 20); one of a reserved op is discarded when it is taken (R337). -/
def State.standingArrive (s : State) (p : Fin 9) (f : Flit) (tagOk : Bool) : State :=
  let s := if tagOk then s else (s.tagFailure p).event srcFabric p.val evOther 0
  match s.pkgOf f.src.toNat with
  | none => s.event srcFabric p.val evOther 0
  | some pkg =>
    if f.kind = 0 ∨ f.kind = 4 ∨ f.kind = 7 then (if flitReserved f then s.event srcFabric p.val evOther 0 else s)
    else if f.kind = 2 ∧ f.op = 3 then
      (if tagOk && !flitBlanked f then s.plan s.now (ordPort s.rank) .acknowledgementOnly { EvArg.none with port := p, flit := f } else s.askResend pkg)
    else if tagOk && f.lseq == (s.conn pkg).nextRecv && !flitBlanked f then
      let (room, s) := if f.kind = 2 then (true, s) else s.drawBit
      if room then
        let c := s.conn pkg
        let s := s.setConn { c with nextRecv := c.nextRecv + 1, resend := false, owed := true }
        let s := if f.kind = 2 then s.takeAck pkg f.tag else s
        if flitReserved f then s.event srcFabric p.val evOther 0 else s.forward f
      else s.askResend pkg
    else s.askResend pkg

/-- STANDING_FLIT_ARRIVAL (R349). -/
def execStandingFlitArrival (s : State) : Host.Outcome State Fault Refusal := .next (s.standingArrive s.arg.port s.arg.flit s.arg.flag)

/-- ACKNOWLEDGEMENT_ONLY (R349). With the flag, a port of another die reports that the partial flit of this basin that it sent is accepted: its
acknowledgement has returned, or it has arrived as the timetable has it (R379). -/
def execAcknowledgementOnly (s : State) : Host.Outcome State Fault Refusal :=
  if s.arg.flag then .next (s.acked [s.arg.flit])
  else match s.pkgOf s.arg.flit.src.toNat with
  | none => .next s
  | some pkg => .next (s.takeAck pkg s.arg.flit.tag)

/-- Ports whose slot that begins now expects a flit of a stream, and to which none comes (R352). -/
def State.voidArrivals (s : State) : State :=
  if s.ftime.toNat % 4 ≠ 0 then s
  else (List.finRange 9).foldl (fun s p =>
    let x := s.ports[p]
    match s.slotIndex p with
    | none => s
    | some i =>
      if akind (x.entryAt i) = 1 ∧ !(s.agenda.any fun e => decide (e.at_ ≤ s.now) && (match e.ev with
          | .event .scheduledFlitArrival a => a.port == p
          | _ => false)) then
        s.plan s.now (ordPort s.rank) .scheduledFlitArrival { EvArg.none with port := p }
      else s) s

/-- A flit may be one of a stream (R351): data of a collective, requests and control with idle flits between them, or a sync round. -/
def ofStream (skind sid : Nat) (f : Flit) : Bool :=
  match skind with
  | 2 => decide (f.kind.toNat < 2) || f.kind == 3
  | 3 => f.kind == 4 && bits f.tag.toNat 0 12 == sid
  | _ => (f.kind == 5 || f.kind == 6) && bits f.tag.toNat 0 12 == sid

/-- SCHEDULED_FLIT_ARRIVAL (R352): in a slot with akind 1 the stream's flit, or a void flit in its place. The flag tells that a flit
came whose tag verifies, the second flag that one came whose tag fails (R340). -/
def execScheduledFlitArrival (s : State) : Host.Outcome State Fault Refusal :=
  let p := s.arg.port
  let f := s.arg.flit
  match s.slotIndex p with
  | none => .next s
  | some i =>
    let e := s.ports[p].entryAt i
    if akind e ≠ 1 then .next s
    else
      let sid := astream e
      let st := s.ports[p].streams.get 0 sid
      let good := s.arg.flag && !flitReserved f && ofStream (streamKind st) sid f
      let s := if good then s else (if !s.arg.flag && s.arg.flag2 then s.tagFailure p else s).event srcFabric p.val evOther sid
      let f := if good then f else { Flit.void with kind := 5, tag := BitVec.ofNat 16 sid, data := voidData }
      .next (match streamKind st with
        | 1 => s.streamArrive p sid s.ftime.toNat f 4
        | 2 => if good then s.standingArrive p f true
          else (match s.pkgOf (streamPeer st) with
            | some pkg => if pkg = s.myPkg then s else s.askResend pkg
            | none => s)
        | 3 => s.plan s.now (ordPort s.rank) .syncResult { EvArg.none with port := p, n := sid, flit := f, w := s.ftime - BitVec.ofNat 64 switchHop }
        | _ => s)

end Sys2Proof.Machine
end

