-- ==== Sys2Proof/Machine/Host.lean ====
section
/-! DEFINITION. The host-port block (R462, R463), its commands (R464), the basin aperture (R466), the root slot (R18), power-up and
attestation (R468 to R471), power (R472). -/

namespace Sys2Proof.Machine

open Check

/-! ## Power-up and attestation (R468, R469, R471) -/

/-- The boot step that power-up reaches (Table 17-3): a step that fails stops the sequence. -/
def bootReached (b : BootInput) : Nat := if !b.hostOk then 0 else if !b.blobOk then 1 else if !b.dieOk then 2 else if !b.trainOk then 3 else 5

/-- What comes from outside the basin: it stays in the calendar whatever the basin does (log entry 21). -/
def Ev.outside : Ev → Bool
  | .event i _ => [Instr.powerUp, .attestation, .apertureRead, .apertureWrite, .rootrec, .rootarm, .rpool, .eqbase, .eqsize, .rjstart,
      .rjctlArm, .rjctlDisarm, .hostRegisterWrite, .invalidatePage, .invalidateDomain, .invalidateAll, .debugStop, .debugResume, .readState,
      .writeState, .freeFailedTask, .linkBringUp, .loadShadowDepartureTable, .setCounter, .readCounter, .endReachJob, .cmdOtherCode,
      .powerMeasurement, .standingFlitArrival, .scheduledFlitArrival, .epoch, .referenceLockLoss, .laneLock, .alignment, .keyExchange,
      .laneLockLoss].contains i
  | _ => false

/-- POWER_UP (R468): every die that the sequence reaches starts anew; the configuration is latched when its signature verifies. -/
def execPowerUp (s : State) : Host.Outcome State Fault Refusal :=
  let b := s.arg.boot
  .next { State.reset with
    now := s.now, turn := s.turn, cur := s.cur, arg := s.arg, free := s.free, nextId := s.nextId,
    agenda := s.agenda.filter fun e => e.ev.outside, bootStep := bootReached b,
    boot := if b.hostOk && b.blobOk then some b else none,
    host := { HostPort.reset with reports := s.host.reports, digests := (b.hostFw, b.blob, b.dieFw) } }

/-- ATTESTATION (R471): it answers whatever step was reached. Certificate and signature are free values (log entry 3). -/
def execAttestation (s : State) : Host.Outcome State Fault Refusal :=
  let r : Report := { nonce := s.arg.nonce, digests := s.host.digests, step := s.bootStep, cert := Config.dieCertificate,
                      sig := Config.reportSignature s.free }
  .next { s with free := s.free + 1, host := { s.host with reports := s.host.reports ++ [r] } }

/-- The die is out of reset (R468). -/
def State.up (s : State) : Bool := decide (4 ≤ s.bootStep)

/-- What the host does reaches a die that is out of reset. -/
def State.hosted (s : State) (act : State) : Host.Outcome State Fault Refusal := .next (if s.up then act else s)

def State.modHost (s : State) (f : HostPort → HostPort) : State := { s with host := f s.host }

/-- The host port reports an event. -/
def State.hostEvent (s : State) (kind detail : Nat) : State := s.event srcHost 0 kind detail

/-! ## The root slot (R18) -/

/-- ROOTREC: the slot takes a record while it is EMPTY. -/
def execRootrec (s : State) : Host.Outcome State Fault Refusal :=
  s.hosted (if s.host.rootSt = 0 then s.modHost fun h => { h with rootRec := s.arg.record } else s.hostEvent evOther 0)

/-- The failing field of lowest position. -/
def lowField : List (Nat × Nat) → Option (Nat × Nat)
  | [] => none
  | p :: l =>
    match lowField l with
    | none => some p
    | some q => if q.1 < p.1 then some q else some p

/-- The failing fields of a root record: those of `TSPAWN`, a gang, a box of a tensor that is not bound, an entry that is not armed. -/
def State.rootErrs (s : State) (r : BitVec 1536) : List (Nat × Nat) :=
  taskErrs r r 0 ++ recField 32 6 (recGang r != 0) ++
  (match s.unboundBox r with | some b => recField (512 + 128 * b) 16 true | none => []) ++
  recField 216 4 (recRjob r != 0 && s.host.rjArm.get 0 (recRjob r) != 1)

/-- ROOTARM: the record is checked; one that fails leaves the slot EMPTY and is reported with its first failing field. -/
def execRootarm (s : State) : Host.Outcome State Fault Refusal :=
  s.hosted (if s.host.rootSt ≠ 0 then s.hostEvent evOther 0
    else match lowField (s.rootErrs s.host.rootRec) with
      | some p => s.hostEvent evRefusal (p.1 + p.2 * 2 ^ 16)
      | none =>
        let s := s.modHost fun h => { h with rootSt := 1 }
        if s.freeEntries.isEmpty then s else s.plan s.now (ordEngine 0 + 100) .rootSlotCopy EvArg.none)

/-! ## Registers (R462) -/

/-- RPOOL: only while no task holds shadow tiles, and for a size that Table 17-1 admits (log entry 21). -/
def execRpool (s : State) : Host.Outcome State Fault Refusal :=
  let v := s.arg.w.toNat
  s.hosted (if s.taskList.any (fun e => !e.2.shadows.isEmpty) ∨ v % 2 ^ 21 ≠ 0 ∨ 2 ^ 30 < v then s.hostEvent evOther 0
    else s.modHost fun h => { h with rpool := s.arg.w })

/-- EQBASE. -/
def execEqbase (s : State) : Host.Outcome State Fault Refusal :=
  s.hosted (s.modHost fun h => { h with eqBase := s.arg.w, eqHead := 0, eqTail := 0 })

/-- EQSIZE. -/
def execEqsize (s : State) : Host.Outcome State Fault Refusal :=
  s.hosted (s.modHost fun h => { h with eqSize := s.arg.w, eqHead := 0, eqTail := 0 })

def jobEntry (j : Nat) : Bool := decide (1 ≤ j) && decide (j ≤ 15)

/-- RJSTART: ignored while the entry is armed. -/
def execRjstart (s : State) : Host.Outcome State Fault Refusal :=
  s.hosted (if !jobEntry s.arg.n || s.host.rjArm.get 0 s.arg.n = 1 then s
    else s.modHost fun h => { h with rjStart := h.rjStart.set 0 s.arg.n s.arg.w })

/-- RJCTL.ARM = 1: refused when the start is no multiple of 4 or less than 4,096 cycles away. -/
def execRjctlArm (s : State) : Host.Outcome State Fault Refusal :=
  let j := s.arg.n
  let t := (s.host.rjStart.get 0 j).toNat
  s.hosted (if !jobEntry j then s
    else if t % 4 ≠ 0 ∨ t < s.ftime.toNat + 4096 then (s.modHost fun h => { h with rjArm := h.rjArm.set 0 j 0 }).hostEvent evRefusal j
    else s.modHost fun h => { h with rjArm := h.rjArm.set 0 j 1, rjEnded := h.rjEnded.set 0 j 0 })

/-- RJCTL.ARM = 0. -/
def execRjctlDisarm (s : State) : Host.Outcome State Fault Refusal :=
  s.hosted (s.modHost fun h => { h with rjArm := h.rjArm.set 0 s.arg.n 0 })

/-- A register without behaviour of its own, by its offset; offsets that are not listed ignore writes. -/
def HostPort.store (h : HostPort) (off : Nat) (v : Word) : HostPort :=
  match off with
  | 0x0100 => { h with defHbase := v }
  | 0x0108 => { h with defCask := v }
  | 0x0118 => { h with drtBase := v }
  | 0x0208 => { h with carg0 := v }
  | 0x0210 => { h with carg1 := v }
  | 0x0310 => { h with eqHead := v }
  | _ => h

/-- HOST_REGISTER_WRITE (R462). -/
def execHostRegisterWrite (s : State) : Host.Outcome State Fault Refusal := s.hosted (s.modHost fun h => h.store s.arg.n s.arg.w)

/-- A register that the host reads, by its offset (Table 17-1); other offsets, and the write-only ones, read as 0. -/
def HostPort.load (h : HostPort) (off : Nat) : Nat :=
  match off with
  | 0x00C8 => h.rootSt
  | 0x0100 => h.defHbase.toNat
  | 0x0108 => h.defCask.toNat
  | 0x0110 => h.rpool.toNat
  | 0x0118 => h.drtBase.toNat
  | 0x0208 => h.carg0.toNat
  | 0x0210 => h.carg1.toNat
  | 0x0218 => h.cmdst + h.cmdRind.toNat * 2 ^ 8
  | 0x0300 => h.eqBase.toNat
  | 0x0308 => h.eqSize.toNat
  | 0x0310 => h.eqHead.toNat
  | 0x0318 => h.eqTail.toNat
  | n =>
    let j := (n - 0x0400) / 16
    if n < 0x0410 ∨ 0x04F8 < n then 0
    else if n % 16 = 0 then (h.rjStart.get 0 j).toNat
    else if n % 16 = 8 then h.rjArm.get 0 j + 2 * h.rjEnded.get 0 j
    else 0

/-! ## Commands (R463) -/

/-- A command completes at a free time, with its outcome (log entry 3). -/
def State.endCommand (s : State) (ok : Bool) : State :=
  let (n, s) := s.drawNat
  (s.modHost fun h => { h with cmdOk := ok }).plan (s.now + 1 + n) (ordPort s.hostRank) .hostCommandDone EvArg.none

/-- A write to CMD: without effect, but reported, while a command is busy; else the command acts. It gives its outcome, or none when it
completes later by itself. -/
def State.command' (s : State) (run : State → State × Option Bool) : Host.Outcome State Fault Refusal :=
  s.hosted (if s.host.cmdst = 1 then s.hostEvent evOther 1
    else match run (s.modHost fun h => { h with cmdst := 1, cmdRind := 0 }) with
      | (s, some ok) => s.endCommand ok
      | (s, none) => s)

/-- HOST_COMMAND_DONE (R463). -/
def execHostCommandDone (s : State) : Host.Outcome State Fault Refusal :=
  .next (if s.host.cmdst = 1 then s.modHost fun h => { h with cmdst := if h.cmdOk then 2 else 3 } else s)

/-- A code that Table 17-2 does not list is refused at once. -/
def execCmdOtherCode (s : State) : Host.Outcome State Fault Refusal :=
  s.hosted (if s.host.cmdst = 1 then s.hostEvent evOther 1 else s.modHost fun h => { h with cmdst := 3 })

/-- Every TLB, and every walk in flight, drops the translations that a predicate names (R438); pinned ranges stay. -/
def State.invalidate (s : State) (hit : TlbEnt → Bool) (walk : Walk → Bool) : State :=
  State.runWalks { s with
    stlb := s.stlb.filter fun e => !hit e,
    walks := s.walks.filter fun w => !walk w,
    tiles := s.tiles.map fun x => { x with utlb := x.utlb.filter (fun e => !hit e),
                                            ce := x.ce.map fun p => (p.1, { p.2 with held := p.2.held.filter fun e => !hit e }) } }

/-- The domain in CARG0. -/
def HostPort.argDom (h : HostPort) : BitVec 16 := h.carg0.truncate 16

/-- Command 1 (R438, R463). -/
def execInvalidatePage (s : State) : Host.Outcome State Fault Refusal :=
  s.command' fun s =>
    let d := s.host.argDom
    let va := s.host.carg1.toNat
    (s.invalidate (fun e => e.holds d va) (fun w => w.pdom == d && w.va.toNat / 2 ^ 16 == va / 2 ^ 16), some true)

/-- Command 2. -/
def execInvalidateDomain (s : State) : Host.Outcome State Fault Refusal :=
  s.command' fun s => (s.invalidate (fun e => e.pdom == s.host.argDom) (fun w => w.pdom == s.host.argDom), some true)

/-- Command 3. -/
def execInvalidateAll (s : State) : Host.Outcome State Fault Refusal :=
  s.command' fun s => (s.invalidate (fun _ => true) (fun _ => true), some true)

/-- The tile in CARG0. -/
def HostPort.argTile (h : HostPort) : Tid := tid (h.carg0.toNat % 32)

/-- Command 4: it completes when the tile has stopped (R430). -/
def execDebugStop (s : State) : Host.Outcome State Fault Refusal :=
  s.command' fun s => (s.modHost fun h => { h with stopTile := some h.argTile }, none)

/-- A tile goes on after a debug stop (R430): the bundle due issues in this cycle, the next of the result clock. -/
def Tile.resumeDebug (x : Tile) : Tile := { x.restoreSnapshot (x.rclk + 1) with run := if x.task.isSome then .running else .idle }

/-- Command 5. -/
def execDebugResume (s : State) : Host.Outcome State Fault Refusal :=
  s.command' fun s =>
    let t := s.host.argTile
    if (s.tileAt t).run = .stopped then (s.modTile t Tile.resumeDebug, some true) else (s, some false)

/-- A register that a selector names (R464): its granules, if it exists. -/
def State.selected (s : State) (sel : Nat) : Option (List Gran) :=
  let t := tid (sel % 32)
  let x := s.tileAt t
  let n := bits sel 8 10
  let l := match bits sel 5 3 with
    | 0 => if n < 64 then (x.scalar n).grans else []
    | 1 => if n < 32 then (x.pred n).grans else []
    | 2 => if n < 320 then (x.vec n).grans else []
    | 3 => (x.acc n).grans
    | 4 => if sregAssigned n then [Gran.fresh (BitVec.ofNat 64 (s.readSreg t n))] else []
    | _ => []
  if bits sel 24 40 = 0 ∧ bits sel 18 6 < l.length then some l else none

/-- Writes the granules of the register that a selector names. -/
def Tile.putSelected (x : Tile) (sel : Nat) (l : List Gran) (v : Word) : Tile :=
  let n := bits sel 8 10
  match bits sel 5 3 with
  | 0 => x.setScalar n (Reg.ofGrans 1 l)
  | 1 => x.setPred n (Reg.ofGrans 4 l)
  | 2 => x.setVec n (Reg.ofGrans 32 l)
  | 3 => x.setAcc n (Reg.ofGrans 64 l)
  | _ => x.setSreg n (BitVec.ofNat 64 (sregValue x n v.toNat))

/-- The tile that a selector names is stopped for the host. -/
def State.selStopped (s : State) (sel : Nat) : Bool := (s.tileAt (tid (sel % 32))).run == .stopped

/-- Command 6 (R464): the port carries the granule. -/
def execReadState (s : State) : Host.Outcome State Fault Refusal :=
  s.command' fun s =>
    let sel := s.host.carg0.toNat
    match s.selStopped sel, s.selected sel with
    | true, some l =>
      let g := l.getD (bits sel 18 6) .zero
      (s.modHost fun h => { h with carg1 := g.d, cmdRind := g.r }, some true)
    | _, _ => (s, some false)

/-- Command 7 (R464): the port produces the granule; read-only special registers are refused. -/
def execWriteState (s : State) : Host.Outcome State Fault Refusal :=
  s.command' fun s =>
    let sel := s.host.carg0.toNat
    match s.selStopped sel && !(bits sel 5 3 == 4 && sregReadOnly (bits sel 8 10)), s.selected sel with
    | true, some l =>
      let v := s.host.carg1
      (s.modTile (tid (sel % 32)) fun x => x.putSelected sel (l.set (bits sel 18 6) (Gran.fresh v)) v, some true)
    | _, _ => (s, some false)

/-- Command 8. -/
def execFreeFailedTask (s : State) : Host.Outcome State Fault Refusal :=
  s.command' fun s =>
    let i := s.host.carg0.toNat % 4096
    match s.task i with
    | some e => (match e.st with | .failed _ => (s.setTask i none, some true) | _ => (s, some false))
    | none => (s, some false)

/-- The port of this die that drives the link in CARG0 (R335). -/
def State.argPort (s : State) : Option (Fin 9) :=
  let j := s.host.carg0.toNat % 64
  if j / 9 = s.die then some (Fin.ofNat 9 (j % 9)) else none

/-- The link of a port is enabled (R340, R469). -/
def State.enabled (s : State) (p : Fin 9) : Bool := match s.boot with | some b => b.linkEnable.getLsbD p.val | none => false

/-- Command 9 (Table 12-4): a link that is OFF or FAILED begins to train. -/
def execLinkBringUp (s : State) : Host.Outcome State Fault Refusal :=
  s.command' fun s =>
    match s.argPort with
    | none => (s, some false)
    | some p =>
      if !s.enabled p then (s, some false)
      else if s.ports[p].link = .off ∨ s.ports[p].link = .failed then
        ((s.setLink p .train).plan (s.now + 16777216) (ordPort s.rank) .trainingTimeout { EvArg.none with port := p }, some true)
      else (s, some true)

/-- Command 10 (R343, R345): the shadow table at the address in CARG0, which the event's data hold, with activation FTIME CARG1. The
command is done when the table is loaded, and when it is refused (Table 17-2). -/
def execLoadShadowDepartureTable (s : State) : Host.Outcome State Fault Refusal :=
  s.command' fun s =>
    let n := s.arg.table.length
    match s.argPort with
    | none => (s, some false)
    | some p =>
      if n = 0 ∨ 65536 < n ∨ s.host.carg1.toNat % 4 ≠ 0 then (s.event srcFabric p.val evRefusal 0, some true)
      else match tableErr s.arg.table s.arg.streams with
        | some e => (s.event srcFabric p.val evRefusal e, some true)
        | none => (s.modPort p fun x => { x with shadow := some (s.arg.table, s.host.carg1, s.arg.streams) }, some true)

/-- Command 11. -/
def execSetCounter (s : State) : Host.Outcome State Fault Refusal :=
  s.command' fun s => (s.setCounter (s.host.carg0.toNat % 4096) (Reg.fresh 1 s.host.carg1.toNat), some true)

/-- Command 12. -/
def execReadCounter (s : State) : Host.Outcome State Fault Refusal :=
  s.command' fun s =>
    let g := (s.counter (s.host.carg0.toNat % 4096)).gran 0
    (s.modHost fun h => { h with carg1 := g.d, cmdRind := g.r }, some true)

/-- The tasks bound to a reach-job entry fail with reason 6, and the entry shows ENDED (R392). -/
def State.endJob (s : State) (j : Nat) : State :=
  (s.failGangs (s.taskList.filter fun e => recRjob e.2.record == j && e.2.st.live) 6).modHost fun h => { h with rjEnded := h.rjEnded.set 0 j 1 }

/-- Command 13. -/
def execEndReachJob (s : State) : Host.Outcome State Fault Refusal :=
  s.command' fun s =>
    let j := s.host.carg0.toNat % 16
    if j = 0 then (s, some false) else (s.endJob j, some true)

/-! ## The basin aperture (R466) -/

/-- The first byte of the rename pool (R462). -/
def State.poolBase (s : State) : Nat := 2 ^ 36 - s.host.rpool.toNat

/-- APERTURE_READ: each granule with its rind, a bad one poisoned and reported; the rename pool reads as zeros. -/
def execApertureRead (s : State) : Host.Outcome State Fault Refusal :=
  let a := s.arg.n
  let n := s.arg.m
  if !s.up then .next s
  else if 2 ^ 36 < a + n then .fault (.noSuchAddress a)
  else
    .next (((List.range ((a + n + 7) / 8 - a / 8)).map (· + a / 8)).foldl (fun s g =>
      let v := if s.poolBase ≤ 8 * g then Gran.zero else s.memGran none g
      let s := if v.bad then s.hostEvent evRind (rindDetail 0 (8 * g)) else s
      s.modHost fun h => { h with reads := h.reads ++ [(8 * g, v, v.bad)] }) s)

/-- The bytes of a write as one number. -/
def bytesNat (l : List Byte) : Nat := packNat 8 (l.map (·.toNat))

/-- APERTURE_WRITE: the bytes outside the rename pool perform, with fresh rinds, and the write is acknowledged. -/
def execApertureWrite (s : State) : Host.Outcome State Fault Refusal :=
  let a := s.arg.n
  let n := s.arg.bytes.length
  if !s.up then .next s
  else if 2 ^ 36 < a + n then .fault (.noSuchAddress a)
  else .next ((s.memWrites none (gwBytes a (min n (s.poolBase - a)) (bytesNat s.arg.bytes) false)).modHost fun h => { h with acks := h.acks ++ [(a, n)] })

/-! ## Power (R27, R472) -/

/-- An unbound gang that runs and is not throttled. -/
def State.mayThrottle (s : State) (g : List (Nat × TaskEnt)) : Bool :=
  !gangBound g && !(gangTiles g).isEmpty && (gangTiles g).all fun t => (s.tileAt (tid t)).throttled.isNone

/-- A gang stops for 1,024 cycles. -/
def State.throttle (s : State) (g : List (Nat × TaskEnt)) : State :=
  match g with
  | [] => s
  | e :: _ =>
    let s := (gangTiles g).foldl (fun s t => s.modTile (tid t) fun x => { x with throttled := some (s.now + 1024) }) s
    (s.event srcPower 0 evThrottle e.1).plan (s.now + 1024) (ordEngine 0) .throttleEnd { EvArg.none with n := e.2.order }

/-- POWER_MEASUREMENT (R472): above the ceiling, the gang of lowest priority, the latest spawned among equals, is throttled. With none
left for 24,000 cycles, from the first measurement that found none, the emergency stop comes. -/
def execPowerMeasurement (s : State) : Host.Outcome State Fault Refusal :=
  .next (if !s.up then s
    else if !s.arg.flag then s.modHost fun h => { h with aboveCount := 0 }
    else match s.gangs.reverse.find? s.mayThrottle with
      | some g => (s.throttle g).modHost fun h => { h with aboveCount := 0 }
      | none =>
        let n := s.host.aboveCount + 1
        let s := s.modHost fun h => { h with aboveCount := n }
        if n = 24 then s.plan (s.now + 448) (ordEngine 0) .emergencyPowerStop EvArg.none else s)

/-- THROTTLE_END (R27). -/
def execThrottleEnd (s : State) : Host.Outcome State Fault Refusal :=
  .next ((gangTiles (s.gangOf s.arg.n)).foldl (fun s t => s.modTile (tid t) fun x =>
    match x.throttled with
    | some c => if c ≤ s.now then { x with throttled := none } else x
    | none => x) s)

/-- The parts of an ended job that are on no tile, not started or suspended, fail with reason 6 (R392). -/
def State.failUnstarted (s : State) (j : Nat) : State :=
  s.failGangs (s.taskList.filter fun e => recRjob e.2.record == j && e.2.st.live && (s.gangOf e.2.order).all fun m => m.2.tile.isNone) 6

/-- EMERGENCY_POWER_STOP (R472): class M on every bound tile, and their reach jobs end. -/
def execEmergencyPowerStop (s : State) : Host.Outcome State Fault Refusal :=
  let s := s.event srcPower 0 evOther 6
  let n := s.lastSeq srcPower 0
  let js := s.taskList.filterMap fun e => if recRjob e.2.record != 0 && e.2.tile.isSome then some (recRjob e.2.record) else none
  let s := s.boundTiles.foldl (fun s t => s.raiseM t 6 (BitVec.ofNat 64 n)) s
  let s := js.foldl State.failUnstarted s
  .next (s.modHost fun h => { h with rjEnded := js.foldl (fun m j => m.set 0 j 1) h.rjEnded })

end Sys2Proof.Machine
end

