-- ==== Sys2Proof/Machine/Freeze.lean ====
section
/-! DEFINITION. The end of a freeze (R23). -/

namespace Sys2Proof.Machine

/-- The result `id` has not been filled. -/
def Tile.unfilled (x : Tile) (id : Nat) : Bool := x.inflight.any fun l => l.id == id && l.waiting

/-- A line is on its way to the fetch buffer. -/
def State.fetching (s : State) (t : Tid) (line : Nat) : Bool :=
  s.agenda.any fun e => match e.ev with | .event .fetchLineArrival a => a.t == t && a.n == line | _ => false

/-- What a frozen tile waits for has come. A wait for a record or an entry of the chamber is looked at again in every cycle. -/
def State.waitOver (s : State) (t : Tid) (w : Wait) : Bool :=
  let x := s.tileAt t
  match w with
  | .value id => !x.unfilled id
  | .counter k thr => s.counterMet k thr
  | .handle h lvl => (x.handle h.val).settled lvl
  | .popPipe p => !(s.pipe p).bound || ((s.pipe p).oldest s.now).isSome || (s.pipe p).ended
  | .pushPipe p => !(s.pipe p).bound || !(s.pipe p).full
  | .walk d va => !s.walkingFor t d va.toNat
  | .fetch line => (x.fbuf.get none line).isSome || !s.fetching t line
  | .release scope c => s.releaseEnds t s.now scope c
  | .flush rank vis => !s.flushOut t rank vis
  | .l1wb line => !s.l1Stores t line && !x.flushDirty line
  | .lateRow row => !x.isLate row
  | .cycles n => n == 0
  | .chamber => true
  | .collPlace => decide (s.collWaiting < 64)
  | .mqEmpty => x.mq.isEmpty

/-- A freeze ends. After a release the bundle issues in the cycle after it is complete (R47). -/
def State.thaw (s : State) (t : Tid) (w : Wait) : State :=
  s.modTile t fun x => { x with frozen := match w with | .release .. | .flush .. => some (.cycles 1) | _ => none }

/-- A frozen tile whose wait is over. -/
def State.thawDue (s : State) : Option Tid :=
  (List.finRange 32).find? fun t => match (s.tileAt t).frozen with | some w => s.waitOver t w | none => false

/-- FREEZE_END (R23). -/
def execFreezeEnd (s : State) : Host.Outcome State Fault Refusal :=
  let t := s.arg.t
  .next (match (s.tileAt t).frozen with
    | some w => if s.waitOver t w then s.thaw t w else s
    | none => s)

end Sys2Proof.Machine
end

