-- ==== Sys2Proof/Machine/Dispatch.lean ====
section
/-! DEFINITION. One arm per constructor of `Instr`. -/

namespace Sys2Proof.Machine

def exec (i : Instr) (s : State) : Host.Outcome State Fault Refusal :=
  match i with
  | .nop k => Sys2Proof.Machine.execNop k s
  | .add f => Sys2Proof.Machine.execAdd f s
  | .sub f => Sys2Proof.Machine.execSub f s
  | .mul f => Sys2Proof.Machine.execMul f s
  | .mulhi f => Sys2Proof.Machine.execMulhi f s
  | .mulhn f => Sys2Proof.Machine.execMulhn f s
  | .divi f => Sys2Proof.Machine.execDivi f s
  | .divn f => Sys2Proof.Machine.execDivn f s
  | .remi f => Sys2Proof.Machine.execRemi f s
  | .remn f => Sys2Proof.Machine.execRemn f s
  | .and f => Sys2Proof.Machine.execAnd f s
  | .or f => Sys2Proof.Machine.execOr f s
  | .xor f => Sys2Proof.Machine.execXor f s
  | .andn f => Sys2Proof.Machine.execAndn f s
  | .shl f => Sys2Proof.Machine.execShl f s
  | .shr f => Sys2Proof.Machine.execShr f s
  | .sra f => Sys2Proof.Machine.execSra f s
  | .rol f => Sys2Proof.Machine.execRol f s
  | .mini f => Sys2Proof.Machine.execMini f s
  | .maxi f => Sys2Proof.Machine.execMaxi f s
  | .minn f => Sys2Proof.Machine.execMinn f s
  | .maxn f => Sys2Proof.Machine.execMaxn f s
  | .adds f => Sys2Proof.Machine.execAdds f s
  | .subs f => Sys2Proof.Machine.execSubs f s
  | .bfx f => Sys2Proof.Machine.execBfx f s
  | .bfi f => Sys2Proof.Machine.execBfi f s
  | .cmp f => Sys2Proof.Machine.execCmp f s
  | .sel f => Sys2Proof.Machine.execSel f s
  | .addImmediate f => Sys2Proof.Machine.execAddImmediate f s
  | .subImmediate f => Sys2Proof.Machine.execSubImmediate f s
  | .mulImmediate f => Sys2Proof.Machine.execMulImmediate f s
  | .mulhiImmediate f => Sys2Proof.Machine.execMulhiImmediate f s
  | .mulhnImmediate f => Sys2Proof.Machine.execMulhnImmediate f s
  | .diviImmediate f => Sys2Proof.Machine.execDiviImmediate f s
  | .divnImmediate f => Sys2Proof.Machine.execDivnImmediate f s
  | .remiImmediate f => Sys2Proof.Machine.execRemiImmediate f s
  | .remnImmediate f => Sys2Proof.Machine.execRemnImmediate f s
  | .andImmediate f => Sys2Proof.Machine.execAndImmediate f s
  | .orImmediate f => Sys2Proof.Machine.execOrImmediate f s
  | .xorImmediate f => Sys2Proof.Machine.execXorImmediate f s
  | .andnImmediate f => Sys2Proof.Machine.execAndnImmediate f s
  | .shlImmediate f => Sys2Proof.Machine.execShlImmediate f s
  | .shrImmediate f => Sys2Proof.Machine.execShrImmediate f s
  | .sraImmediate f => Sys2Proof.Machine.execSraImmediate f s
  | .rolImmediate f => Sys2Proof.Machine.execRolImmediate f s
  | .miniImmediate f => Sys2Proof.Machine.execMiniImmediate f s
  | .maxiImmediate f => Sys2Proof.Machine.execMaxiImmediate f s
  | .minnImmediate f => Sys2Proof.Machine.execMinnImmediate f s
  | .maxnImmediate f => Sys2Proof.Machine.execMaxnImmediate f s
  | .addsImmediate f => Sys2Proof.Machine.execAddsImmediate f s
  | .subsImmediate f => Sys2Proof.Machine.execSubsImmediate f s
  | .bfxImmediate f => Sys2Proof.Machine.execBfxImmediate f s
  | .bfiImmediate f => Sys2Proof.Machine.execBfiImmediate f s
  | .cmpImmediate f => Sys2Proof.Machine.execCmpImmediate f s
  | .selImmediate f => Sys2Proof.Machine.execSelImmediate f s
  | .movi f => Sys2Proof.Machine.execMovi f s
  | .movhi f => Sys2Proof.Machine.execMovhi f s
  | .clz f => Sys2Proof.Machine.execClz f s
  | .ctz f => Sys2Proof.Machine.execCtz f s
  | .popc f => Sys2Proof.Machine.execPopc f s
  | .brev f => Sys2Proof.Machine.execBrev f s
  | .sext f => Sys2Proof.Machine.execSext f s
  | .pand f => Sys2Proof.Machine.execPand f s
  | .por f => Sys2Proof.Machine.execPor f s
  | .pxor f => Sys2Proof.Machine.execPxor f s
  | .pandn f => Sys2Proof.Machine.execPandn f s
  | .pnot f => Sys2Proof.Machine.execPnot f s
  | .pcnt f => Sys2Proof.Machine.execPcnt f s
  | .pfirst f => Sys2Proof.Machine.execPfirst f s
  | .plast f => Sys2Proof.Machine.execPlast f s
  | .pfrom f => Sys2Proof.Machine.execPfrom f s
  | .plen f => Sys2Proof.Machine.execPlen f s
  | .ptos f => Sys2Proof.Machine.execPtos f s
  | .mfsr f => Sys2Proof.Machine.execMfsr f s
  | .mtsr f => Sys2Proof.Machine.execMtsr f s
  | .rinj f => Sys2Proof.Machine.execRinj f s
  | .vadd f => Sys2Proof.Machine.execVadd f s
  | .vsub f => Sys2Proof.Machine.execVsub f s
  | .vmul f => Sys2Proof.Machine.execVmul f s
  | .vfma f => Sys2Proof.Machine.execVfma f s
  | .vfms f => Sys2Proof.Machine.execVfms f s
  | .vfnma f => Sys2Proof.Machine.execVfnma f s
  | .vmin f => Sys2Proof.Machine.execVmin f s
  | .vmax f => Sys2Proof.Machine.execVmax f s
  | .vminn f => Sys2Proof.Machine.execVminn f s
  | .vmaxn f => Sys2Proof.Machine.execVmaxn f s
  | .vabs f => Sys2Proof.Machine.execVabs f s
  | .vneg f => Sys2Proof.Machine.execVneg f s
  | .vabd f => Sys2Proof.Machine.execVabd f s
  | .vadds f => Sys2Proof.Machine.execVadds f s
  | .vsubs f => Sys2Proof.Machine.execVsubs f s
  | .vmulh f => Sys2Proof.Machine.execVmulh f s
  | .vdot4 f => Sys2Proof.Machine.execVdot4 f s
  | .vavg f => Sys2Proof.Machine.execVavg f s
  | .vclamp f => Sys2Proof.Machine.execVclamp f s
  | .vand f => Sys2Proof.Machine.execVand f s
  | .vor f => Sys2Proof.Machine.execVor f s
  | .vxor f => Sys2Proof.Machine.execVxor f s
  | .vandn f => Sys2Proof.Machine.execVandn f s
  | .vnot f => Sys2Proof.Machine.execVnot f s
  | .vshl f => Sys2Proof.Machine.execVshl f s
  | .vshr f => Sys2Proof.Machine.execVshr f s
  | .vsra f => Sys2Proof.Machine.execVsra f s
  | .vrol f => Sys2Proof.Machine.execVrol f s
  | .vpopc f => Sys2Proof.Machine.execVpopc f s
  | .vclz f => Sys2Proof.Machine.execVclz f s
  | .vcmp f => Sys2Proof.Machine.execVcmp f s
  | .vclass f => Sys2Proof.Machine.execVclass f s
  | .vsel f => Sys2Proof.Machine.execVsel f s
  | .vmov f => Sys2Proof.Machine.execVmov f s
  | .vmovi f => Sys2Proof.Machine.execVmovi f s
  | .vext f => Sys2Proof.Machine.execVext f s
  | .vins f => Sys2Proof.Machine.execVins f s
  | .vcvt f => Sys2Proof.Machine.execVcvt f s
  | .vqnt f => Sys2Proof.Machine.execVqnt f s
  | .vdqnt f => Sys2Proof.Machine.execVdqnt f s
  | .vpack f => Sys2Proof.Machine.execVpack f s
  | .vunpk f => Sys2Proof.Machine.execVunpk f s
  | .vperm f => Sys2Proof.Machine.execVperm f s
  | .vshuf f => Sys2Proof.Machine.execVshuf f s
  | .vslide f => Sys2Proof.Machine.execVslide f s
  | .vbcast f => Sys2Proof.Machine.execVbcast f s
  | .vcomp f => Sys2Proof.Machine.execVcomp f s
  | .vexpd f => Sys2Proof.Machine.execVexpd f s
  | .vred f => Sys2Proof.Machine.execVred f s
  | .vscan f => Sys2Proof.Machine.execVscan f s
  | .vsegscan f => Sys2Proof.Machine.execVsegscan f s
  | .vrec f => Sys2Proof.Machine.execVrec f s
  | .vmacw f => Sys2Proof.Machine.execVmacw f s
  | .zmovn f => Sys2Proof.Machine.execZmovn f s
  | .zmovw f => Sys2Proof.Machine.execZmovw f s
  | .vrcp f => Sys2Proof.Machine.execVrcp f s
  | .vrsq f => Sys2Proof.Machine.execVrsq f s
  | .vsqrt f => Sys2Proof.Machine.execVsqrt f s
  | .vdiv f => Sys2Proof.Machine.execVdiv f s
  | .vexp2 f => Sys2Proof.Machine.execVexp2 f s
  | .vlog2 f => Sys2Proof.Machine.execVlog2 f s
  | .vexp f => Sys2Proof.Machine.execVexp f s
  | .vtanh f => Sys2Proof.Machine.execVtanh f s
  | .vsigm f => Sys2Proof.Machine.execVsigm f s
  | .vsint f => Sys2Proof.Machine.execVsint f s
  | .vcost f => Sys2Proof.Machine.execVcost f s
  | .vrchk f => Sys2Proof.Machine.execVrchk f s
  | .mldb f => Sys2Proof.Machine.execMldb f s
  | .mldbt f => Sys2Proof.Machine.execMldbt f s
  | .mma f => Sys2Proof.Machine.execMma f s
  | .mmaz f => Sys2Proof.Machine.execMmaz f s
  | .mmac f => Sys2Proof.Machine.execMmac f s
  | .mzero f => Sys2Proof.Machine.execMzero f s
  | .mzset f => Sys2Proof.Machine.execMzset f s
  | .mrowsum f => Sys2Proof.Machine.execMrowsum f s
  | .mzpc f => Sys2Proof.Machine.execMzpc f s
  | .mdrain f => Sys2Proof.Machine.execMdrain f s
  | .mzld f => Sys2Proof.Machine.execMzld f s
  | .mxsave f => Sys2Proof.Machine.execMxsave f s
  | .mxrest f => Sys2Proof.Machine.execMxrest f s
  | .vld f => Sys2Proof.Machine.execVld f s
  | .vlds f => Sys2Proof.Machine.execVlds f s
  | .vldg f => Sys2Proof.Machine.execVldg f s
  | .vldb f => Sys2Proof.Machine.execVldb f s
  | .lds f => Sys2Proof.Machine.execLds f s
  | .gld f => Sys2Proof.Machine.execGld f s
  | .gldv f => Sys2Proof.Machine.execGldv f s
  | .pld f => Sys2Proof.Machine.execPld f s
  | .ppop f => Sys2Proof.Machine.execPpop f s
  | .ldtag f => Sys2Proof.Machine.execLdtag f s
  | .gpref f => Sys2Proof.Machine.execGpref f s
  | .vst f => Sys2Proof.Machine.execVst f s
  | .vsts f => Sys2Proof.Machine.execVsts f s
  | .vstx f => Sys2Proof.Machine.execVstx f s
  | .sts f => Sys2Proof.Machine.execSts f s
  | .gst f => Sys2Proof.Machine.execGst f s
  | .gstv f => Sys2Proof.Machine.execGstv f s
  | .pst f => Sys2Proof.Machine.execPst f s
  | .aadd f => Sys2Proof.Machine.execAadd f s
  | .aaddf f => Sys2Proof.Machine.execAaddf f s
  | .amin f => Sys2Proof.Machine.execAmin f s
  | .amax f => Sys2Proof.Machine.execAmax f s
  | .aand f => Sys2Proof.Machine.execAand f s
  | .aor f => Sys2Proof.Machine.execAor f s
  | .axor f => Sys2Proof.Machine.execAxor f s
  | .aswp f => Sys2Proof.Machine.execAswp f s
  | .acas f => Sys2Proof.Machine.execAcas f s
  | .ppush f => Sys2Proof.Machine.execPpush f s
  | .peos f => Sys2Proof.Machine.execPeos f s
  | .sttag f => Sys2Proof.Machine.execSttag f s
  | .gflush f => Sys2Proof.Machine.execGflush f s
  | .cloop f => Sys2Proof.Machine.execCloop f s
  | .cbase f => Sys2Proof.Machine.execCbase f s
  | .cgo f => Sys2Proof.Machine.execCgo f s
  | .cstop f => Sys2Proof.Machine.execCstop f s
  | .cquery f => Sys2Proof.Machine.execCquery f s
  | .tbind f => Sys2Proof.Machine.execTbind f s
  | .tunbind f => Sys2Proof.Machine.execTunbind f s
  | .tflush f => Sys2Proof.Machine.execTflush f s
  | .wcreate f => Sys2Proof.Machine.execWcreate f s
  | .wfree f => Sys2Proof.Machine.execWfree f s
  | .wfence f => Sys2Proof.Machine.execWfence f s
  | .wpost f => Sys2Proof.Machine.execWpost f s
  | .wstart f => Sys2Proof.Machine.execWstart f s
  | .wcompl f => Sys2Proof.Machine.execWcompl f s
  | .wdone f => Sys2Proof.Machine.execWdone f s
  | .wlock f => Sys2Proof.Machine.execWlock f s
  | .wunlock f => Sys2Proof.Machine.execWunlock f s
  | .wput f => Sys2Proof.Machine.execWput f s
  | .wget f => Sys2Proof.Machine.execWget f s
  | .wacc f => Sys2Proof.Machine.execWacc f s
  | .wamo f => Sys2Proof.Machine.execWamo f s
  | .wflush f => Sys2Proof.Machine.execWflush f s
  | .wtest f => Sys2Proof.Machine.execWtest f s
  | .hinit f => Sys2Proof.Machine.execHinit f s
  | .htest f => Sys2Proof.Machine.execHtest f s
  | .hread f => Sys2Proof.Machine.execHread f s
  | .coll f => Sys2Proof.Machine.execColl f s
  | .cinc f => Sys2Proof.Machine.execCinc f s
  | .cread f => Sys2Proof.Machine.execCread f s
  | .cset f => Sys2Proof.Machine.execCset f s
  | .tspawn f => Sys2Proof.Machine.execTspawn f s
  | .pbind f => Sys2Proof.Machine.execPbind f s
  | .teffect f => Sys2Proof.Machine.execTeffect f s
  | .caskdup f => Sys2Proof.Machine.execCaskdup f s
  | .caskdisc f => Sys2Proof.Machine.execCaskdisc f s
  | .caskq f => Sys2Proof.Machine.execCaskq f s
  | .br f => Sys2Proof.Machine.execBr f s
  | .brp f => Sys2Proof.Machine.execBrp f s
  | .brs f => Sys2Proof.Machine.execBrs f s
  | .jr f => Sys2Proof.Machine.execJr f s
  | .call f => Sys2Proof.Machine.execCall f s
  | .callr f => Sys2Proof.Machine.execCallr f s
  | .ret f => Sys2Proof.Machine.execRet f s
  | .loop f => Sys2Proof.Machine.execLoop f s
  | .loopi f => Sys2Proof.Machine.execLoopi f s
  | .sync f => Sys2Proof.Machine.execSync f s
  | .waitc f => Sys2Proof.Machine.execWaitc f s
  | .waith f => Sys2Proof.Machine.execWaith f s
  | .fence f => Sys2Proof.Machine.execFence f s
  | .yield f => Sys2Proof.Machine.execYield f s
  | .susp f => Sys2Proof.Machine.execSusp f s
  | .suspg f => Sys2Proof.Machine.execSuspg f s
  | .rsm f => Sys2Proof.Machine.execRsm f s
  | .trap f => Sys2Proof.Machine.execTrap f s
  | .eret f => Sys2Proof.Machine.execEret f s
  | .halt f => Sys2Proof.Machine.execHalt f s
  | .bkpt f => Sys2Proof.Machine.execBkpt f s
  | .tileCycle => Sys2Proof.Machine.execTileCycle s
  | .freezeEnd => Sys2Proof.Machine.execFreezeEnd s
  | .l1Fill => Sys2Proof.Machine.execL1Fill s
  | .ownershipGrant => Sys2Proof.Machine.execOwnershipGrant s
  | .revocation => Sys2Proof.Machine.execRevocation s
  | .globalAtomicReturn => Sys2Proof.Machine.execGlobalAtomicReturn s
  | .translationWalkEnd => Sys2Proof.Machine.execTranslationWalkEnd s
  | .fetchLineArrival => Sys2Proof.Machine.execFetchLineArrival s
  | .copyEmission => Sys2Proof.Machine.execCopyEmission s
  | .lateRowWrite => Sys2Proof.Machine.execLateRowWrite s
  | .writeQueueRowWrite => Sys2Proof.Machine.execWriteQueueRowWrite s
  | .delayedSourceRead => Sys2Proof.Machine.execDelayedSourceRead s
  | .putRequest => Sys2Proof.Machine.execPutRequest s
  | .getRequest => Sys2Proof.Machine.execGetRequest s
  | .accumulateRequest => Sys2Proof.Machine.execAccumulateRequest s
  | .taggedAccumulate => Sys2Proof.Machine.execTaggedAccumulate s
  | .atomicRequest => Sys2Proof.Machine.execAtomicRequest s
  | .futureFill => Sys2Proof.Machine.execFutureFill s
  | .remoteApply => Sys2Proof.Machine.execRemoteApply s
  | .getData => Sys2Proof.Machine.execGetData s
  | .atomicOldValue => Sys2Proof.Machine.execAtomicOldValue s
  | .notices => Sys2Proof.Machine.execNotices s
  | .acknowledgementOnly => Sys2Proof.Machine.execAcknowledgementOnly s
  | .post => Sys2Proof.Machine.execPost s
  | .completion => Sys2Proof.Machine.execCompletion s
  | .fenceArrival => Sys2Proof.Machine.execFenceArrival s
  | .fenceDone => Sys2Proof.Machine.execFenceDone s
  | .lockRequest => Sys2Proof.Machine.execLockRequest s
  | .grant => Sys2Proof.Machine.execGrant s
  | .release => Sys2Proof.Machine.execRelease s
  | .completionNoticeSend => Sys2Proof.Machine.execCompletionNoticeSend s
  | .fenceArrivalSend => Sys2Proof.Machine.execFenceArrivalSend s
  | .releaseSend => Sys2Proof.Machine.execReleaseSend s
  | .chamberQueueTimeout => Sys2Proof.Machine.execChamberQueueTimeout s
  | .windowEntryFreed => Sys2Proof.Machine.execWindowEntryFreed s
  | .fabricSlot => Sys2Proof.Machine.execFabricSlot s
  | .standingFlitArrival => Sys2Proof.Machine.execStandingFlitArrival s
  | .scheduledFlitArrival => Sys2Proof.Machine.execScheduledFlitArrival s
  | .syncResult => Sys2Proof.Machine.execSyncResult s
  | .epoch => Sys2Proof.Machine.execEpoch s
  | .referenceLockLoss => Sys2Proof.Machine.execReferenceLockLoss s
  | .laneLock => Sys2Proof.Machine.execLaneLock s
  | .trainingTimeout => Sys2Proof.Machine.execTrainingTimeout s
  | .alignment => Sys2Proof.Machine.execAlignment s
  | .keyExchange => Sys2Proof.Machine.execKeyExchange s
  | .tableActivation => Sys2Proof.Machine.execTableActivation s
  | .laneLockLoss => Sys2Proof.Machine.execLaneLockLoss s
  | .linkFailureTimeout => Sys2Proof.Machine.execLinkFailureTimeout s
  | .rekeyStart => Sys2Proof.Machine.execRekeyStart s
  | .rekeyCommit => Sys2Proof.Machine.execRekeyCommit s
  | .launchNotice => Sys2Proof.Machine.execLaunchNotice s
  | .reservationRequest => Sys2Proof.Machine.execReservationRequest s
  | .reservationGrant => Sys2Proof.Machine.execReservationGrant s
  | .go => Sys2Proof.Machine.execGo s
  | .chunkStaging => Sys2Proof.Machine.execChunkStaging s
  | .streamStaging => Sys2Proof.Machine.execStreamStaging s
  | .towpathPartial => Sys2Proof.Machine.execTowpathPartial s
  | .rootSlotCopy => Sys2Proof.Machine.execRootSlotCopy s
  | .taskReady => Sys2Proof.Machine.execTaskReady s
  | .taskStart => Sys2Proof.Machine.execTaskStart s
  | .preemption => Sys2Proof.Machine.execPreemption s
  | .reachJobStart => Sys2Proof.Machine.execReachJobStart s
  | .partNotReady => Sys2Proof.Machine.execPartNotReady s
  | .taskRetire => Sys2Proof.Machine.execTaskRetire s
  | .redirectSwitch => Sys2Proof.Machine.execRedirectSwitch s
  | .syncArrival => Sys2Proof.Machine.execSyncArrival s
  | .syncRestart => Sys2Proof.Machine.execSyncRestart s
  | .classMEvent => Sys2Proof.Machine.execClassMEvent s
  | .powerMeasurement => Sys2Proof.Machine.execPowerMeasurement s
  | .throttleEnd => Sys2Proof.Machine.execThrottleEnd s
  | .emergencyPowerStop => Sys2Proof.Machine.execEmergencyPowerStop s
  | .suspensionDrainEnd => Sys2Proof.Machine.execSuspensionDrainEnd s
  | .caskWritten => Sys2Proof.Machine.execCaskWritten s
  | .caskNoticeLanding => Sys2Proof.Machine.execCaskNoticeLanding s
  | .rsmClaim => Sys2Proof.Machine.execRsmClaim s
  | .restoreComplete => Sys2Proof.Machine.execRestoreComplete s
  | .caskdupCopyDone => Sys2Proof.Machine.execCaskdupCopyDone s
  | .powerUp => Sys2Proof.Machine.execPowerUp s
  | .attestation => Sys2Proof.Machine.execAttestation s
  | .apertureRead => Sys2Proof.Machine.execApertureRead s
  | .apertureWrite => Sys2Proof.Machine.execApertureWrite s
  | .rootrec => Sys2Proof.Machine.execRootrec s
  | .rootarm => Sys2Proof.Machine.execRootarm s
  | .rpool => Sys2Proof.Machine.execRpool s
  | .eqbase => Sys2Proof.Machine.execEqbase s
  | .eqsize => Sys2Proof.Machine.execEqsize s
  | .rjstart => Sys2Proof.Machine.execRjstart s
  | .rjctlArm => Sys2Proof.Machine.execRjctlArm s
  | .rjctlDisarm => Sys2Proof.Machine.execRjctlDisarm s
  | .hostRegisterWrite => Sys2Proof.Machine.execHostRegisterWrite s
  | .invalidatePage => Sys2Proof.Machine.execInvalidatePage s
  | .invalidateDomain => Sys2Proof.Machine.execInvalidateDomain s
  | .invalidateAll => Sys2Proof.Machine.execInvalidateAll s
  | .debugStop => Sys2Proof.Machine.execDebugStop s
  | .debugResume => Sys2Proof.Machine.execDebugResume s
  | .readState => Sys2Proof.Machine.execReadState s
  | .writeState => Sys2Proof.Machine.execWriteState s
  | .freeFailedTask => Sys2Proof.Machine.execFreeFailedTask s
  | .linkBringUp => Sys2Proof.Machine.execLinkBringUp s
  | .loadShadowDepartureTable => Sys2Proof.Machine.execLoadShadowDepartureTable s
  | .setCounter => Sys2Proof.Machine.execSetCounter s
  | .readCounter => Sys2Proof.Machine.execReadCounter s
  | .endReachJob => Sys2Proof.Machine.execEndReachJob s
  | .hostCommandDone => Sys2Proof.Machine.execHostCommandDone s
  | .cmdOtherCode => Sys2Proof.Machine.execCmdOtherCode s

end Sys2Proof.Machine
end

