-- ==== Sys2Proof/Machine/Issue.lean ====
section
/-! DEFINITION. Issue of a bundle: the faults before it (R413 items 5 to 8), its slots together (R148), the fetch queue and the
loops (R165, R170), a bundle finished in part (R415). -/

namespace Sys2Proof.Machine

abbrev Out (α : Type) := Host.Outcome α Fault Refusal

/-- Runs `f` along a list, stopping at the first fault or refusal. -/
def foldOut {α β : Type} (f : α → β → Out α) : List β → α → Out α
  | [], a => .next a
  | b :: l, a =>
    match f a b with
    | .next a' => foldOut f l a'
    | .fault e => .fault e
    | .refused r => .refused r

/-! ## The fetch queue -/

/-- `succ` of R170: the address after `a`, closing the loops that end there. -/
def Tile.succ : Nat → Tile → Word → Word × Tile
  | 0, x, a => (a + 64, x)
  | n + 1, x, a =>
    let l := (x.sreg srLLVL).toNat
    if 0 < l ∧ x.sreg (srLFIN + (l - 1)) = a then
      let c := x.sreg (srLCNT + (l - 1))
      if 1 < c.toNat then (x.sreg (srLBEG + (l - 1)), x.setSreg (srLCNT + (l - 1)) (c - 1))
      else Tile.succ n (x.setSreg srLLVL (BitVec.ofNat 64 (l - 1))) a
    else (a + 64, x)

/-- The queue moves on by one bundle (R165); a bundle that was finished in part just leaves it. -/
def Tile.advance (x : Tile) : Tile :=
  match x.fq with
  | [_, b, c] =>
    match x.branch with
    | some t => { x with fq := [b, c, t], branch := none }
    | none =>
      let r := x.succ 8 c
      { r.2 with fq := [b, c, r.1] }
  | _ :: q => { x with fq := q, branch := none }
  | [] => x

/-- The stop after bundle `pc` under single step (R429). -/
def Tile.stepTrap (x : Tile) (pc : Word) : TrapReq := { cls := clsD, low := 3, info := 0, kind := .after, pc := pc, host := x.dbgHost }

/-- After a bundle has acted: RPT, the yield count at an effective yield point (R274, R427), the cycle, the class M count, the
step stop (R429), the operand log (R415). `before` is the tile before the bundle. -/
def Tile.retire (x before : Tile) (h : Header) (log : List LogEntry) : Tile :=
  let eff := h.yld && before.mq.isEmpty
  let x := x.advance
  let x := { x with rpt := h.rpt, yc := if eff then 0 else x.yc, 
                    atYield := (eff && before.preempt && !before.trp) || (x.atYield && !before.atYield), noBrk := false }
  let x := match x.run with | .sync .. => x | _ => x.tick
  let x := { x with mDue := x.mDue.map fun m => (m.1 - 1, m.2.1, m.2.2) }
  if before.trp then x
  else
    let stop := bit (before.sreg srDBGCTL).toNat 0 && x.trapDue.isNone
    { x with
      oplog := log,
      trapDue := if stop then some (before.stepTrap before.pc) else x.trapDue }

/-! ## Running every slot alone first -/

/-- What running the slots alone has found: the port reservations so far, how many results are added, the trap of lowest rank,
and the first freeze. -/
structure Trial where
  resv : List (Nat × Nat × Nat)
  grow : Nat
  trap : Option (Nat × State)
  froze : Option State

/-- The registers that a result will write, latches among them (R416, R418; log entry 19); the status of `WFREE` counts for none. -/
def Landing.count (l : Landing) : Nat :=
  if 2 ^ 63 ≤ l.due then 0 else (l.writes.map fun w => match w with | .vec _ _ _ (some _) => 2 | _ => 1).sum

def Tile.results (x : Tile) : Nat := (x.inflight.map Landing.count).sum

/-- Gives a tile back its own registers after a slot has run from the operand log. -/
def Tile.regsOf (x y : Tile) : Tile := { x with s := y.s, p := y.p, v := y.v, q := y.q }

/-- An instruction of the bundle, with the registers that it reads when they come from the operand log. -/
abbrev Slotted := Instr × Option LogEntry

def State.runSlot (s : State) (i : Slotted) : Out State :=
  match i.2 with
  | none => exec i.1 s
  | some e =>
    let y := s.tile
    match exec i.1 (s.onTile fun x => x.withLog e) with
    | .next s' => .next (s'.onTile fun x => x.regsOf y)
    | o => o

def State.trySlot (base : State) (a : Trial) (i : Slotted) : Out Trial :=
  match (base.onTile fun x => { x with resv := a.resv }).runSlot i with
  | .next s' =>
    let x := s'.tile
    match x.issued with
    | .acted => .next { a with resv := x.resv, grow := a.grow + (x.results - base.tile.results) }
    | .trapped r =>
      let keep := s'.onTile fun x => { x with resv := base.tile.resv }
      .next { a with trap := match a.trap with
        | some (q, t) => if q ≤ r then some (q, t) else some (r, keep)
        | none => some (r, keep) }
    | .froze =>
      .next { a with froze := match a.froze with
        | some t => some t
        | none => some (s'.onTile fun x => { x with resv := base.tile.resv }) }
  | .fault e => .fault e
  | .refused r => .refused r

/-- The order in which the slots of a bundle act: no slot sees a result of another (R148); the order fixes the port priority of
R185, and a fence comes before the bundle's other slots, which are later than it (R46). -/
def issueOrder (b : Nat) : List Nat :=
  match decodeSlot 7 (slotBits b 7) with
  | .ok (.fence _) => [7, 0, 3, 4, 5, 6, 1, 2]
  | _ => [0, 3, 4, 5, 6, 1, 2, 7]

/-- The instructions of a bundle that decode, in issue order, without the NOPs. -/
def bundleOrder (b : Nat) : List Slotted :=
  (issueOrder b).filterMap fun k =>
    match decodeSlot k (slotBits b k) with
    | .ok (.nop _) => none
    | .ok i => some (i, none)
    | .error _ => none

/-- The operand-log entries of a bundle's L, T and C slots. -/
def logOf (x : Tile) (b : Nat) : List LogEntry :=
  [4, 5, 6].filterMap fun k =>
    match decodeSlot k (slotBits b k) with
    | .ok (.nop _) => none
    | .ok i => some { slot := k, instr := i, sv := x.s, pv := x.p, vv := x.v, qv := x.q }
    | .error _ => none

/-- A fault of the bundle due as a whole. -/
def State.trapAt (s : State) (q : TrapReq) : State := s.raise (0, q)

/-- Scratchpad accesses of the bundle that issued at `iss`. -/
def Ev.padOf (t : Tid) (iss : Nat) : Ev → Bool
  | .padRead u i .. => u == t && i == iss
  | .padWrite u i .. => u == t && i == iss
  | .tagWrite u i .. => u == t && i == iss
  | .padAtomic u i .. => u == t && i == iss
  | _ => false

/-- A calendar entry `n` cycles later. -/
def Entry.later (e : Entry) (n : Nat) : Entry :=
  { e with at_ := e.at_ + n,
           ev := match e.ev with
             | .padRead t i id l got left => .padRead t i id l got (left.map fun r => (r.1, r.2 + n))
             | v => v }

/-- When the bundle freezes the tile for bank ports (R186, R187), its own accesses perform, and its L- and T-slot results land,
at their tile cycles: later by the freeze. -/
def State.lateBundle (s : State) : State :=
  let x := s.tile
  match x.frozen with
  | some (.cycles n) =>
    let own := fun e : Entry => e.ev.padOf s.cur s.now
    let a := (s.agenda.filter own).foldl (fun l e => agendaIns (e.later n) l) (s.agenda.filter fun e => !own e)
    ({ s with agenda := a }).onTile fun x => { x with inflight := x.inflight.map fun (l : Landing) =>
      if l.issue = x.rclk ∧ (l.slot = 4 ∨ l.slot = 5) ∧ !l.hold then { l with due := l.due + n } else l }
  | _ => s

/-- Issues a list of slots together: the fault of lowest rank, else the freeze, else all act and `fin` ends the bundle. -/
def State.issueSlots (s : State) (static : List EncErr) (is : List Slotted) (fin : State → State) : Out State :=
  match foldOut s.trySlot is { resv := s.tile.resv, grow := 0, trap := none, froze := none } with
  | .fault e => .fault e
  | .refused r => .refused r
  | .next a =>
    let n := s.tile.results + a.grow
    let own : List Flt := (match EncErr.first static with | some e => [s.tile.encTrap e] | none => []) ++
      (if 96 < n then [s.tile.classS 0 0 (2 * 2 ^ 12 + n * 2 ^ 32)] else [])
    match pickFault own, a.trap with
    | some f, some (r, t) => if r < f.1 then .next t else .next (s.trapAt f.2)
    | some f, none => .next (s.trapAt f.2)
    | none, some (_, t) => .next t
    | none, none =>
      match a.froze with
      | some t => .next t
      | none =>
        match foldOut State.runSlot is s with
        | .next s' => .next (fin s'.lateBundle)
        | o => o

/-! ## The bundle due -/

/-- A bundle that is not in the fetch buffer (R432, R433); in timed mode too a missing translation is walked for, as R208 has it for data. -/
def State.issueMissing (s : State) : State :=
  let x := s.tile
  match x.translate x.pc.toNat needX with
  | .fault c l => s.trapAt (x.issueTrap clsT (BitVec.ofNat 4 c) (walkInfo x.pc.toNat l 8))
  | m =>
    if x.timed then
      (match m with | .miss => s.startWalk s.cur x.pc.toNat 8 | _ => s).trapAt (x.issueTrap clsS 0 (3 * 2 ^ 12))
    else
      (s.fetchMiss s.cur x.pc.toNat).freeze (match m with
        | .miss => .walk x.pdom x.pc
        | _ => .fetch (x.pc.toNat / 256))

/-- Issues the bundle whose bits are `b`. -/
def State.issueBundle (s : State) (b : Nat) : Out State :=
  let x := s.tile
  let h := Header.ofNat (bits b 0 16)
  if h.brk ∧ !x.noBrk then .next (s.trapAt { x.issueTrap clsD 1 0 with host := x.dbgHost })
  else s.issueSlots (bundleErrs b) (bundleOrder b) fun s' => s'.onTile fun y => y.retire x h (logOf x b)

/-- The bundle at trap cycle c has acted in full: what was held with it is raised at c (R413), and then the rest of c is owed as an empty
cycle, for the queue goes on from c + 1 (R415). Under single step the stop follows. -/
def State.endRest (s : State) (before : Tile) : State :=
  let s := s.onTile Tile.advance
  let h := (s.onTile fun y => { y with rpt := y.rpt + 1 }).pickHeld s.cur
  if h.tile.run ≠ .running then h
  else s.onTile fun y =>
    let stop := bit (before.sreg srDBGCTL).toNat 0 && y.trapDue.isNone
    { y.tick with trapDue := if stop then some (before.stepTrap before.pc) else y.trapDue }

/-- Finishes a bundle from the operand log: the slots that SLOTDONE does not mark (R415). -/
def State.issueRest (s : State) : Out State :=
  let x := s.tile
  let sd := (x.sreg srSLOTDONE).toNat
  let es := x.oplog.filter fun e => !bit sd e.slot
  s.issueSlots [] (es.map fun e => (e.instr, some e)) fun s' => s'.endRest x

/-- The bundle due, by the order of R413 from item 5. -/
def State.issueDue (s : State) : Out State :=
  let x := s.tile
  if x.inPart then s.issueRest
  else if x.rpt ≠ 0 then .next (s.onTile fun x => ({ x with rpt := x.rpt - 1 } : Tile).tick)
  else
    let bound := (x.sreg srYBOUND).toNat % 2 ^ 32
    if bound ≠ 0 ∧ bound < x.yc.toNat ∧ !x.trp then
      .next (s.trapAt (x.issueTrap clsS 0 (2 ^ 12 + x.yc.toNat * 2 ^ 32)))
    else
      match x.bundleAt x.pc with
      | none => .next s.issueMissing
      | some b => s.issueBundle b

/-- A suspension waits for an empty matrix queue (R274). A value that has not come at its tile cycle: class S in timed mode, else a freeze (R23, R204, R417). -/
def State.issueRunning (s : State) : Out State :=
  let x := s.tile
  match x.frozen with
  | some (.cycles n) => .next (s.onTile fun x => { x with frozen := some (.cycles (n - 1)) })
  | some _ => .next s
  | none =>
    if x.capturing then .next (if x.mq.isEmpty || x.trp then s.capture s.cur else s.freeze .mqEmpty)
    else match x.inflight.find? fun l => l.waiting && l.due ≤ x.rclk with
    | some l =>
      if x.timed then .next (s.trapAt (x.issueTrap clsS 5 (l.slot.val * 2 ^ 8)))
      else .next (s.freeze (.value l.id))
    | none => s.issueDue

/-- `ERET` has nothing left to wait for: the lines of the queue are filled and the tile returns (R421). -/
def State.finishReturn (s : State) : State :=
  let x := s.tile
  let y := (x.setSt stSV (bit (x.sreg srTRAPNX).toNat 0)).setSt stTRP false
  let ls := (x.returnQueue.map fun a => a.toNat / 256)
  ((s.onTile fun _ => y).prefill s.cur ls).onTile fun z => ({ x with fbuf := z.fbuf, utlb := z.utlb } : Tile).trapReturn

/-- The bundle at the trap cycle issues again, after the results of the snapshot that land at c (R417) and the faults that were held with
it (R413); a bundle to be finished in part issues its slots with the return (R421). -/
def State.issueReturned (s : State) : Out State :=
  let r := s.tile.landDue
  let s := (s.setTile s.cur r.1).regEvents s.cur r.2
  if s.tile.inPart then s.issueRunning
  else
    let s := s.pickHeld s.cur
    if s.tile.run = .running then s.issueRunning else .next s

/-- The issue part of a tile's cycle, by what its sequencer is doing. -/
def State.issueTile (s : State) (t : Tid) : Out State :=
  let s := { s with cur := t }
  let x := s.tile
  if x.throttled.isSome then .next s
  else
    match x.run with
    | .running => s.issueRunning
    | .entering c => if c ≤ x.rclk then (s.onTile fun x => { x with run := .running }).issueRunning else .next s
    | .returning => if x.inflight.isEmpty ∧ x.mxBusy ≤ s.now then s.finishReturn.issueReturned else .next s
    | _ => .next s

end Sys2Proof.Machine
end

