-- ==== Sys2Proof/Machine/Poll.lean ====
section
/-! DEFINITION. The calendar at work: what comes due, what the basin's engines notice by themselves in a cycle, the order of the parts
of a cycle (R38), the end of a cycle (R24, R27). -/

namespace Sys2Proof.Machine

/-! ## Entries that come due -/

/-- A calendar entry takes place. -/
def State.runEv (s : State) : Ev → Out State
  | .event i a => exec i { s with arg := a }
  | .padRead t iss id l got left => .next (s.padRead t iss id l got left)
  | .padWrite t _ ws nibs rows => .next (s.padWrite t ws nibs rows)
  | .tagWrite t _ row tag => .next (s.tagWrite t row tag)
  | .padAtomic t iss id pc type op addr v cmp acq =>
    .next (if (s.tileAt t).portsTaken s.now (rowOf addr) then s.atomicLost t id (rowOf addr) (.padAtomic t iss id pc type op addr v cmp acq)
      else s.padAtomic t id type op addr v cmp acq)
  | .padInject t iss row act mask pat =>
    .next (if (s.tileAt t).portsTaken s.now row then s.retryPorts t row (.padInject t iss row act mask pat) else s.padInject t row act mask pat)
  | .mxRow t row v => .next (s.mxRow t row v)
  | .l1Read t iss id l => .next (s.l1Read t iss id l)
  | .gprefWait t va => .next (s.gprefWait t va)
  | .l1Write t _ ws => .next (s.l1Write t ws)
  | .l2Write t _ ws => .next (s.l2Write t ws)
  | .l2Atomic t _ id type op pa v cmp acq => .next (s.l2Atomic t id type op pa v cmp acq)
  | .l2Take t words => .next (s.l2Take t words)
  | .wordsBack t words => .next (s.wordsBack t words)
  | .l1Leave t line => .next (s.l1Leave t line)
  | .l1Back t line => .next (s.l1Back t line)
  | .grantDue t word => .next (s.grantDue t word)
  | .acquireAgain t => .next (s.modTile t Tile.acquire)
  | .l2Evict line => .next (s.l2Evict line)
  | .copySrc t id k => .next (s.copySrc t id k)
  | .copyL2Read t id => .next (s.copyL2Read t id)
  | .copyDst t id k => .next (s.copyDst t id k)
  | .copyPerform t id => .next (s.copyPerform t id)
  | .opSrc seq => .next (s.opSrc seq)
  | .opEnter seq => .next (s.opEnter seq)
  | .landRow seq row ws => .next (s.landRow seq row ws)
  | .send f => .next (s.sendFlit f)
  | .counterWrite k set_ v _ _ => .next (s.counterWrite k set_ v)
  | .counterSeen k v => .next { s with ctrSeen := s.ctrSeen.set (Reg.zero 1) k v }
  | .counterRead t id k => .next (s.counterRead t id k)
  | .pipePush _ _ p prod gen e => .next (s.pipePush p prod gen e)
  | .pipeMark _ _ p prod gen => .next (s.pipeMark p prod gen)
  | .pipeBind t id mode v => .next (s.pipeBind t id mode v)
  | .pipeRoom p gen => .next (s.pipeRoom p gen)
  | .tbind t id record pdom => .next (s.bind t id record pdom)
  | .tunbind t id tid => .next (s.unbind t id tid)
  | .tflush tid mode => .next (s.flushBound tid mode)
  | .wcreate t id desc pdom => .next (s.wcreate t id desc pdom)
  | .wclose t id win pdom sv => .next (s.wclose t id win pdom sv)
  | .wpost seq => .next (s.wpost seq)
  | .wdone seq => .next (s.wdone seq)
  | .opLevel seq lvl => .next (s.opLevel seq lvl)
  | .opFail seq code => .next (s.opFail seq code)
  | .hinit t h => .next (s.hinit t h)
  | .teffect t v => .next (s.teffect t v)
  | .tspawn t id recs pdom sv => .next (s.tspawn t id recs pdom sv)
  | .caskdup t id src dst pdom sv iss => .next (s.caskdup t id src dst pdom sv iss)
  | .caskdisc t id va pdom sv => .next (s.caskdisc t id va pdom sv)
  | .caskq t id va pdom sv => .next (s.caskq t id va pdom sv)
  | .caskSections t row => .next (s.caskSections t row)
  | .dupRow id row => .next (s.dupRow id row)
  | .statusNow t id v => .next (s.modTile t fun x => x.fillNow id v)
  | .claimEnd t => .next (s.claimEnd t)
  | .tileFree t => .next (s.tileFree t)
  | .mxrest t row j got => .next (s.mxrestRow t row j got)
  | .coll t f record pc => .next (s.collStart t f record pc)
  | .collPut opn src chunk path piece v => .next (s.collPutAt opn src chunk path piece v)
  | .collWrite opn win _ ws poisoned => .next (s.collWrite opn win ws poisoned)
  | .collDone opn written code => .next (s.collDone opn written code)
  | .collBegin opn => .next (s.collBegin opn)
  | .fenceEnd win => .next (s.fenceEnd win)
  | .forget src opn => .next (s.forget (src, opn))
  | .postEnd win => .next (s.postEnd win)

/-- The first entry due now among those that `sel` selects by their order, and the calendar without it. -/
def dueEntry (now : Nat) (sel : Nat → Bool) : List Entry → Option (Ev × List Entry)
  | [] => none
  | e :: l =>
    if decide (e.at_ ≤ now) && sel e.ord then some (e.ev, l)
    else (dueEntry now sel l).map fun r => (r.1, e :: r.2)

/-- Reads come before writes within a cycle (R38). -/
def readOrd (o : Nat) : Bool := decide (o < 64)

/-! ## What is noticed in a cycle -/

/-- A debug-stop command (R430, R463): the tile stops before its next bundle, at once when it has no task, after a handler when it is in
one. -/
def State.stopSweep (s : State) : State :=
  match s.host.stopTile with
  | none => s
  | some t =>
    let x := s.tileAt t
    match x.run with
    | .stopped => (s.modHost fun h => { h with stopTile := none }).endCommand true
    | .idle => s.modTile t fun x => { x with run := .stopped }
    | .running =>
      if x.trp ∨ x.trapDue.isSome then s
      else s.modTile t fun x => { x with trapDue := some { cls := clsD, low := 0, info := 0, kind := .after, pc := x.pc } }
    | _ => s

/-- The copy of an ARMED root slot takes place in the cycle after an entry is free (R18). -/
def State.rootSweep (s : State) : State :=
  if s.host.rootSt = 1 ∧ !s.freeEntries.isEmpty ∧ !(s.agenda.any fun e => match e.ev with | .event .rootSlotCopy _ => true | _ => false) then
    s.plan (s.now + 1) (ordEngine 0 + 100) .rootSlotCopy EvArg.none
  else s

/-- Tiles whose task failed are free in the cycle after the release of R203. -/
def State.cleaned (s : State) : State :=
  ((List.finRange 32).filter fun t => (s.tileAt t).run == .cleaning && s.releaseEnds t (s.now + 1) 1 false).foldl
    (fun s t => (s.clearL1 t).modTile t fun x => { x with run := .leaving }) s

/-- What the task engine and the host port do once in a cycle. -/
def State.sweep (s : State) : State := s.cleaned.noteReady.enterGang.rootSweep.requestVictims.stopSweep

/-- The event by which a held control operation departs. -/
def OpKind.sendEvent : OpKind → Instr
  | .compl => .completionNoticeSend
  | .unlock => .releaseSend
  | _ => .fenceArrivalSend

/-- The first tile of which `p` holds. -/
def firstTile (p : Tid → Bool) : Option Tid := (List.finRange 32).find? p

/-- The next event that an engine of the basin takes by itself in this cycle. -/
def State.noticed (s : State) : Option (Instr × EvArg) :=
  let a := EvArg.none
  ([fun _ => s.thawDue.map fun t => (.freezeEnd, { a with t := t }),
    fun _ => s.heldReady.map fun o => (o.kind.sendEvent, { a with n := o.seq }),
    fun _ => s.freeReady.map fun w => (.windowEntryFreed, { a with m := w }),
    fun _ => s.nextStart.map fun _ => (.taskStart, a),
    fun _ => s.partLate.map fun i => (.partNotReady, { a with n := match s.task i with | some e => recRjob e.record | none => 0 }),
    fun _ => s.jobDue.map fun j => (.reachJobStart, { a with n := j }),
    fun _ => s.switchReady.map fun i => (.redirectSwitch, { a with n := i }),
    fun _ => (firstTile fun t => (s.tileAt t).yields).map fun t => (.preemption, { a with t := t }),
    fun _ => (firstTile s.drained).map fun t => (.suspensionDrainEnd, { a with t := t })] :
    List (Unit → Option (Instr × EvArg))).findSome? fun f => f ()

/-- Tasks retire when the matrix queue's last event has taken place (R275), and their increments are tile writes of the cycle (R383,
R407). -/
def State.retirements (s : State) : State :=
  ((List.finRange 32).filter s.mayRetire).foldl (fun s t => s.plan s.now (ordWrite t 63) .taskRetire { EvArg.none with t := t }) s

/-! ## The order of a cycle -/

/-- A tile that has something to do: without a task, results to land. -/
def Tile.busy (x : Tile) : Bool := x.task.isSome || x.run != .idle || !x.inflight.isEmpty || !x.mxNow.isEmpty

/-- The first tile from `n` on that has something to do. -/
def State.nextTile (s : State) (n : Nat) : Option Nat := (List.range 32).find? fun t => decide (n ≤ t) && (s.tileAt (tid t)).busy

/-- What a throttled tile does later by the length of its throttle (R27): the accesses of its scratchpad, its engines' copies. -/
def Ev.heldBy (p : Tid → Bool) : Ev → Bool
  | .padRead t .. => p t
  | .padWrite t .. => p t
  | .tagWrite t .. => p t
  | .padAtomic t .. => p t
  | .padInject t .. => p t
  | .mxRow t .. => p t
  | .mxrest t .. => p t
  | .l1Read t .. => p t
  | .gprefWait t _ => p t
  | .l1Write t .. => p t
  | .l2Write t .. => p t
  | .l2Atomic t .. => p t
  | .l2Take t _ => p t
  | .acquireAgain t => p t
  | .copySrc t .. => p t
  | .copyL2Read t .. => p t
  | .copyDst t .. => p t
  | .copyPerform t .. => p t
  | .event .lateRowWrite a => p a.t
  | .event .writeQueueRowWrite a => p a.t
  | .event .delayedSourceRead a => p a.t
  | .event .syncRestart a => (List.finRange 32).any fun t => a.tiles.getLsbD t.val && p t
  | _ => false

/-- The reads and writes that a copy engine has before it move on by one cycle (R27). -/
def CopyEngine.heldOne (g : CopyEngine) (ftime : Word) : CopyEngine :=
  { g with rq := g.rq.map fun r => (r.1, r.2.1, r.2.2 + 1), lasts := g.lasts.map fun l => (l.1, if ftime < l.2 then l.2 + 1 else l.2) }

/-- What throttled tiles hold moves on by one cycle (R27). -/
def State.holdThrottled (s : State) : State :=
  if s.tiles.all (·.throttled.isNone) then s
  else
    let p := fun t => (s.tileAt t).throttled.isSome
    let a := (s.agenda.filter fun e => e.ev.heldBy p).foldl (fun l e => agendaIns (e.later 1) l) (s.agenda.filter fun e => !e.ev.heldBy p)
    { s with
      agenda := a,
      tiles := s.tiles.map fun x => if x.throttled.isSome then
        { x with ce := x.ce.map fun p => (p.1, p.2.heldOne s.ftime),
                 resv := x.resv.map fun r => if s.now < r.1 then (r.1 + 1, r.2) else r, mxBusy := if s.now < x.mxBusy then x.mxBusy + 1 else x.mxBusy }
        else x }

/-- A cycle ends: the core clock advances, and FTIME from the reach's epoch on (R24, R468). -/
def State.endCycle (s : State) : State :=
  let s := s.holdThrottled
  { s with
    now := s.now + 1, memWas := [], ftime := if s.ftOn then s.ftime + 1 else s.ftime, turn := .reads,
    tiles := s.tiles.map fun x =>
      let x := if x.tagNew.isEmpty then x else x.settleTags
      let x := if x.run = .leaving then { x with run := .idle } else x
      if x.resv.isEmpty then x else { x with resv := x.resv.filter fun r => decide (s.now < r.1) } }

/-- The turns after the engines' own events: the fabric's slots, then the copy engines. -/
def State.endPoll (s : State) : Out State :=
  foldOut (fun (s : State) p => exec .fabricSlot { s with arg := { EvArg.none with port := p } }) s.slotPorts
    { s with turn := match s.nextTile 0 with | some t => .copy t false | none => .issue 32 }

/-- A copy engine's turn (R280, R283). -/
def State.copyTurn (s : State) (t : Nat) (e : Bool) : Out State :=
  let s := s.copyAhead (tid t) e 257
  let s := { s with turn := if !e then .copy t true else match s.nextTile (t + 1) with
    | some u => .copy u false
    | none => match s.nextTile 0 with | some u => .cycle u | none => .issue 32 }
  if (s.tileAt (tid t)).copyDue e then exec .copyEmission { s with arg := { EvArg.none with t := tid t, flag := e } } else .next s

/-- A tile's cycle (R413). -/
def State.cycleTurn (s : State) (t : Nat) : Out State :=
  exec .tileCycle { s with
    arg := { EvArg.none with t := tid t },
    turn := match s.nextTile (t + 1) with
      | some u => .cycle u
      | none => match s.nextTile 0 with | some u => .issue u | none => .issue 32 }

/-- A tile that waits at `SYNC` may arrive in the cycle itself (R173), and a drain may end in the cycle of its capture (R448); then handles
are seen as they stand (R332). -/
def State.afterIssue (s : State) (t : Nat) : Out State :=
  let done := fun (s : State) => { s.modTile (tid t) fun x => { x with hseen := x.handles } with
    turn := .issue (match s.nextTile (t + 1) with | some u => u | none => 32) }
  if s.drained (tid t) then
    match exec .suspensionDrainEnd { s with arg := { EvArg.none with t := tid t } } with
    | .next s => .next (done s)
    | o => o
  else if s.mayArrive (tid t) && (s.tileAt (tid t)).throttled.isNone then
    match exec .syncArrival { s with arg := { EvArg.none with t := tid t } } with
    | .next s => .next (done s)
    | o => o
  else .next (done s)

/-- A tile issues. -/
def State.issueTurn (s : State) (t : Nat) : Out State :=
  if 32 ≤ t then .next s.endCycle
  else
    match s.issueTile (tid t) with
    | .next s => s.afterIssue t
    | o => o

/-- One step of the basin: the agent whose turn it is moves. -/
def State.turnStep (s : State) : Out State :=
  match s.turn with
  | .reads =>
    (match s.activationDue, s.chunkDue, dueEntry s.now readOrd s.agenda with
     | some p, _, _ => exec .tableActivation { s with arg := { EvArg.none with port := p } }
     | none, some c, _ => exec .chunkStaging { s with arg := { EvArg.none with coll := c } }
     | none, none, some (ev, a) => ({ s with agenda := a } : State).runEv ev
     | none, none, none => .next { s with turn := .matrixReads })
  | .matrixReads => .next { ((List.finRange 32).foldl State.matrixCycle s).retirements.voidArrivals with turn := .writes }
  | .writes =>
    (match dueEntry s.now (fun o => !readOrd o) s.agenda with
     | some (ev, a) => ({ s with agenda := a } : State).runEv ev
     | none => .next { s.sweep with turn := .poll })
  | .poll =>
    (match s.noticed with
     | some (i, a) => exec i { s with arg := a }
     | none => s.endPoll)
  | .copy t e => s.copyTurn t e
  | .cycle t => s.cycleTurn t
  | .issue t => s.issueTurn t

end Sys2Proof.Machine
end

