-- ==== Sys2Proof/Machine/Fetch.lean ====
section
/-! DEFINITION. An instruction placed where tile 0 fetches its next bundle. -/

namespace Sys2Proof.Machine

/-- A bundle with one slot in use: header version 1, no RPT (Table 5-1, Table 5-2). -/
def bundleWith (k w : Nat) : Nat := 0x1000 + (w % 2 ^ slotWidth k) <<< slotBase k

/-- What a loader leaves in task-table entry 0 (log entry 22): a task at supervisor level that runs on tile 0. -/
def loadedTask : TaskEnt :=
  { st := .running, record := BitVec.ofNat 1536 (1 + 2 ^ 18), order := 0, place := 0, pri := 0, renamed := [], since := false, bypass := 0, pdom := 0,
    tile := some 0, leader := 0, member := 0, nmem := 1, startAt := none, effect := false, spent := false, fails := 0, gen := 0, cask := none, gcask := none,
    pre := false, root := false, shadows := [] }

/-- A tile that issues the bundle `b` next, at address 0: it runs entry 0 at supervisor level in free mode, and nothing holds it. -/
def Tile.load (x : Tile) (b : Nat) : Tile :=
  { x.setSreg srSTATUS 6 with
    task := some 0, run := .running, frozen := none, throttled := none, fq := [0, 64, 128], branch := none, rpt := 0, yc := 0, inflight := [],
    susp := none, fbuf := x.fbuf.set none 0 (some (Reg.fresh 32 b)) }

/-- The state in which tile 0 issues a bundle now. -/
def State.load (s : State) (b : Nat) : State :=
  { (s.modTile 0 fun x => x.load b).setTask 0 (some loadedTask) with turn := .issue 0, cur := 0, bootStep := 5 }

end Sys2Proof.Machine
end

