-- ==== Sys2Proof/Machine/Step.lean ====
section
/-! DEFINITION. One step of the basin, and a state that runs a given instruction next. -/

namespace Sys2Proof.Machine

/-- One step: the agent whose turn it is moves (R38). -/
def step (s : State) : Host.Outcome State Fault Refusal := s.turnStep

/-- `s` with an instruction, numbered as the opcode table numbers its bits, in the bundle that tile 0 issues next. -/
def State.withFetchWord (s : State) (nbits w : Nat) : State :=
  match slotOfWidth nbits with
  | some k => s.load (bundleWith k w)
  | none => s

end Sys2Proof.Machine
end

