-- ==== Sys2Proof/Safety.lean ====
section
/-! DEFINITION. What claims speak of: the canonical form of memory, the invariant of a state, a safe run, good operands, and the
condition under which an instruction acts. -/

namespace Sys2Proof.Machine

/-- The canonical form of a memory: bytes by strictly rising address, none equal to what an unlisted byte reads as, and the same for
the rinds. -/
abbrev Memory.wf (m : Store) : Prop := m.Wf

/-- Basin memory, every scratchpad and every shadow tile's store are in canonical form. -/
def State.MemOk (s : State) : Prop :=
  Memory.wf s.mem ∧ (∀ t : Tid, Memory.wf (s.tileAt t).pad) ∧
  ∀ e ∈ s.taskList, ∀ h ∈ e.2.shadows, Memory.wf h.store

/-- `k` turns run without a stop: a safe run never faults and never refuses. -/
def State.Safe (s : State) (k : Nat) : Prop := ∃ t, Host.Core.run Sys2Proof.core k s = .next t

/-! ## Operands -/

/-- Every granule of a value is good (R64). -/
abbrev Clean {n : Nat} (v : Reg n) : Prop := ∀ j, j < n → (v.gran j).bad = false

/-- A scalar register whose granule is good; s0 always is (R143). -/
abbrev Tile.GoodS (x : Tile) (n : BitVec 6) : Prop := Clean (x.scalar n.toNat)

/-- A predicate register whose granules are good. -/
abbrev Tile.GoodP (x : Tile) (n : Nat) : Prop := Clean (x.pred n)

/-- A V-slot operand (Table 5-11) whose granules are good: a register or a latch below 324, else a scalar from 328. -/
abbrev Tile.GoodV (x : Tile) (n : BitVec 9) : Prop :=
  if n.toNat < 324 then Clean (x.vreg n.toNat) else Clean (x.scalar (n.toNat - 328))

/-- A scalar register's 64 bits. -/
def Tile.word (x : Tile) (n : BitVec 6) : Word := BitVec.ofNat 64 (x.sv n.toNat)

/-! ## Conditions (R124) -/

/-- The condition of an instruction that has one: bit 0 of its predicate, inverted by its `neg` field; of `BRP`, any bit of the
predicate after inversion (R166). A vector instruction has a condition for each element, and a matrix command has none. -/
def Tile.condOf (x : Tile) (i : Instr) : Option Bool :=
  match i with
  | .add f | .sub f | .mul f | .mulhi f | .mulhn f | .divi f | .divn f | .remi f | .remn f | .and f | .or f | .xor f | .andn f
  | .shl f | .shr f | .sra f | .rol f | .mini f | .maxi f | .minn f | .maxn f | .adds f | .subs f | .bfx f | .bfi f
  | .addImmediate f | .subImmediate f | .mulImmediate f | .mulhiImmediate f | .mulhnImmediate f | .diviImmediate f
  | .divnImmediate f | .remiImmediate f | .remnImmediate f | .andImmediate f | .orImmediate f | .xorImmediate f
  | .andnImmediate f | .shlImmediate f | .shrImmediate f | .sraImmediate f | .rolImmediate f | .miniImmediate f
  | .maxiImmediate f | .minnImmediate f | .maxnImmediate f | .addsImmediate f | .subsImmediate f | .bfxImmediate f
  | .bfiImmediate f | .movi f | .movhi f | .clz f | .ctz f | .popc f | .brev f | .sext f | .pand f | .por f | .pxor f | .pandn f
  | .pnot f | .pcnt f | .pfirst f | .plast f | .pfrom f | .plen f | .ptos f | .mfsr f | .mtsr f | .rinj f =>
    some (x.cond f.pq.toNat f.neg)
  | .lds f | .gld f | .pld f | .ppop f | .ldtag f | .gpref f => some (x.cond f.pred.toNat f.n)
  | .sts f | .gst f | .pst f | .aadd f | .aaddf f | .amin f | .amax f | .aand f | .aor f | .axor f | .aswp f | .acas f | .ppush f
  | .peos f | .sttag f | .gflush f => some (x.cond f.pred.toNat false)
  | .cloop f | .cbase f | .cgo f | .cstop f | .cquery f | .tbind f | .tunbind f | .tflush f | .wcreate f | .wfree f | .wfence f
  | .wpost f | .wstart f | .wcompl f | .wdone f | .wlock f | .wunlock f | .wput f | .wget f | .wacc f | .wamo f | .wflush f
  | .wtest f | .hinit f | .htest f | .hread f | .coll f | .cinc f | .cread f | .cset f | .tspawn f | .pbind f | .teffect f
  | .caskdup f | .caskdisc f | .caskq f => some (x.cond f.pred.toNat f.neg)
  | .br f | .brs f | .jr f | .call f | .callr f | .ret f | .loop f | .loopi f | .sync f | .waitc f | .waith f | .fence f | .yield f
  | .susp f | .suspg f | .rsm f | .trap f | .eret f | .halt f | .bkpt f => some (x.cond f.pred.toNat f.neg)
  | .brp f =>
    let p := (x.pred f.pred.toNat).d.toNat
    some (if f.neg then p != 2 ^ 256 - 1 else p != 0)
  | _ => none

/-! ## Modes (R127, R421, R426, R447, R450) -/

/-- The mode and the state of the tile admit the instruction: supervisor level for a privileged one (R127), a handler or none for
those that need it. -/
def State.admits (s : State) (i : Instr) : Bool :=
  let x := s.tile
  match i with
  | .mfsr f => x.sv? || !Check.sregReadSup (Check.sregNum f)
  | .mtsr f => x.sv? || !Check.sregWriteSup (Check.sregNum f)
  | .rinj _ | .wcreate _ => x.sv?
  | .teffect f => x.sv? || Check.modeX f != 2
  | .eret _ => x.sv? && x.trp
  | .mxsave _ | .mxrest _ => x.sv? && x.trp
  | .mldb _ | .mldbt _ | .mma _ | .mmaz _ | .mmac _ | .mzero _ | .mzset _ | .mrowsum _ | .mzpc _ | .mdrain _ | .mzld _ => !x.trp
  | .susp f => x.trp == bit (Check.YF.x f) 1 && (!x.trp || x.mq.isEmpty || x.mxAt.isSome)
  | .suspg _ => !gangBound (s.gangHere s.cur)
  | _ => true

end Sys2Proof.Machine

namespace Sys2Proof

/-- The instructions that only the supervisor may issue, whatever their operands (R127). -/
def Instr.privileged (i : Instr) : Bool :=
  match i with
  | .mfsr f => Check.sregReadSup (Check.sregNum f)
  | .mtsr f => Check.sregWriteSup (Check.sregNum f)
  | .teffect f => Check.modeX f == 2
  | .rinj _ | .wcreate _ | .eret _ | .mxsave _ | .mxrest _ => true
  | _ => false

end Sys2Proof

namespace Sys2Proof.Claims

/-! ## Functions of the scalar slot, on 64-bit words (R155 to R161) -/

open Sys2Proof.Machine

/-- A word's `n` low ones. -/
def lowOnes (n : Nat) : Word := ((1 : Word) <<< n) - 1

/-- The signed 128-bit product's high half. -/
def mulHiS (a b : Word) : Word := ((a.signExtend 128 * b.signExtend 128) >>> 64).truncate 64

/-- The unsigned 128-bit product's high half. -/
def mulHiU (a b : Word) : Word := ((a.zeroExtend 128 * b.zeroExtend 128) >>> 64).truncate 64

/-- Quotient toward zero; all ones for a zero divisor (R157). -/
def quotS (a b : Word) : Word := if b = 0 then BitVec.allOnes 64 else a.sdiv b

def quotU (a b : Word) : Word := if b = 0 then BitVec.allOnes 64 else a / b

/-- Remainder with the sign of the dividend; the dividend for a zero divisor (R157). -/
def remS (a b : Word) : Word := if b = 0 then a else a.srem b

def remU (a b : Word) : Word := if b = 0 then a else a % b

/-- A 65-bit signed value cut to the 64-bit range. -/
def clip (x : BitVec 65) : Word :=
  if x.slt (BitVec.signExtend 65 (BitVec.intMin 64)) then BitVec.intMin 64
  else if (BitVec.signExtend 65 (BitVec.intMax 64)).slt x then BitVec.intMax 64
  else x.truncate 64

def addSat (a b : Word) : Word := clip (a.signExtend 65 + b.signExtend 65)

def subSat (a b : Word) : Word := clip (a.signExtend 65 - b.signExtend 65)

/-- Position in b bits 5:0, length in b bits 12:6, the field ends at bit 63 (R158). -/
def fieldPos (b : Word) : Nat := (b.extractLsb' 0 6).toNat

def fieldLen (b : Word) : Nat := min (b.extractLsb' 6 7).toNat (64 - fieldPos b)

def fieldOf (a b : Word) : Word := (a >>> fieldPos b) &&& lowOnes (fieldLen b)

/-- d with a field replaced by the low bits of a (R158). -/
def fieldInto (d a b : Word) : Word :=
  let m := lowOnes (fieldLen b) <<< fieldPos b
  (d &&& ~~~m) ||| ((a <<< fieldPos b) &&& m)

/-- A condition code (Table 5-4). -/
def holds (cc : BitVec 5) (a b : Word) : Bool :=
  match cc.toNat with
  | 0 => a == b
  | 1 => a != b
  | 2 => a.slt b
  | 3 => a.sle b
  | 4 => b.slt a
  | 5 => b.sle a
  | 6 => a.ult b
  | 7 => a.ule b
  | 8 => b.ult a
  | _ => b.ule a

/-- The two-source scalar operations that share a register and an immediate form, with their latency (Table 6-5). -/
def scalarOps : List ((SF → Instr) × (SF → Instr) × Nat × (Word → Word → Word)) :=
  [(.add, .addImmediate, 1, fun a b => a + b),
   (.sub, .subImmediate, 1, fun a b => a - b),
   (.mul, .mulImmediate, 3, fun a b => a * b),
   (.mulhi, .mulhiImmediate, 3, mulHiS),
   (.mulhn, .mulhnImmediate, 3, mulHiU),
   (.and, .andImmediate, 1, fun a b => a &&& b),
   (.or, .orImmediate, 1, fun a b => a ||| b),
   (.xor, .xorImmediate, 1, fun a b => a ^^^ b),
   (.andn, .andnImmediate, 1, fun a b => a &&& ~~~b),
   (.shl, .shlImmediate, 1, fun a b => a <<< b),
   (.shr, .shrImmediate, 1, fun a b => a >>> b),
   (.sra, .sraImmediate, 1, fun a b => a.sshiftRight b.toNat),
   (.rol, .rolImmediate, 1, fun a b => a.rotateLeft (b.toNat % 64)),
   (.mini, .miniImmediate, 1, fun a b => if a.slt b then a else b),
   (.maxi, .maxiImmediate, 1, fun a b => if a.slt b then b else a),
   (.minn, .minnImmediate, 1, fun a b => if a.ult b then a else b),
   (.maxn, .maxnImmediate, 1, fun a b => if a.ult b then b else a),
   (.adds, .addsImmediate, 1, addSat),
   (.subs, .subsImmediate, 1, subSat),
   (.bfx, .bfxImmediate, 1, fieldOf)]

/-- The divisions (R157). -/
def divisions : List ((SF → Instr) × (SF → Instr) × (Word → Word → Word)) :=
  [(.divi, .diviImmediate, quotS), (.divn, .divnImmediate, quotU), (.remi, .remiImmediate, remS), (.remn, .remnImmediate, remU)]

/-- The one-source scalar operations (Table 6-6); the index says which bits are looked at. -/
def scalarUnary : List ((SF → Instr) × (BitVec 6 → Word → Word)) :=
  [(.clz, fun _ a => a.clz), (.ctz, fun _ a => a.ctz), (.popc, fun _ a => a.cpop), (.brev, fun _ a => a.reverse),
   (.sext, fun k a => (a <<< (63 - k.toNat)).sshiftRight (63 - k.toNat))]

/-- The predicate operations of two predicates (Table 6-7). -/
def predOps : List ((SF → Instr) × (BitVec 256 → BitVec 256 → BitVec 256)) :=
  [(.pand, fun a b => a &&& b), (.por, fun a b => a ||| b), (.pxor, fun a b => a ^^^ b), (.pandn, fun a b => a &&& ~~~b)]

/-- A predicate register's 256 bits. -/
def pbits (x : Tile) (n : BitVec 6) : BitVec 256 := BitVec.ofNat 256 (x.pred n.toNat).d.toNat

/-- The sign-extended immediate (R112). -/
def imm (f : SF) : Word := f.imm32.signExtend 64

/-- The state with one scalar result in flight, and the note that the slot has acted: nothing else has changed. -/
def lands (s : State) (lat : Nat) (d : BitVec 6) (v : Word) : State := (s.land 0 lat [.scalar d (scalarOf v.toNat)]).note .acted

/-- A division by zero: the result also sets FPCTL.IDZF when it lands, and class A comes in its place where FPCTL.IDZE is 1 (R157). -/
def divZero (s : State) (d : BitVec 6) (v : Word) : State :=
  (s.landFlags 0 18 [.scalar d (scalarOf v.toNat)] (1 <<< 37) 0
    (if (s.tile.sreg srFPCTL).getLsbD 36 then some { cls := clsA, low := 6, info := 3 <<< 18, kind := .after, pc := s.tile.pc } else none)).note
    .acted

/-- The state with one predicate result in flight (R161). -/
def landsP (s : State) (d : BitVec 6) (v : BitVec 256) : State :=
  (s.land 0 1 [.pred (d.truncate 5) (Reg.fresh 4 v.toNat) (BitVec.allOnes 256)]).note .acted

/-- The scalar operations that read a scalar register as their first source: Table 6-5 in both forms but BFI, and Table 6-6. -/
def scalarSourced (f : SF) : List Instr :=
  scalarOps.flatMap (fun e => [e.1 f, e.2.1 f]) ++ divisions.flatMap (fun e => [e.1 f, e.2.1 f]) ++ scalarUnary.map fun e => e.1 f

/-- The predicate instructions that read a predicate as their first source (Table 6-7). -/
def predSourced (f : SF) : List Instr := predOps.map (fun e => e.1 f) ++ [.pnot f, .pcnt f, .pfirst f, .plast f, .ptos f]

/-- Class I of an S-slot instruction whose operand `opnd` has the bad granule `g`, of index `j` (R67, R71): no slot acts. -/
def badSource (s : State) (opnd j : Nat) (g : Gran) : State :=
  s.raise (rankI 0, s.tile.issueTrap clsI (badLow g) (badInfo 0 opnd 0 j g))

/-! ## The vector slots, element by element (R214 to R247) -/

open Sys2Proof.Check

/-- The element width of a vector instruction's type. -/
abbrev vw (f : VF) : Nat := tyWidth f.type.toNat

/-- Element `i` of a source operand read with elements of `w` bits (Table 5-11). -/
def el (x : Tile) (n : BitVec 9) (w i : Nat) : Nat := (x.vElems n.toNat w).getD i 0

/-- Element `i` of width `w` is active (R124). -/
def active (x : Tile) (f : VF) (w i : Nat) : Bool := bit (x.pred f.pred.toNat).d.toNat (i * w / 8) != f.n

/-- What a masked result writes to each element: the value where active, 0 where inactive with Z, nothing else (R214). -/
def masked (x : Tile) (f : VF) (w : Nat) (g : Nat → Nat) : List (Option Nat) :=
  (List.range (2048 / w)).map fun i => if active x f w i then some (g i) else if f.z then some 0 else none

/-- A vector result of element width `w` in flight with its flags, and nothing else changed. -/
def vLands (s : State) (f : VF) (w lat t : Nat) (g : Nat → Res) : State :=
  (s.vLandF f lat t (vWrite f w (masked s.tile f w fun i => (g i).1))
    ((List.range (2048 / w)).map fun i => if active s.tile f w i then (g i).2 else 0)).note .acted

/-- The same without flags. -/
def vLandsI (s : State) (f : VF) (w lat : Nat) (g : Nat → Nat) : State := vLands s f w lat f.type.toNat fun i => (g i, 0)

/-- What a result writes where `g` gives only some elements (R216, R231): those as in `masked`; the others are kept. -/
def maskedPart (x : Tile) (f : VF) (w : Nat) (g : Nat → Option Res) : List (Option Nat) :=
  (List.range (2048 / w)).map fun i => (g i).bind fun r => if active x f w i then some r.1 else if f.z then some 0 else none

/-- The flags of the elements that are active and that `g` gives, in element order. -/
def flagsPart (x : Tile) (f : VF) (w : Nat) (g : Nat → Option Res) : List Nat :=
  (List.range (2048 / w)).map fun i => match g i with
    | some r => if active x f w i then r.2 else 0
    | none => 0

/-- A vector result of some elements in flight with its flags, and nothing else changed. -/
def vLandsPart (s : State) (f : VF) (w lat t : Nat) (g : Nat → Option Res) : State :=
  (s.vLandF f lat t (vWrite f w (maskedPart s.tile f w g)) (flagsPart s.tile f w g)).note .acted

/-- The value of element `a` of type `t`, exact. -/
abbrev iv (f : VF) (a : Nat) : Int := ival f.type.toNat a

/-- An exact integer result, wrapped to the element. -/
def wraps (f : VF) (x : Int) : Nat := wrapI (vw f) x

/-- An exact integer result, saturated. -/
def sats (f : VF) (x : Int) : Nat := wrapI (vw f) (max (iLow f.type.toNat) (min x (iHigh f.type.toNat)))

/-- A float form where the type is a float type, else an integer form. -/
def byType (f : VF) (gf : Res) (gi : Nat) : Res := if tyF f.type.toNat then gf else (gi, 0)

/-- 4 for a float type, 2 for an integer type (Table 8-2). -/
def latT (f : VF) : Nat := if tyF f.type.toNat then 4 else 2

/-- The two-source element operations: constructor, latency, and the result of elements a and b under FPCTL `c` (R220, R221, R223,
R224, R247). -/
def vTwo : List ((VF → Instr) × (VF → Nat) × (Nat → VF → Nat → Nat → Res)) :=
  [(.vadd, latT, fun c f a b => byType f (fAdd c f.type.toNat f.rnd.toNat a b) (wraps f (iv f a + iv f b))),
   (.vsub, latT, fun c f a b => byType f (fSub c f.type.toNat f.rnd.toNat a b) (wraps f (iv f a - iv f b))),
   (.vmul, latT, fun c f a b => byType f (fMul c f.type.toNat f.rnd.toNat a b) (wraps f (iv f a * iv f b))),
   (.vabd, latT, fun c f a b => byType f (fAbd c f.type.toNat f.rnd.toNat a b) (wraps f |iv f a - iv f b|)),
   (.vmin, fun _ => 2, fun c f a b => byType f (fMinMax false false c f.type.toNat a b) (wraps f (min (iv f a) (iv f b)))),
   (.vmax, fun _ => 2, fun c f a b => byType f (fMinMax true false c f.type.toNat a b) (wraps f (max (iv f a) (iv f b)))),
   (.vminn, fun _ => 2, fun c f a b => byType f (fMinMax false true c f.type.toNat a b) (wraps f (min (iv f a) (iv f b)))),
   (.vmaxn, fun _ => 2, fun c f a b => byType f (fMinMax true true c f.type.toNat a b) (wraps f (max (iv f a) (iv f b)))),
   (.vadds, fun _ => 2, fun _ f a b => (sats f (iv f a + iv f b), 0)),
   (.vsubs, fun _ => 2, fun _ f a b => (sats f (iv f a - iv f b), 0)),
   (.vmulh, fun _ => 2, fun _ f a b => (wraps f (iv f a * iv f b / 2 ^ vw f), 0)),
   (.vavg, fun _ => 2, fun _ f a b => (wraps f ((iv f a + iv f b + 1) / 2), 0)),
   (.vand, fun _ => 2, fun _ _ a b => (a &&& b, 0)),
   (.vor, fun _ => 2, fun _ _ a b => (a ||| b, 0)),
   (.vxor, fun _ => 2, fun _ _ a b => (a ^^^ b, 0)),
   (.vandn, fun _ => 2, fun _ f a b => (a &&& (2 ^ vw f - 1 - b), 0)),
   (.vshl, fun _ => 2, fun _ f a b => (a * 2 ^ (b % 256) % 2 ^ vw f, 0)),
   (.vshr, fun _ => 2, fun _ _ a b => (a / 2 ^ (b % 256), 0)),
   (.vsra, fun _ => 2, fun _ f a b => (wraps f (Sys2Proof.sext (vw f) a / 2 ^ (b % 256)), 0)),
   (.vrol, fun _ => 2, fun _ f a b =>
     (a * 2 ^ (b % 256 % vw f) % 2 ^ vw f + a / 2 ^ (vw f - b % 256 % vw f), 0)),
   (.vdiv, fun _ => 12, fun c f a b => fDiv c f.type.toNat f.rnd.toNat a b)]

/-- The one-source element operations (R220, R223, R225, R247). -/
def vOne : List ((VF → Instr) × Nat × (Nat → VF → Nat → Res)) :=
  [(.vabs, 2, fun c f a => byType f (fAbs c f.type.toNat a) (if f.sat then sats f |iv f a| else wraps f |iv f a|)),
   (.vneg, 2, fun c f a => byType f (fNeg c f.type.toNat a) (if f.sat then sats f (-(iv f a)) else wraps f (-(iv f a)))),
   (.vnot, 2, fun _ f a => (2 ^ vw f - 1 - a, 0)),
   (.vpopc, 2, fun _ f a => ((List.range (vw f)).countP fun i => a.testBit i, 0)),
   (.vclz, 2, fun _ f a => (vw f - Nat.size a, 0)),
   (.vrcp, 12, fun c f a => sfuRes .rcp c f.type.toNat f.rnd.toNat a),
   (.vrsq, 12, fun c f a => sfuRes .rsq c f.type.toNat f.rnd.toNat a),
   (.vsqrt, 12, fun c f a => fSqrt c f.type.toNat f.rnd.toNat a),
   (.vexp2, 12, fun c f a => sfuRes .exp2 c f.type.toNat f.rnd.toNat a),
   (.vlog2, 12, fun c f a => sfuRes .log2 c f.type.toNat f.rnd.toNat a),
   (.vexp, 12, fun c f a => sfuRes .exp c f.type.toNat f.rnd.toNat a),
   (.vtanh, 12, fun c f a => sfuRes .tanh c f.type.toNat f.rnd.toNat a),
   (.vsigm, 12, fun c f a => sfuRes .sigm c f.type.toNat f.rnd.toNat a),
   (.vsint, 12, fun c f a => sfuRes .sint c f.type.toNat f.rnd.toNat a),
   (.vcost, 12, fun c f a => sfuRes .cost c f.type.toNat f.rnd.toNat a)]

/-- The three-source element operations (R220, R221). -/
def vThree : List ((VF → Instr) × (VF → Nat) × (Nat → VF → Nat → Nat → Nat → Res)) :=
  [(.vfma, fun _ => 4, fun c f a b d => fFma false false c f.type.toNat f.rnd.toNat a b d),
   (.vfms, fun _ => 4, fun c f a b d => fFma false true c f.type.toNat f.rnd.toNat a b d),
   (.vfnma, fun _ => 4, fun c f a b d => fFma true false c f.type.toNat f.rnd.toNat a b d),
   (.vclamp, fun _ => 2, fun c f a b d => byType f (fClamp c f.type.toNat a b d) (wraps f (min (max (iv f a) (iv f b)) (iv f d))))]

/-- An integer comparison by its code (R226). -/
def vHolds (c : Nat) (a b : Int) : Bool :=
  match c with
  | 0 => a == b
  | 1 => a != b
  | 2 => decide (a < b)
  | 3 => decide (a ≤ b)
  | 4 => decide (b < a)
  | _ => decide (b ≤ a)

/-- A predicate result of elements: each active element's bits take `g`, inactive ones 0 with Z (R226). -/
def vPredOf (x : Tile) (f : VF) (g : Nat → Bool) : List RWrite :=
  vPred f ((List.range (2048 / vw f)).map (active x f (vw f))) ((List.range (2048 / vw f)).map g)

/-- Byte `j` of 32-bit element `i` of an 8-bit source; a scalar gives its low byte everywhere (R123, R222). -/
def byteEl (x : Tile) (n : BitVec 9) (i j : Nat) : Nat := el x n 8 (4 * i + j)

/-! ## Conversions and quantising (R231, R233) -/

/-- The source type of a conversion, its part, and its group size. -/
abbrev srcT (f : VF) : Nat := f.imm16.toNat % 32
abbrev part (f : VF) : Nat := f.imm16.toNat / 32 % 8
abbrev groupOf (f : VF) : Nat := 16 * 2 ^ (f.imm16.toNat / 256 % 4)

/-- Destination element `k` of `VCVT`: narrowing fills part p of d, widening reads part p of a (R231). -/
def cvtEl (s : State) (f : VF) (k : Nat) : Option Res :=
  let ws := tyWidth (srcT f)
  let n := 2048 / max ws (vw f)
  let conv := fun i => cvt (s.tile.sreg srFPCTL).toNat (srcT f) f.type.toNat f.rnd.toNat f.sat (el s.tile f.a ws i)
  if vw f ≤ ws then (if part f * n ≤ k ∧ k < part f * n + n then some (conv (k - part f * n)) else none)
  else some (conv (part f * n + k))

/-- What quantising source element `i` of `VQNT` gives, against the record of its code's group (R98, R233). -/
def qntOf (s : State) (f : VF) (i : Nat) : Qnt :=
  let n := 2048 / tyWidth (srcT f)
  quantise (s.tile.sreg srFPCTL).toNat (srcT f) f.type.toNat f.rnd.toNat (el s.tile f.b 32 ((part f * n + i) / groupOf f))
    (el s.tile f.a (tyWidth (srcT f)) i)

/-- Source element `i` of `VQNT` is active and out of range: the outliers are these, by ascending `i`. -/
def outlier (s : State) (f : VF) (i : Nat) : Bool :=
  active s.tile f (vw f) (part f * (2048 / tyWidth (srcT f)) + i) && (match qntOf s f i with | .out .. => true | _ => false)

def outliers (s : State) (f : VF) : List Nat := (List.range (2048 / tyWidth (srcT f))).filter (outlier s f)

/-- Code `k` of `VQNT`: the code in range; zp with IV for a scale that is zero, infinite or a NaN; in saturate mode SAT's code with IV; in outlier
mode zp for the first `cap` outliers and SAT's code for the others, with IV for a signalling NaN alone (R233). -/
def qntEl (s : State) (f : VF) (cap : Nat) (k : Nat) : Option Res :=
  let n := 2048 / tyWidth (srcT f)
  let i := k - part f * n
  let zp := grpZp f.type.toNat (el s.tile f.b 32 (k / groupOf f))
  if part f * n ≤ k ∧ k < part f * n + n then
    some (match qntOf s f i with
      | .code q fl => (q, fl)
      | .badScale q => (q, flIV)
      | .out q nan sn =>
        if f.sub.getLsbD 0 then
          (if ((List.range i).filter (outlier s f)).length < cap ∨ nan = true then zp else q, if sn then flIV else 0)
        else (q, flIV))
  else none

/-- The list entries of the outliers that find room: index base + k, and the value as FP32 (R99). -/
def qntEntries (s : State) (f : VF) (cap base : Nat) : List Nat :=
  ((outliers s f).take cap).map fun i => (base + (part f * (2048 / tyWidth (srcT f)) + i)) % 2 ^ 32 +
    asF32 (srcT f) (el s.tile f.a (tyWidth (srcT f)) i) * 2 ^ 32

/-- The codes of `VQNT` and further writes in flight, with their flags in the source format's group, STATUS bits, and class A where an
enabled flag is among them. -/
def vQuants (s s' : State) (f : VF) (cap : Nat) (more : List RWrite) (st : Word) : State :=
  let c := classA s.tile (vSlotOf f).val (srcT f) (flagsPart s.tile f (vw f) (qntEl s f cap))
  s'.landFlags (vSlotOf f) 3 (vWrite f (vw f) (maskedPart s.tile f (vw f) (qntEl s f cap)) ++ more) (fpFlags (srcT f) c.1) st c.2

/-- An enabled flag is among those of the codes: class A is raised, and nothing is written (R234). -/
def qntTraps (s : State) (f : VF) (cap : Nat) : Bool :=
  (classA s.tile (vSlotOf f).val (srcT f) (flagsPart s.tile f (vw f) (qntEl s f cap))).2.isSome

/-- The bank rows of the first min(cap, active elements) entry slots from `addr` (R234). -/
def qntRows (s : State) (f : VF) (addr cap : Nat) : List Nat :=
  let n := 2048 / tyWidth (srcT f)
  let slots := min cap ((List.range n).filter fun i => active s.tile f (vw f) (part f * n + i)).length
  if slots = 0 then [] else (List.range ((addr + 8 * slots - 1) / 256 - addr / 256 + 1)).map (· + addr / 256)

/-! ## Reductions and scans (R100 to R103, R238 to R241) -/

/-- The operator that sub selects, under FPCTL and the instruction's mode (R238). -/
abbrev opOf (s : State) (f : VF) : Nat → Nat → Res := redOp (s.tile.sreg srFPCTL).toNat f.type.toNat f.rnd.toNat f.sub.toNat f.sat

/-- Node `i` of level `n` of the pairwise tree of R100: its value, none while no leaf below it is active, and the flags of the
applications below it. -/
def treeNode (op : Nat → Nat → Res) (leaf : Nat → Option Nat) : Nat → Nat → Option Nat × Nat
  | 0, i => (leaf i, 0)
  | n + 1, i =>
    let a := treeNode op leaf n (2 * i)
    let b := treeNode op leaf n (2 * i + 1)
    match a.1, b.1 with
    | some x, some y => (some (op x y).1, (op x y).2 ||| a.2 ||| b.2)
    | some x, none => (some x, a.2 ||| b.2)
    | none, y => (y, a.2 ||| b.2)

/-- The leaves of a reduction: the active elements of a. -/
def leafOf (s : State) (f : VF) (i : Nat) : Option Nat := if active s.tile f (vw f) i then some (el s.tile f.a (vw f) i) else none

/-- One step of the schedule of R101 at distance `d`, at the lanes of `hit`; the flags of an application are attributed to the lane that it
writes. -/
def sweep {α : Type} (op : α → α → α × Nat) (d : Nat) (hit : Nat → Bool) (t : Nat → Option α × Nat) (k : Nat) : Option α × Nat :=
  if hit k then
    match (t (k - d)).1, (t k).1 with
    | some x, some y => (some (op x y).1, (t k).2 ||| (op x y).2)
    | some x, none => (some x, (t k).2)
    | none, y => (y, (t k).2)
  else t k

/-- Up-sweep levels 0 to `d` - 1. -/
def upRow {α : Type} (op : α → α → α × Nat) : Nat → (Nat → Option α × Nat) → Nat → Option α × Nat
  | 0, t => t
  | d + 1, t => sweep op (2 ^ d) (fun k => k % 2 ^ (d + 1) == 2 ^ (d + 1) - 1) (upRow op d t)

/-- Down-sweep levels `d` - 1 to 0. -/
def downRow {α : Type} (op : α → α → α × Nat) : Nat → (Nat → Option α × Nat) → Nat → Option α × Nat
  | 0, t => t
  | d + 1, t => downRow op d (sweep op (2 ^ d) (fun k => decide (3 * 2 ^ d - 1 ≤ k) && (k - (3 * 2 ^ d - 1)) % 2 ^ (d + 1) == 0) t)

/-- The schedule of R101 over 2 ^ l lanes with a carry-in: lane `k` and its flags. -/
def scanRow {α : Type} (op : α → α → α × Nat) (l : Nat) (carry : Option α) (t : Nat → Option α) (k : Nat) : Option α × Nat :=
  let r := downRow op (l - 1) (upRow op l fun i => (t i, 0))
  match carry, (r k).1 with
  | some c, some y => (some (op c y).1, (r k).2 ||| (op c y).2)
  | some c, none => (some c, (r k).2)
  | none, _ => r k

/-- The carry-in of a scan: the last element of c, where imm16 bit 0 asks for it (R240). -/
def carryIn (s : State) (f : VF) : Option Nat := if f.imm16.getLsbD 0 then some (el s.tile f.c (vw f) (2048 / vw f - 1)) else none

/-- The logarithm of the lane count. -/
abbrev laneLog (f : VF) : Nat := Nat.log2 (2048 / vw f)

/-- The result of a scan: lane values written to the active elements, and the flags of every lane where `flagged`. -/
def vScans (s : State) (f : VF) (lat : Nat) (flagged : Bool) (g : Nat → Nat × Nat) : State :=
  (s.vLandF f lat f.type.toNat (vWrite f (vw f) (masked s.tile f (vw f) fun k => (g k).1))
    ((List.range (2048 / vw f)).map fun k => if flagged then (g k).2 else 0)).note .acted

/-! ## Accumulator rows (R243 to R245) -/

/-- The row that imm16 names, and its 32-bit elements. -/
abbrev rowNo (f : VF) : Nat := f.imm16.toNat % 8 * 128 + f.imm16.toNat / 8 % 128
abbrev accEl (s : State) (f : VF) (i : Nat) : Nat := bits (s.tile.acc (rowNo f)).d.toNat (32 * i) 32

/-- A granule of two 32-bit elements as a carrier writes it: whole, or with the inactive ones zeroed under Z (R216). -/
def copyGran (lo hi z : Bool) (g : Gran) : Gran :=
  if z && !(lo && hi) then
    Gran.fresh (BitVec.ofNat 64 ((if lo then g.d.toNat % 2 ^ 32 else 0) + if hi then g.d.toNat / 2 ^ 32 * 2 ^ 32 else 0))
  else g

/-- Granule `j` of a 32-bit source operand; a scalar is broadcast with fresh rinds (R123). -/
def srcGran (s : State) (f : VF) (j : Nat) : Gran :=
  if f.a.toNat < 324 then (s.tile.vreg f.a.toNat).gran j
  else Gran.fresh (BitVec.ofNat 64 (el s.tile f.a 32 (2 * j) + el s.tile f.a 32 (2 * j + 1) * 2 ^ 32))

/-! ## Scratchpad loads and stores (R177 to R200) -/

/-- A scratchpad access as its rules give it: the condition, the latency, the rows of a bank that need no delay (R187), the alignment of an
element in bytes, whether all elements lie in one row, whether tags are checked, whether the bank formats admit it, and what it
reads. -/
structure LoadForm where
  f : LF
  cond : Bool
  lat : Nat
  lim : Nat
  align : Nat
  oneRow : Bool
  tagged : Bool
  legal : Bool
  load : PadLoad

/-- The scratchpad loads (R193 to R195). -/
def loadForm (x : Tile) (i : Instr) : Option LoadForm :=
  let fmt := fun (f : LF) => x.bfmt (bankOf (x.lAddr f) % 64)
  let run := fun (f : LF) (step : Bool) =>
    let w := tyWidth (bfType (fmt f))
    { f := f, cond := true, lat := 6, lim := 1, align := max 1 (w / 8), oneRow := true, tagged := f.tagchk,
      legal := decodeOf (fmt f) f.type.toNat != .none,
      load := { kind := 0, type := f.type.toNat, st := bfType (fmt f), grp := bfGroup (fmt f) != 0,
                els := liveEls (x.lActive f) fun i =>
                  if step then elAt (fmt f) i ((x.lAddr f + i * w / 8) % 2 ^ 64) (w == 4 && i % 2 == 1) else elAt (fmt f) i (x.lAddr f) false,
                act := actMask (x.lActive f), z := f.z } : LoadForm }
  let many := fun (f : LF) (lat lim : Nat) (tagged : Bool) (a : Nat → Nat × Bool) =>
    let els := liveEls (x.lActive f) fun i => { i := i, addr := (a i).1, hi := (a i).2, recAt := 0 }
    { f := f, cond := true, lat := lat, lim := lim, align := max 1 (tyWidth f.type.toNat / 8), oneRow := false, tagged := tagged,
      legal := els.all fun e => tyWidth (bfType (x.bfmt (bankOf e.addr))) == tyWidth f.type.toNat,
      load := { kind := 0, type := f.type.toNat, st := f.type.toNat, grp := false, els := els, act := actMask (x.lActive f),
                z := f.z } : LoadForm }
  match i with
  | .vld f => some (run f true)
  | .vldb f => some (run f false)
  | .vlds f => some (many f 8 2 f.tagchk (strideEl (tyWidth f.type.toNat) (x.lBase f) (Sys2Proof.sext 64 (x.sv f.x.toNat))))
  | .vldg f => some (many f 12 4 false fun i =>
      ((x.lBase f + ((x.vElems (ldgIndex f) (tyWidth f.type.toNat)).getD i 0) * 2 ^ f.x.toNat) % 2 ^ 64, false))
  | .lds f =>
    some
      { f := f, cond := x.cond f.pred.toNat f.n, lat := 4, lim := 1, align := max 1 (tyWidth (bfType (fmt f)) / 8), oneRow := true,
        tagged := f.tagchk, legal := decodeOf (fmt f) f.type.toNat != .none,
        load := { kind := 1, type := f.type.toNat, st := bfType (fmt f), grp := bfGroup (fmt f) != 0,
                  els := [elAt (fmt f) 0 (x.lAddr f) false], act := 1, z := false } }
  | .pld f =>
    some
      { f := f, cond := x.cond f.pred.toNat f.n, lat := 4, lim := 1, align := 32, oneRow := true, tagged := f.tagchk, legal := true,
        load := { kind := 2, type := 0, st := 0, grp := false, els := [elAt 0 0 (x.lAddr f) false], act := 1, z := false } }
  | _ => none

/-- What the load writes when its value comes. -/
def LoadForm.dest (p : LoadForm) (w : RWrite) : Prop :=
  match p.load.kind with
  | 0 => ∃ v m, w = .vec p.f.d.toNat v m (some 2)
  | 1 => ∃ v, w = .scalar (BitVec.ofNat 6 (p.f.d.toNat - 328)) v
  | _ => ∃ v m, w = .pred (BitVec.ofNat 5 p.f.d.toNat) v m

/-- The rows that hold the elements, and with them those of the group records that a dequantising load reads. -/
def LoadForm.rows (p : LoadForm) : List Nat := rowsOf (p.load.els.map (·.addr))

def LoadForm.allRows (p : LoadForm) : List Nat :=
  rowsOf (p.load.els.map (·.addr) ++ if p.load.decode = .deq then p.load.els.map (·.recAt) else [])

/-- An address list that R178 admits: in the 2 MiB of the scratchpad, aligned, no element across two rows, all in one row where asked. -/
abbrev Fits (align : Nat) (oneRow : Bool) (addrs : List Nat) : Prop :=
  ∀ a ∈ addrs, a < 2 ^ 21 ∧ a % align = 0 ∧ a / 256 = (a + align - 1) / 256 ∧ (oneRow = true → a / 256 = addrs.headD 0 / 256)

/-- No port of the rows is taken, and no bank has more rows than it serves without delay; of interest in timed mode (R186, R187). -/
abbrev PortsFree (x : Tile) (slot : Nat) (p : PortPlan) : Prop := planFault x slot p = []

/-- Nothing that chapter 7 checks stands against the load: addresses, formats, the granules that it converts, tags, early rows, ports. -/
def LoadForm.Ok (p : LoadForm) (s : State) (i : Instr) : Prop :=
  let x := s.tile
  p.cond = true ∧ x.GoodS p.f.base ∧ ((∀ f, i ≠ .vldg f) → x.GoodS p.f.x) ∧
  (∀ f, i = .vldg f → x.vConsume 4 1 (ldgIndex f) (tyWidth f.type.toNat) (x.lActive f) = []) ∧ p.load.els ≠ [] ∧ p.legal = true ∧
  Fits p.align p.oneRow (p.load.els.map (·.addr)) ∧ (∀ g ∈ p.load.needs, (x.pad.gran g).bad = false) ∧
  (p.tagged = true → ∀ r ∈ p.rows, x.tag r = p.f.tag) ∧
  (∀ r ∈ p.allRows, x.isLate r = false ∧ (x.st stERC = true → x.pend.get 0 r = 0)) ∧
  PortsFree x 4 (planPorts x.readBusy (s.now + 1) p.lim p.allRows)

/-- A scratchpad store by its rules: condition, rows without delay, alignment, one row or not, the element addresses, its granule
writes, and its nibble writes. -/
structure StoreForm where
  f : TF
  cond : Bool
  lim : Nat
  align : Nat
  oneRow : Bool
  addrs : List Nat
  writes : List GWrite
  nibs : List Nib

/-- The scratchpad stores (R198, R199). -/
def storeForm (x : Tile) (i : Instr) : Option StoreForm :=
  match i with
  | .vst f =>
    let wb := max 1 (tyWidth f.type.toNat / 8)
    let es := runEls (x.tAddr f) wb (x.tActive f (8 * wb))
    some
      { f := f, cond := true, lim := 1, align := wb, oneRow := true, addrs := es.map (·.1),
        writes := scatter (x.vreg f.data.toNat) es, nibs := [] }
  | .vsts f =>
    let w := tyWidth f.type.toNat
    let v := x.vreg f.data.toNat
    let pos := ((List.range (2048 / w)).filter fun i => (x.tActive f w).getD i false).map fun i =>
      (i, strideEl w (x.sv f.base.toNat) (Sys2Proof.sext 64 (x.sv (f.imm11.toNat % 64))) i)
    some
      { f := f, cond := true, lim := 2, align := max 1 (w / 8), oneRow := false, addrs := pos.map (·.2.1),
        writes := if w = 4 then [] else scatter v (pos.map fun p => (p.2.1, p.1 * (w / 8), w / 8)),
        nibs := if w = 4 then pos.map fun p => nibOf v p.1 p.2 else [] }
  | .vstx f =>
    let w := tyWidth f.type.toNat
    let idx := x.vElems (f.imm11.toNat % 512) w
    let es := ((List.range (2048 / w)).filter fun i => (x.tActive f w).getD i false).map fun i =>
      ((x.sv f.base.toNat + (idx.getD i 0) * 2 ^ (f.imm11.toNat / 512)) % 2 ^ 64, i * (w / 8), w / 8)
    some
      { f := f, cond := true, lim := 4, align := w / 8, oneRow := false, addrs := es.map (·.1),
        writes := scatter (x.vreg f.data.toNat) es, nibs := [] }
  | .sts f =>
    let n := tyWidth f.type.toNat / 8
    some
      { f := f, cond := x.cond f.pred.toNat false, lim := 1, align := n, oneRow := true, addrs := [x.tAddr f],
        writes := scalarStore (x.tAddr f) n (x.scalar (f.data.toNat - 328)), nibs := [] }
  | .pst f =>
    some
      { f := f, cond := x.cond f.pred.toNat false, lim := 1, align := 32, oneRow := true, addrs := [x.tAddr f],
        writes := gwCarry (x.tAddr f / 8) (x.pred f.data.toNat) (2 ^ 32 - 1), nibs := [] }
  | _ => none

/-- Nothing that chapter 7 checks stands against the store. -/
def StoreForm.Ok (p : StoreForm) (s : State) (i : Instr) : Prop :=
  let x := s.tile
  p.cond = true ∧ x.GoodS p.f.base ∧ p.addrs ≠ [] ∧ Fits p.align p.oneRow p.addrs ∧
  ((∀ f, i ≠ .pst f) → ∀ a ∈ p.addrs, tyWidth (bfType (x.bfmt (bankOf a))) = tyWidth p.f.type.toNat) ∧
  (∀ f, i = .vsts f → Clean (x.scalar (f.imm11.toNat % 64))) ∧
  (∀ f, i = .vstx f → x.vConsume 5 1 (f.imm11.toNat % 512) (tyWidth f.type.toNat) (x.tActive f (tyWidth f.type.toNat)) = []) ∧
  PortsFree x 5 (planPorts (x.writeBusy s.now) (s.now + 4) p.lim (rowsOf p.addrs))

/-- The active elements of `w` bits of a run at `a`, with their addresses (R204, R206). -/
def runOf (a w : Nat) (act : List Bool) : List (Nat × Nat) :=
  ((List.range act.length).filter fun i => act.getD i false).map fun i => (i, (a + i * w / 8) % 2 ^ 64)

/-- The elements are aligned and lie in one 256-byte line (R212). -/
abbrev OneLine (align : Nat) (es : List (Nat × Nat)) : Prop := ∀ e ∈ es, e.2 % align = 0 ∧ e.2 / 256 = (es.headD (0, 0)).2 / 256

/-- The physical address of `va`, in the line of `pa`. -/
def inLine (pa va : Nat) : Nat := pa / 256 * 256 + va % 256

/-- A global store's writes are on their way: into L1 for issue + 4, in timed mode to the L2 for issue + 24 (R206). -/
def storesLater (s : State) (ws : List GWrite) : State :=
  (if s.tile.timed then s.schedule (s.now + 24) (ordWrite s.cur 1) (.l2Write s.cur s.now ws)
    else s.schedule (s.now + 4) (ordWrite s.cur 1) (.l1Write s.cur s.now ws)).note .acted

/-- The atomics, with their opcodes (Table 5-12). -/
def atomics : List ((TF → Instr) × Nat) :=
  [(.aadd, 0x08), (.aaddf, 0x09), (.amin, 0x0A), (.amax, 0x0B), (.aand, 0x0C), (.aor, 0x0D), (.axor, 0x0E), (.aswp, 0x0F), (.acas, 0x10)]

/-! ## Matrix commands (R251 to R269) -/

/-- A command as it stands in the queue. -/
def cmd (s : State) (op : Nat) (f : MF) (cv : List Word) (fmt : Nat) : MCmd :=
  { s.command op f cv with img := (s.tile.curImage f.w.toNat).elim 0 (·.1), fmtA := fmt }

/-- The command joins the queue to start later; its drain rows are pending from now (R252, R265), and nothing else changes. -/
def queues (s : State) (c : MCmd) : State :=
  (({ s with nextId := s.nextId + 1 } : State).onTile fun x =>
    ({ x with mq := x.mq ++ [c] } : Tile).addPend ((List.range c.rows).flatMap c.drains)).note .acted

/-- abase is aligned, and every row, `ext` bytes from its address, is in the scratchpad (R253, R256). -/
abbrev RowsFit (align ext : Nat) (c : MCmd) : Prop := c.base.d.toNat % align = 0 ∧ ∀ i < c.rows, c.addr i + ext ≤ 2 ^ 21

/-- The matrix commands, each with the command that joins the queue and what its rules ask of its operands: a good base, aligned rows that fit,
and formats that admit it (R251 to R267). -/
def matrixForms (s : State) (f : MF) : List (Instr × MCmd × Prop) :=
  let x := s.tile
  let c := fun op => cmd s op f [] 0
  let stream := fun op => (c op, x.GoodS f.abase ∧ RowsFit 256 256 (c op) ∧ x.aFormat f.w.toNat (rowAddrs (c op)) = [])
  let conv := cmd s 0x04 f ((List.range 3).map fun k => x.sreg (srCVDIM + k)) 0
  let cv := packNat 64 (conv.cv.map (·.toNat))
  let drain := c 0x09
  let w := if drain.dfmt < 2 then 8 else if drain.dfmt = 2 then 16 else 32
  let b0 := x.bfmt (bankOf (x.sv f.abase.toNat) % 64)
  let b1 := x.bfmt ((bankOf (x.sv f.abase.toNat) + 1) % 64)
  let image := fun op => cmd s op f [BitVec.ofNat 64 b0, BitVec.ofNat 64 b1] (b0 % 256)
  let load := fun op => (image op, x.GoodS f.abase ∧ (∃ m, imageOf (b0 % 256) = some m ∧ f.rows.toNat ≤ m.2.2) ∧ b1 % 256 = b0 % 256 ∧
    (op = 0x0D → isQg (b0 % 256) = true → imageK (b0 % 256) f.rows.toNat % imageG (b0 % 256) = 0) ∧ RowsFit 256 (32768 + 256) (image op))
  [(.mldb f, load 0x01), (.mldbt f, load 0x0D), (.mma f, stream 0x02), (.mmaz f, stream 0x03), (.mrowsum f, stream 0x07),
   (.mmac f, conv, x.GoodS f.abase ∧ convErr cv = none ∧ bits cv 48 16 = 0 ∧ conv.base.d.toNat % 256 = 0 ∧
     (∀ i < conv.rows, ∀ a, conv.conv i = .bank a → a + 256 ≤ 2 ^ 21) ∧
     x.aFormat f.w.toNat ((List.range conv.rows).filterMap fun i => match conv.conv i with | .bank a => some a | _ => none) = []),
   (.mzero f, c 0x05, True), (.mzset f, c 0x06, x.GoodS f.abase),
   (.mzpc f, c 0x08, x.GoodS f.abase ∧ x.sv f.abase.toNat % 256 = 0 ∧ x.sv f.abase.toNat + 256 ≤ 2 ^ 21),
   (.mdrain f, drain, x.GoodS f.abase ∧
     RowsFit (if drain.dfmt < 2 then 128 else 256) (if drain.dfmt < 2 then 128 else if drain.dfmt = 2 then 256 else 32768 + 256) drain ∧
     ∀ a ∈ rowAddrs drain, tyWidth (bfType (x.bfmt (bankOf a))) = w ∧ (drain.dfmt = 3 → tyWidth (bfType (x.bfmt (bankOf (a + 32768)))) = w)),
   (.mzld f, c 0x0A, x.GoodS f.abase ∧ RowsFit 256 (32768 + 256) (c 0x0A))]

/-- What a command latches at its start is there and good: the image of its weight slot, or the parameters of an 8-bit drain (R255, R265). -/
abbrev Latches (s : State) (c : MCmd) : Prop :=
  if c.usesW then (s.tile.w.get .empty c.f.w.toNat).ready.isSome = true ∧ (s.tile.w.get .empty c.f.w.toNat).img = c.img ∧
    (s.tile.w.get .empty c.f.w.toNat).firstBad = none
  else c.o = 0x09 → c.dfmt < 2 → ∀ k < 3, ∀ j < (if k < 2 then 32 else 17),
    ((s.tile.vec (308 + 3 * c.f.w.toNat + k)).gran j).bad = false

/-! ## Control flow (R164 to R170) -/

/-- A transfer to `t` is taken, and nothing else has changed. -/
def takes (s : State) (t : Word) : State := (s.onTile fun x => { x with branch := some (t &&& ~~~0x3F) }).note .acted

/-- The link of a call is in flight to s62 for issue + 1. -/
def links (s : State) : State := s.land 7 1 [.scalar 62 (scalarOf (s.tile.pc + 192).toNat)]

/-- The conditions of `BRS`, by code. -/
def brsTaken (b : Nat) (a : Word) : Bool :=
  match b with
  | 0 => a != 0
  | 1 => a == 0
  | 2 => a.slt 0
  | 3 => (0 : Word).sle a
  | 4 => (0 : Word).slt a
  | _ => a.sle 0

/-! ## The C slot: requests to a unit -/

/-- The registers, the scratchpad and memory are as before. -/
def Keeps (s t : State) : Prop :=
  t.tile.s = s.tile.s ∧ t.tile.p = s.tile.p ∧ t.tile.v = s.tile.v ∧ t.tile.sr = s.tile.sr ∧ t.tile.z = s.tile.z ∧ t.tile.pad = s.tile.pad ∧ t.mem = s.mem

/-- The instruction has acted: it has put one scalar in flight, for `lat` cycles after issue, that waits for its value, and reaches its
unit in cycle `at_`. -/
def Asks (s t : State) (d : BitVec 6) (lat at_ : Nat) (ev : Ev) : Prop :=
  t.tile.issued = .acted ∧
  (∃ l, t.tile.inflight = s.tile.inflight ++ [l] ∧ l.waiting = true ∧ l.id = s.nextId ∧ l.due = s.tile.rclk + lat ∧ l.slot = 6 ∧
    l.writes = [.scalar d (.zero 1)]) ∧
  (∃ e ∈ t.agenda, e.at_ = at_ ∧ e.ev = ev) ∧ Keeps s t

/-- The instruction has acted: it reaches its unit in cycle `at_`, and has no result. -/
def Tells (s t : State) (at_ : Nat) (ev : Ev) : Prop :=
  t.tile.issued = .acted ∧ t.tile.inflight = s.tile.inflight ∧ (∃ e ∈ t.agenda, e.at_ = at_ ∧ e.ev = ev) ∧ Keeps s t

/-- An operation of the tile has been issued under a handle: it has taken its number and the handle's next index (R322). -/
def Opens (s t : State) (f : CF) (kind : OpKind) (rank win : Nat) (o : OpRec) : Prop :=
  t.tile.issued = .acted ∧ o ∈ t.ops ∧ o.seq = s.nextOpn ∧ o.kind = kind ∧ o.rank = rank ∧ o.win = win ∧ o.tile = s.cur ∧ o.h = cHand f ∧
  o.idx = (s.tile.handle (cHand f)).iss ∧ t.nextOpn = s.nextOpn + 1 ∧
  (t.tile.handle (cHand f)).iss = (s.tile.handle (cHand f)).iss + 1 ∧ t.tile.inflight = s.tile.inflight ∧ Keeps s t

/-- A release of a scope has nothing to wait for and raises nothing (R47, R48). -/
abbrev Released (s : State) (scope : Nat) (c : Bool) : Prop :=
  s.remoteDone s.cur scope = true ∧ (s.tile.timed = false → s.localDone s.cur s.now scope c = true)

/-! ## Events of the opcode table -/

/-- The events of a tile, its L1 and its copy engines. -/
def tileEvents : List Instr :=
  [.tileCycle, .freezeEnd, .l1Fill, .ownershipGrant, .revocation, .globalAtomicReturn, .translationWalkEnd, .fetchLineArrival, .copyEmission,
    .lateRowWrite, .writeQueueRowWrite, .delayedSourceRead]

/-- The events of the port: flits that arrive, and what the window engine does of itself. -/
def windowEvents : List Instr :=
  [.putRequest, .getRequest, .accumulateRequest, .taggedAccumulate, .atomicRequest, .futureFill, .remoteApply, .getData, .atomicOldValue, .notices,
    .acknowledgementOnly, .post, .completion, .fenceArrival, .fenceDone, .lockRequest, .grant, .release, .completionNoticeSend, .fenceArrivalSend,
    .releaseSend, .chamberQueueTimeout, .windowEntryFreed]

/-- The events of the fabric ports. -/
def linkEvents : List Instr :=
  [.fabricSlot, .standingFlitArrival, .scheduledFlitArrival, .syncResult, .epoch, .referenceLockLoss, .laneLock, .trainingTimeout, .alignment,
    .keyExchange, .tableActivation, .laneLockLoss, .linkFailureTimeout, .rekeyStart, .rekeyCommit]

/-- The events of the collective engine. -/
def collectiveEvents : List Instr :=
  [.launchNotice, .reservationRequest, .reservationGrant, .go, .chunkStaging, .streamStaging, .towpathPartial]

/-- The events of tasks, `SYNC` and class M. -/
def taskEvents : List Instr :=
  [.rootSlotCopy, .taskReady, .taskStart, .preemption, .reachJobStart, .partNotReady, .taskRetire, .redirectSwitch, .syncArrival, .syncRestart,
    .classMEvent]

/-- The events of power and of casks. -/
def basinEvents : List Instr :=
  [.powerMeasurement, .throttleEnd, .emergencyPowerStop, .suspensionDrainEnd, .caskWritten, .caskNoticeLanding, .rsmClaim, .restoreComplete,
    .caskdupCopyDone]

/-- The events of the host: power-up, registers and aperture. -/
def hostEvents : List Instr :=
  [.powerUp, .attestation, .apertureRead, .apertureWrite, .rootrec, .rootarm, .rpool, .eqbase, .eqsize, .rjstart, .rjctlArm, .rjctlDisarm,
    .hostRegisterWrite]

/-- The events of the command register. -/
def commandEvents : List Instr :=
  [.invalidatePage, .invalidateDomain, .invalidateAll, .debugStop, .debugResume, .readState, .writeState, .freeFailedTask, .linkBringUp,
    .loadShadowDepartureTable, .setCounter, .readCounter, .endReachJob, .hostCommandDone, .cmdOtherCode]

/-- The constructors of `Instr` that are events: they have no word. -/
def events : List Instr :=
  tileEvents ++ windowEvents ++ linkEvents ++ collectiveEvents ++ taskEvents ++ basinEvents ++ hostEvents ++ commandEvents

/-! ## Events -/

/-- The calendar holds the event for the cycle. -/
def Schedules (t : State) (at_ : Nat) (ev : Ev) : Prop := ∃ e ∈ t.agenda, e.at_ = at_ ∧ e.ev = ev

/-- The link of port `p` has failed in this cycle, and what runs over it is looked at 1,024 cycles later (R358). -/
def Fails (s t : State) (p : Fin 9) : Prop :=
  t.ports[p].link = .failed ∧ t.ports[p].since = s.now ∧ t.mem = s.mem ∧
  Schedules t (s.now + 1024) (.event .linkFailureTimeout { EvArg.none with n := s.linkOf p, m := s.nextOpn })

/-- A host command has been taken and has acted: CMDST is busy, and it completes later with its outcome (R463). -/
def Begun (s t : State) (ok : Bool) : Prop :=
  t.host.cmdst = 1 ∧ t.host.cmdOk = ok ∧ ∃ e ∈ t.agenda, s.now < e.at_ ∧ e.ev = .event .hostCommandDone EvArg.none

/-- The checks of R311, in their order, pass for a request of `n` bytes: there is such a window, the rank is in its group, its state
admits it, it has the right, and the bytes of the flit and of its whole operation lie in it, aligned. -/
def PortOk (s : State) (f : Flit) (right n : Nat) : Prop :=
  let all := f.whole.getD (f.offset.toNat, n)
  let unit := max 1 (tyWidth f.type.toNat / 8)
  ∃ e, s.window f.win.toNat = some e ∧ e.lo ≤ f.src.toNat ∧ f.src.toNat ≤ e.hi ∧ e.admits f.src.toNat f.tile.val = true ∧
    bit e.desc.toNat right = true ∧ all.1 + all.2 ≤ e.length ∧ f.offset.toNat + n ≤ e.length ∧ all.1 % unit = 0 ∧ all.2 % unit = 0

/-! ## A tile's issue -/

/-- It is tile `n`'s turn to issue, and the bundle of bits `b` is due: the tile runs, nothing stops or holds it, and no value that is due is
missing (R413). -/
abbrev Issues (s : State) (n b : Nat) : Prop :=
  let x := s.tileAt (tid n)
  s.turn = .issue n ∧ n < 32 ∧ x.throttled = none ∧ x.run = .running ∧ x.frozen = none ∧ x.capturing = false ∧
  (∀ l ∈ x.inflight, l.waiting = true → x.rclk < l.due) ∧ x.inPart = false ∧ x.rpt = 0 ∧
  ((x.sreg srYBOUND).toNat % 2 ^ 32 = 0 ∨ x.yc.toNat ≤ (x.sreg srYBOUND).toNat % 2 ^ 32 ∨ x.trp = true) ∧
  x.bundleAt x.pc = some b ∧ ((Header.ofNat (bits b 0 16)).brk = false ∨ x.noBrk = true)

end Sys2Proof.Claims
end

