-- ==== Sys2Proof/Certificates/Slice0/Obligations.lean ====
section
/-! DEFINITION. The statements for the provers. -/

section

open Sys2Proof Sys2Proof.Machine Sys2Proof.Claims Sys2Proof.Check

/-- R112, R154, R155, R156, R158, Table 6-5: both forms put their result in flight and change nothing else. -/
def Obligations.ScalarTwoSourceResult : Prop :=
  ∀ (s : State) (f : SF), ∀ e ∈ scalarOps, s.tile.cond f.pq.toNat f.neg = true → s.tile.GoodS f.a →
    ((e.1 f).wf = true → s.tile.GoodS f.b → exec (e.1 f) s = .next (lands s e.2.2.1 f.d (e.2.2.2 (s.tile.word f.a) (s.tile.word f.b)))) ∧
    ((e.2.1 f).wf = true → exec (e.2.1 f) s = .next (lands s e.2.2.1 f.d (e.2.2.2 (s.tile.word f.a) (imm f))))

/-- R157: the result, and what a zero divisor adds. -/
def Obligations.DivisionResult : Prop :=
  ∀ (s : State) (f : SF) (i : Instr) (b : Word), ∀ e ∈ divisions,
    i.wf = true → s.tile.cond f.pq.toNat f.neg = true → s.tile.GoodS f.a →
    ((i = e.1 f ∧ s.tile.GoodS f.b ∧ b = s.tile.word f.b) ∨ (i = e.2.1 f ∧ b = imm f)) →
    exec i s = .next (if b = 0 then divZero s f.d (e.2.2 (s.tile.word f.a) b) else lands s 18 f.d (e.2.2 (s.tile.word f.a) b))

/-- R160, Table 6-6: one source. -/
def Obligations.ScalarUnaryResult : Prop :=
  ∀ (s : State) (f : SF), ∀ e ∈ scalarUnary, (e.1 f).wf = true → s.tile.cond f.pq.toNat f.neg = true → s.tile.GoodS f.a →
    exec (e.1 f) s = .next (lands s 1 f.d (e.2 (f.imm32.truncate 6) (s.tile.word f.a)))

/-- R160 for `MOVI` and `MOVHI`, R158 for both forms of `BFI`. -/
def Obligations.ScalarMoveResult : Prop :=
  ∀ (s : State) (f : SF), s.tile.cond f.pq.toNat f.neg = true →
    ((Instr.movi f).wf = true → exec (.movi f) s = .next (lands s 1 f.d (imm f))) ∧
    ((Instr.movhi f).wf = true → s.tile.GoodS f.d →
      exec (.movhi f) s = .next (lands s 1 f.d (f.imm32 ++ (s.tile.word f.d).truncate 32))) ∧
    ((Instr.bfi f).wf = true → s.tile.GoodS f.a → s.tile.GoodS f.b → s.tile.GoodS f.d →
      exec (.bfi f) s = .next (lands s 1 f.d (fieldInto (s.tile.word f.d) (s.tile.word f.a) (s.tile.word f.b)))) ∧
    ((Instr.bfiImmediate f).wf = true → s.tile.GoodS f.a → s.tile.GoodS f.d →
      exec (.bfiImmediate f) s = .next (lands s 1 f.d (fieldInto (s.tile.word f.d) (s.tile.word f.a) (imm f))))

/-- R159: `CMP` and `SEL`, register and immediate forms. -/
def Obligations.CompareSelectResult : Prop :=
  ∀ (s : State) (f : SF) (i : Instr) (b : Word), i.wf = true → s.tile.GoodS f.a →
    (((i = .cmp f ∧ s.tile.GoodS f.b ∧ b = s.tile.word f.b) ∨ (i = .cmpImmediate f ∧ b = imm f)) →
      exec i s = .next (landsP s f.d (if holds f.pq (s.tile.word f.a) b then BitVec.allOnes 256 else 0))) ∧
    (((i = .sel f ∧ s.tile.GoodS f.b ∧ b = s.tile.word f.b) ∨ (i = .selImmediate f ∧ b = imm f)) →
      exec i s = .next (lands s 1 f.d (if s.tile.cond f.pq.toNat f.neg then s.tile.word f.a else b)))

/-- R161, Table 6-7. -/
def Obligations.PredicateResult : Prop :=
  ∀ (s : State) (f : SF), s.tile.cond f.pq.toNat f.neg = true →
    (∀ e ∈ predOps, (e.1 f).wf = true → s.tile.GoodP f.a.toNat → s.tile.GoodP f.b.toNat →
      exec (e.1 f) s = .next (landsP s f.d (e.2 (pbits s.tile f.a) (pbits s.tile f.b)))) ∧
    ((Instr.pnot f).wf = true → s.tile.GoodP f.a.toNat → exec (.pnot f) s = .next (landsP s f.d (~~~(pbits s.tile f.a)))) ∧
    ((Instr.pcnt f).wf = true → s.tile.GoodP f.a.toNat →
      exec (.pcnt f) s = .next (lands s 1 f.d ((pbits s.tile f.a).cpop.truncate 64))) ∧
    ((Instr.pfirst f).wf = true → s.tile.GoodP f.a.toNat →
      exec (.pfirst f) s = .next (lands s 1 f.d ((pbits s.tile f.a).ctz.truncate 64))) ∧
    ((Instr.plast f).wf = true → s.tile.GoodP f.a.toNat →
      exec (.plast f) s = .next (lands s 1 f.d (255 - (pbits s.tile f.a).clz.truncate 64))) ∧
    ((Instr.pfrom f).wf = true → s.tile.GoodS f.a → s.tile.GoodS f.b →
      ∃ v, exec (.pfrom f) s = .next (landsP s f.d v) ∧
        ∀ i < 256, v.getLsbD i = (s.tile.word f.a).getLsbD (i >>> ((s.tile.word f.b) &&& 3).toNat)) ∧
    ((Instr.plen f).wf = true → s.tile.GoodS f.a →
      ∃ v, exec (.plen f) s = .next (landsP s f.d v) ∧ ∀ i < 256, v.getLsbD i = decide (i < (s.tile.word f.a).toNat)) ∧
    ((Instr.ptos f).wf = true → s.tile.GoodP f.a.toNat → s.tile.GoodS f.b →
      exec (.ptos f) s = .next (lands s 1 f.d ((pbits s.tile f.a).extractLsb' (64 * ((s.tile.word f.b) &&& 3).toNat) 64))) ∧
    (∀ i ∈ predSourced f, i.wf = true → ∀ j < 4, (∀ k < j, ((s.tile.pred f.a.toNat).gran k).bad = false) →
      ((s.tile.pred f.a.toNat).gran j).bad = true → exec i s = .next (badSource s 0 j ((s.tile.pred f.a.toNat).gran j))) ∧
    (∀ e ∈ predOps, (e.1 f).wf = true → s.tile.GoodP f.a.toNat → ∀ j < 4, (∀ k < j, ((s.tile.pred f.b.toNat).gran k).bad = false) →
      ((s.tile.pred f.b.toNat).gran j).bad = true → exec (e.1 f) s = .next (badSource s 1 j ((s.tile.pred f.b.toNat).gran j)))

/-- R162: reading and writing special registers. -/
def Obligations.SpecialRegisterMoves : Prop :=
  ∀ (s : State) (f : SF), s.tile.cond f.pq.toNat f.neg = true →
    ((Instr.mfsr f).wf = true → s.admits (.mfsr f) = true →
      exec (.mfsr f) s = .next (lands s 2 f.d (BitVec.ofNat 64 (s.readSreg s.cur (Check.sregNum f))))) ∧
    (s.readSreg s.cur 0x006 = s.tile.tcyc.toNat ∧ s.readSreg s.cur 0x007 = s.ftime.toNat ∧ s.readSreg s.cur 0x008 = s.cur.val ∧
      s.readSreg s.cur 0x009 = s.cur.val / 8) ∧
    ((Instr.mtsr f).wf = true → s.admits (.mtsr f) = true → s.tile.GoodS f.a →
      (0x040 ≤ Check.sregNum f → Check.sregNum f < 0x080 → bfmtBad (Check.sregNum f - 0x040) (s.tile.word f.a).toNat = none) →
      exec (.mtsr f) s = .next ((s.land 0 1 [.sreg (Check.sregNum f)
        (BitVec.ofNat 64 ((s.tile.word f.a).toNat % 2 ^ sregWidth (Check.sregNum f)))]).note .acted)) ∧
    ((Instr.mtsr f).wf = true → s.admits (.mtsr f) = true → ((s.tile.scalar f.a.toNat).gran 0).bad = true →
      exec (.mtsr f) s = .next (badSource s 7 0 ((s.tile.scalar f.a.toNat).gran 0))) ∧
    decodeSlot 0 0x0000000600000538 = .ok (.mfsr { imm32 := 6, neg := false, pq := 0, b := 0, a := 0, d := 5 })

/-- R124: no effect, and no fault other than class E. -/
def Obligations.FalseConditionDoesNothing : Prop :=
  ∀ (s : State) (i : Instr), i.wf = true → s.admits i = true → s.tile.condOf i = some false → s.tile.run = .running →
    exec i s = .next (s.note .acted)

/-- R67, R71, R154: a consumer checks its source before anything is written. -/
def Obligations.BadScalarSourceTraps : Prop :=
  ∀ (s : State) (f : SF), s.tile.cond f.pq.toNat f.neg = true →
    (∀ i ∈ scalarSourced f, i.wf = true → ((s.tile.scalar f.a.toNat).gran 0).bad = true →
      exec i s = .next (badSource s 0 0 ((s.tile.scalar f.a.toNat).gran 0))) ∧
    (∀ i ∈ scalarOps.map (fun e => e.1 f) ++ divisions.map (fun e => e.1 f), i.wf = true → s.tile.GoodS f.a →
      ((s.tile.scalar f.b.toNat).gran 0).bad = true → exec i s = .next (badSource s 1 0 ((s.tile.scalar f.b.toNat).gran 0)))

/-- R127: the privilege fault. `MXSAVE` and `MXREST` outside a handler are also against R425; which of the two faults is reported is the
model's reading of R130 (log entry 5, DEDUCED). -/
def Obligations.PrivilegeFault : Prop :=
  ∀ (s : State) (i : Instr), i.wf = true → i.privileged = true → s.tile.sv? = false →
    ∃ q, exec i s = .next (s.raise q) ∧ q.2.cls = clsE ∧ q.2.kind = .issue ∧ q.2.pc = s.tile.pc ∧
      (s.tile.trp = false ∧ (∃ f, i = .mxsave f ∨ i = .mxrest f) → q.2.low = 0x9) ∧
      (¬(s.tile.trp = false ∧ ∃ f, i = .mxsave f ∨ i = .mxrest f) → q.2.low = 0xA)

/-- R214, R220, R221, R223, R224, R247: two sources. -/
def Obligations.VectorTwoSourceResult : Prop :=
  ∀ (s : State) (f : VF), ∀ e ∈ vTwo, (e.1 f).wf = true → s.tile.GoodV f.a → s.tile.GoodV f.b →
    exec (e.1 f) s = .next (vLands s f (vw f) (e.2.1 f) f.type.toNat fun i =>
      e.2.2 (s.tile.sreg srFPCTL).toNat f (el s.tile f.a (vw f) i) (el s.tile f.b (vw f) i))

/-- R220, R223, R225, R247: one source. -/
def Obligations.VectorOneSourceResult : Prop :=
  ∀ (s : State) (f : VF), ∀ e ∈ vOne, (e.1 f).wf = true → s.tile.GoodV f.a →
    exec (e.1 f) s = .next (vLands s f (vw f) e.2.1 f.type.toNat fun i => e.2.2 (s.tile.sreg srFPCTL).toNat f (el s.tile f.a (vw f) i))

/-- R220 to R222: three sources. -/
def Obligations.VectorThreeSourceResult : Prop :=
  ∀ (s : State) (f : VF), s.tile.GoodV f.a → s.tile.GoodV f.b → s.tile.GoodV f.c →
    (∀ e ∈ vThree, (e.1 f).wf = true →
      exec (e.1 f) s = .next (vLands s f (vw f) (e.2.1 f) f.type.toNat fun i => e.2.2 (s.tile.sreg srFPCTL).toNat f
        (el s.tile f.a (vw f) i) (el s.tile f.b (vw f) i) (el s.tile f.c (vw f) i))) ∧
    ((Instr.vdot4 f).wf = true → exec (.vdot4 f) s = .next (vLandsI s f 32 2 fun i =>
      satOr f.sat 4 (ival 4 (el s.tile f.c 32 i) + ((List.range 4).map fun j =>
        ival f.type.toNat (byteEl s.tile f.a i j) * ival (if f.sub.getLsbD 0 then 0 else 1) (byteEl s.tile f.b i j)).sum)))

/-- R226 to R228, R78, R79. -/
def Obligations.VectorCompareResult : Prop :=
  ∀ (s : State) (f : VF),
    ((Instr.vcmp f).wf = true → s.tile.GoodV f.a → s.tile.GoodV f.b → tyF f.type.toNat = false →
      exec (.vcmp f) s = .next ((s.vLandF f 2 f.type.toNat (vPredOf s.tile f fun i =>
        vHolds f.sub.toNat (iv f (el s.tile f.a (vw f) i)) (iv f (el s.tile f.b (vw f) i))) []).note .acted)) ∧
    ((Instr.vcmp f).wf = true → s.tile.GoodV f.a → s.tile.GoodV f.b → tyF f.type.toNat = true →
      exec (.vcmp f) s = .next ((s.vLandF f 2 f.type.toNat
        (vPredOf s.tile f fun i => (fCmp (s.tile.sreg srFPCTL).toNat f.type.toNat f.sub.toNat (el s.tile f.a (vw f) i) (el s.tile f.b (vw f) i)).1)
        ((List.range (2048 / vw f)).map fun i => if active s.tile f (vw f) i then
          (fCmp (s.tile.sreg srFPCTL).toNat f.type.toNat f.sub.toNat (el s.tile f.a (vw f) i) (el s.tile f.b (vw f) i)).2 else 0)).note .acted)) ∧
    ((Instr.vclass f).wf = true → s.tile.GoodV f.a →
      exec (.vclass f) s = .next ((s.vLand f 2 (vPredOf s.tile f fun i =>
        bit f.imm16.toNat (fClass f.type.toNat (el s.tile f.a (vw f) i)))).note .acted)) ∧
    ((Instr.vsel f).wf = true → s.tile.GoodV f.a → s.tile.GoodV f.b →
      exec (.vsel f) s = .next ((s.vLand f 2 (vWrite f (vw f) ((List.range (2048 / vw f)).map fun i =>
        some (if active s.tile f (vw f) i then el s.tile f.a (vw f) i else el s.tile f.b (vw f) i)))).note .acted)) ∧
    ((Instr.vrchk f).wf = true → ∃ v : BitVec 256, exec (.vrchk f) s = .next ((s.land (vSlotOf f) 2
        [.pred (BitVec.ofNat 5 f.d.toNat) (Reg.fresh 4 v.toNat) (BitVec.allOnes 256)]).note .acted) ∧
      ∀ i < 256, v.getLsbD i = (bit (s.tile.pred f.pred.toNat).d.toNat (8 * (i / 8)) &&
        (match f.sub.toNat with
          | 0 => ((s.tile.vreg f.a.toNat).gran (i / 8)).bad
          | 1 => ((s.tile.vreg f.a.toNat).gran (i / 8)).r.getLsbD 7
          | _ => ((s.tile.vreg f.a.toNat).gran (i / 8)).r.toNat % 128 != crc7 ((s.tile.vreg f.a.toNat).gran (i / 8)).d.toNat)))

/-- R229, R230. -/
def Obligations.VectorMoveResult : Prop :=
  ∀ (s : State) (f : VF),
    ((Instr.vmov f).wf = true → f.a.toNat < 324 → (∀ i < 2048 / vw f, active s.tile f (vw f) i = true) →
      exec (.vmov f) s = .next ((s.land (vSlotOf f) 2 [.vec f.d.toNat (s.tile.vreg f.a.toNat) (BitVec.allOnes 256)
        (some (if f.v1 then 1 else 0))]).note .acted)) ∧
    ((Instr.vmov f).wf = true → 324 ≤ f.a.toNat → s.tile.GoodV f.a →
      exec (.vmov f) s = .next (vLandsI s f (vw f) 2 fun i => el s.tile f.a (vw f) i)) ∧
    ((Instr.vmovi f).wf = true → exec (.vmovi f) s = .next (vLandsI s f (vw f) 2 fun _ =>
      if f.type = 10 then f.imm16.toNat * 2 ^ 16 else wraps f (Sys2Proof.sext 16 f.imm16.toNat))) ∧
    (∀ k, k = (if f.sub.getLsbD 0 then s.tile.sv (f.b.toNat - 328) % (2048 / vw f) else f.imm16.toNat % 512) →
      (f.sub.getLsbD 0 = true → s.tile.GoodV f.b) → s.tile.GoodV f.a →
      (active s.tile f (vw f) k = true → (Instr.vext f).wf = true → exec (.vext f) s = .next ((s.land (vSlotOf f) 2 [.scalar (BitVec.ofNat 6 (f.d.toNat - 328))
        (scalarOf (BitVec.ofInt 64 (iv f (el s.tile f.a (vw f) k))).toNat)]).note .acted)) ∧
      (active s.tile f (vw f) k = true → (Instr.vins f).wf = true → exec (.vins f) s = .next ((s.vLand f 2 (vWrite f (vw f) ((List.range (2048 / vw f)).map fun i =>
        if i = k then some (s.tile.sv (f.a.toNat - 328) % 2 ^ vw f) else none))).note .acted)) ∧
      (active s.tile f (vw f) k = false → ∀ i, (i = .vext f ∨ i = .vins f) → i.wf = true → exec i s = .next (s.note .acted)))

/-- R231 to R235. That STATUS.OFL is also set where class A is taken is the model's choice (log entry 28). -/
def Obligations.VectorConvertResult : Prop :=
  ∀ (s : State) (f : VF), s.tile.GoodV f.a →
    ((Instr.vpack f).wf = true → s.tile.GoodV f.b → exec (.vpack f) s = .next (vLandsI s f (vw f) 3 fun i =>
      satOr f.sat f.type.toNat (ival (f.type.toNat + 2)
        (if i < 2048 / vw f / 2 then el s.tile f.a (2 * vw f) i else el s.tile f.b (2 * vw f) (i - 2048 / vw f / 2))))) ∧
    ((Instr.vunpk f).wf = true → exec (.vunpk f) s = .next (vLandsI s f (vw f) 3 fun i =>
      wraps f (ival (f.type.toNat - 2) (el s.tile f.a (vw f / 2) (i + if f.sub.getLsbD 0 then 2048 / vw f else 0))))) ∧
    ((Instr.vcvt f).wf = true →
      exec (.vcvt f) s = .next (vLandsPart s f (vw f) 3 (if tyF f.type.toNat then f.type.toNat else srcT f) (cvtEl s f))) ∧
    ((Instr.vdqnt f).wf = true → s.tile.GoodV f.b → exec (.vdqnt f) s = .next (vLands s f (vw f) 3 f.type.toNat fun i =>
      deq (s.tile.sreg srFPCTL).toNat f.type.toNat f.rnd.toNat (srcT f)
        (el s.tile f.b 32 ((part f * (2048 / vw f) + i) / groupOf f))
        (el s.tile f.a (tyWidth (srcT f)) (part f * (2048 / vw f) + i)))) ∧
    ((Instr.vqnt f).wf = true → s.tile.GoodV f.b → f.sub.getLsbD 0 = false →
      exec (.vqnt f) s = .next ((vQuants s s f 0 [] 0).note .acted)) ∧
    ((Instr.vqnt f).wf = true → s.tile.GoodV f.b → f.sub.getLsbD 0 = true →
      let l := f.c.toNat - 328
      let addr := s.tile.sv l
      let cap := s.tile.sv (l + 1)
      let entries := qntEntries s f cap (s.tile.sv (l + 2))
      let plan := outlierPlan (s.tile.writeBusy s.now) (s.now + 3) (qntRows s f addr cap)
      (∀ j < 3, Clean (s.tile.scalar (l + j))) → addr % 8 = 0 → addr < 2 ^ 21 → (∀ r ∈ qntRows s f addr cap, r < 2 ^ 13) →
      (s.tile.timed = true → plan.busy = none) →
      let t := vQuants s (s.claim 2 plan) f cap [.scalar (BitVec.ofNat 6 l) (scalarOf ((addr + 8 * entries.length) % 2 ^ 64)),
        .scalar (BitVec.ofNat 6 (l + 1)) (scalarOf (cap - entries.length))] (BitVec.ofNat 64 (if cap < (outliers s f).length then 2 ^ stOFL else 0))
      exec (.vqnt f) s = .next ((if qntTraps s f cap then t else t.outlierWrites addr entries (qntRows s f addr cap)).note .acted))

/-- R236, R237. -/
def Obligations.VectorPermuteResult : Prop :=
  ∀ (s : State) (f : VF) (n : Nat), n = 2048 / vw f → s.tile.GoodV f.a →
    ((Instr.vperm f).wf = true → s.tile.GoodV f.b → s.tile.GoodV f.c → exec (.vperm f) s = .next (vLandsI s f (vw f) 3 fun i =>
      if el s.tile f.b (vw f) i % (2 * n) < n then el s.tile f.a (vw f) (el s.tile f.b (vw f) i % (2 * n))
      else el s.tile f.c (vw f) (el s.tile f.b (vw f) i % (2 * n) - n))) ∧
    ((Instr.vslide f).wf = true → s.tile.GoodV f.b → exec (.vslide f) s = .next (vLandsI s f (vw f) 3 fun i =>
      if i + f.imm16.toNat % 1024 < n then el s.tile f.a (vw f) (i + f.imm16.toNat % 1024)
      else el s.tile f.b (vw f) (i + f.imm16.toNat % 1024 - n))) ∧
    ((Instr.vbcast f).wf = true → exec (.vbcast f) s = .next (vLandsI s f (vw f) 3 fun _ => el s.tile f.a (vw f) (f.imm16.toNat % 512))) ∧
    ((Instr.vshuf f).wf = true → s.tile.GoodV f.b → exec (.vshuf f) s = .next (vLandsI s f (vw f) 3 fun i =>
      let two := fun (k e : Nat) => el s.tile (if k = 0 then f.a else f.b) (vw f) e
      match f.sub.toNat with
      | 0 => two (i % 2) (i / 2)
      | 1 => two (i % 2) (n / 2 + i / 2)
      | 2 => if i < n / 2 then two 0 (2 * i) else two 1 (2 * (i - n / 2))
      | 3 => if i < n / 2 then two 0 (2 * i + 1) else two 1 (2 * (i - n / 2) + 1)
      | 4 => two 0 (n - 1 - i)
      | _ => two (i % 2) (i / 2 * 2))) ∧
    ((Instr.vcomp f).wf = true → ∃ out, exec (.vcomp f) s = .next ((s.vLand f 3 (vWrite f (vw f) out)).note .acted) ∧ out.length = n ∧
      (∀ i < n, active s.tile f (vw f) i = true →
        out.getD (((List.range i).filter fun j => active s.tile f (vw f) j).length) none = some (el s.tile f.a (vw f) i)) ∧
      ∀ i < n, ((List.range n).filter fun j => active s.tile f (vw f) j).length ≤ i → out.getD i none = if f.z then some 0 else none) ∧
    ((Instr.vexpd f).wf = true → exec (.vexpd f) s = .next (vLandsI s f (vw f) 3 fun i =>
      el s.tile f.a (vw f) ((List.range i).filter fun j => active s.tile f (vw f) j).length))

/-- R239 to R241, over the schedules of R100 to R103. A lane or leaf that meets no application keeps its operand's bits, which is the
model's choice (log entry 28). -/
def Obligations.VectorReductionResult : Prop :=
  ∀ (s : State) (f : VF), s.tile.GoodV f.a →
    ((Instr.vred f).wf = true →
      let r := treeNode (opOf s f) (leafOf s f) (laneLog f) 0
      exec (.vred f) s = .next ((s.vLandF f 6 f.type.toNat
        (vWrite f (vw f) ((List.range (2048 / vw f)).map fun i => some (if i = 0 then r.1.getD (redEmpty f.type.toNat f.sub.toNat) else 0)))
        [if tyF f.type.toNat then r.2 else 0]).note .acted)) ∧
    ((f.imm16.getLsbD 0 = true → s.tile.GoodV f.c) →
      ((Instr.vscan f).wf = true → exec (.vscan f) s = .next (vScans s f 8 (tyF f.type.toNat) fun k =>
        let r := scanRow (opOf s f) (laneLog f) (carryIn s f) (leafOf s f) k
        (r.1.getD 0, r.2))) ∧
      ((Instr.vsegscan f).wf = true → s.tile.GoodV f.b → exec (.vsegscan f) s = .next (vScans s f 8 (tyF f.type.toNat) fun k =>
        let r := scanRow (segOp (opOf s f)) (laneLog f) ((carryIn s f).map fun c => (false, c))
          (fun i => (leafOf s f i).map fun v => (el s.tile f.b (vw f) i != 0, v)) k
        ((r.1.getD (false, 0)).2, r.2))) ∧
      ((Instr.vrec f).wf = true → s.tile.GoodV f.b → exec (.vrec f) s = .next (vScans s f 10 true fun k =>
        let r := scanRow (recOp (s.tile.sreg srFPCTL).toNat f.rnd.toNat) 6 ((carryIn s f).map fun h => (none, h))
          (fun i => (leafOf s f i).map fun v => (some v, el s.tile f.b (vw f) i)) k
        ((r.1.getD (none, 0)).2, r.2))))

/-- R243 to R245. -/
def Obligations.AccumulatorResult : Prop :=
  ∀ (s : State) (f : VF), Clean (s.tile.acc (rowNo f)) →
    ((Instr.vmacw f).wf = true → s.tile.GoodV f.a → s.tile.GoodV f.b →
      let g := fun i => if tyF f.type.toNat
        then macEl (s.tile.sreg srFPCTL).toNat f.type.toNat f.rnd.toNat f.sat (accEl s f i) (el s.tile f.a 16 i) (el s.tile f.b 16 i)
        else (satOr f.sat 4 (ival 4 (accEl s f i) + iv f (el s.tile f.a 16 i) * iv f (el s.tile f.b 16 i)), 0)
      exec (.vmacw f) s = .next ((s.vLandF f 6 10 (accWrite (rowNo f) (masked s.tile f 16 fun i => (g i).1))
        ((List.range 128).map fun i => if active s.tile f 16 i then (g i).2 else 0)).note .acted)) ∧
    ((Instr.zmovn f).wf = true → exec (.zmovn f) s = .next (vLands s f 16 4 f.type.toNat fun i =>
      if tyF f.type.toNat then cvt (s.tile.sreg srFPCTL).toNat 10 f.type.toNat f.rnd.toNat false (accEl s f i)
      else (satOr f.sat f.type.toNat (rndi f.rnd.toNat (decide (ival 4 (accEl s f i) < 0)) (ival 4 (accEl s f i)).natAbs
        (-((f.imm16.toNat / 2 ^ 10 % 2 ^ 5 : Nat) : Int))).1, 0))) ∧
    ((Instr.zmovw f).wf = true → (∀ i < 64, active s.tile f 32 i = false) → f.z = false → exec (.zmovw f) s = .next (s.note .acted)) ∧
    ((Instr.zmovw f).wf = true → f.z = true ∨ (∃ i < 64, active s.tile f 32 i = true) →
      let h := if f.sub.getLsbD 1 then 32 else 0
      let both := fun j g => copyGran (active s.tile f 32 (2 * j)) (active s.tile f 32 (2 * j + 1)) f.z g
      (f.sub.getLsbD 0 = false → ∃ m : BitVec 256, (∀ b < 256, m.getLsbD b = (active s.tile f 32 (b / 4) || f.z)) ∧
        exec (.zmovw f) s = .next ((s.land (vSlotOf f) 4 [.vec f.d.toNat
          (Reg.ofGrans 32 ((List.range 32).map fun j => both j ((s.tile.acc (rowNo f)).gran (h + j)))) m (some (if f.v1 then 1 else 0))]).note .acted)) ∧
      (f.sub.getLsbD 0 = true → s.tile.GoodV f.a →
        ∃ m : BitVec 128, (∀ i < 128, m.getLsbD i = (decide (2 * h ≤ i ∧ i < 2 * h + 64) && (active s.tile f 32 (i - 2 * h) || f.z))) ∧
        exec (.zmovw f) s = .next ((s.land (vSlotOf f) 4 [.acc (rowNo f)
          (Reg.ofGrans 64 ((List.range 64).map fun j => if h ≤ j ∧ j < h + 32 then both (j - h) (srcGran s f (j - h)) else .zero)) m]).note .acted)))

/-- R148, R150: a result lands later; nothing else changes when the instruction issues. VQNT with an outlier list also claims ports
(R233). -/
def Obligations.VectorFrame : Prop :=
  ∀ (s t : State) (i : Instr), ((encode i).map (·.1) = some 1 ∨ (encode i).map (·.1) = some 2) →
    (∀ f, i = .vqnt f → f.sub.getLsbD 0 = false) →
    exec i s = .next t → t.tile.issued = .acted →
    t.tile.s = s.tile.s ∧ t.tile.p = s.tile.p ∧ t.tile.v = s.tile.v ∧ t.tile.q = s.tile.q ∧ t.tile.z = s.tile.z ∧ t.tile.rs = s.tile.rs ∧
    t.tile.sr = s.tile.sr ∧ t.tile.pad = s.tile.pad ∧ t.tile.tags = s.tile.tags ∧ t.tile.fq = s.tile.fq ∧ t.mem = s.mem ∧
    ∀ u, u ≠ s.cur → t.tileAt u = s.tileAt u

/-- R187, R190 to R195, Table 6-3: a scratchpad load issues. -/
def Obligations.ScratchpadLoadIssues : Prop :=
  ∀ (s : State) (i : Instr) (p : LoadForm), loadForm s.tile i = some p → i.wf = true →
    (p.Ok s i → ∃ t l, exec i s = .next t ∧ t.tile.issued = .acted ∧ t.tile.inflight = s.tile.inflight ++ [l] ∧ l.waiting = true ∧ l.id = s.nextId ∧
      l.due = s.tile.rclk + p.lat ∧ l.slot = 4 ∧ (∀ w ∈ l.writes, p.dest w) ∧
      (∃ e ∈ t.agenda, e.at_ = s.now + 1 ∧ e.ev = .padRead s.cur s.now s.nextId p.load [] (rowCycles (s.now + 1) p.lim p.allRows)) ∧
      t.tile.s = s.tile.s ∧ t.tile.p = s.tile.p ∧ t.tile.v = s.tile.v ∧ t.tile.pad = s.tile.pad ∧ t.mem = s.mem) ∧
    (p.load.els = [] → p.f.z = false → exec i s = .next (s.note .acted)) ∧
    (p.load.els = [] → p.f.z = true → exec i s = .next ((s.land 4 p.lat [.vec p.f.d.toNat (.zero 32) (BitVec.allOnes 256) (some 2)]).note .acted))

/-- R193, R195: what a load reads. -/
def Obligations.ScratchpadLoadValue : Prop :=
  ∀ (s : State) (t : Tid) (iss id : Nat) (l : PadLoad) (r : Nat) (m : Landing), (s.tileAt t).inflight = [m] → m.id = id → m.waiting = true →
    l.grp = false →
    let pad := (s.tileAt t).pad
    let fills := fun ws => ((s.padRead t iss id l [] [(r, s.now)]).tileAt t).inflight = [{ m with waiting := false, writes := ws }]
    (∀ e, l.els = [e] → e.addr / 256 = r →
      (l.kind = 1 → tyWidth l.type = 64 → tyWidth l.st = 64 → e.addr % 8 = 0 → ∀ n v, m.writes = [.scalar n v] →
        fills [.scalar n (Reg.ofGrans 1 [pad.gran (e.addr / 8)])]) ∧
      (l.kind = 1 → ∀ w ∈ [8, 16, 32], tyWidth l.type = w → tyWidth l.st = w → e.addr % (w / 8) = 0 → (pad.gran (e.addr / 8)).bad = false →
        ∀ n v, m.writes = [.scalar n v] →
        let x := bits (pad.gran (e.addr / 8)).d.toNat (8 * (e.addr % 8)) w
        fills [.scalar n (scalarOf (if tySigned l.type then wrapI 64 (Sys2Proof.sext w x) else x))]) ∧
      (l.kind = 2 → l.type = 0 → l.st = 0 → e.addr % 32 = 0 → ∀ n v k, m.writes = [.pred n v k] →
        fills [.pred n (Reg.ofGrans 4 ((List.range 4).map fun j => pad.gran (e.addr / 8 + j))) k])) ∧
    (l.kind = 0 → ∀ w ∈ [8, 16, 32, 64], tyWidth l.type = w → tyWidth l.st = w →
      l.els = (List.range (2048 / w)).map (fun i => ⟨i, 256 * r + i * w / 8, false, 0⟩) → ∀ n v k q, m.writes = [.vec n v k q] →
      fills [.vec n (Reg.ofGrans 32 ((List.range 32).map fun j => pad.gran (32 * r + j))) k q])

/-- R191, R197 to R199: a scratchpad store issues. -/
def Obligations.ScratchpadStoreIssues : Prop :=
  ∀ (s : State) (i : Instr) (p : StoreForm), storeForm s.tile i = some p → i.wf = true →
    (p.Ok s i → ∃ t, exec i s = .next t ∧ t.tile.issued = .acted ∧ t.tile.inflight = s.tile.inflight ∧ t.tile.s = s.tile.s ∧ t.tile.p = s.tile.p ∧
      t.tile.v = s.tile.v ∧ t.tile.pad = s.tile.pad ∧ t.mem = s.mem ∧
      ∀ r ∈ rowsOf p.addrs, t.tile.pend.get 0 r = s.tile.pend.get 0 r + 1 ∧
        ∃ e ∈ t.agenda, s.now + 4 ≤ e.at_ ∧ e.at_ < s.now + 4 + p.lim ∧
          e.ev = .padWrite s.cur s.now (p.writes.filter fun w => w.g / 32 == r) (p.nibs.filter fun n => rowOf n.1 == r) [r]) ∧
    (p.addrs = [] → exec i s = .next (s.note .acted))

/-- R198, R199: the stored bytes, and the frame. -/
def Obligations.StoreWritesOnlyItsBytes : Prop :=
  ∀ (s : State) (t : Tid) (rows : List Nat), Memory.wf (s.tileAt t).pad →
    let old := (s.tileAt t).pad
    let new := fun (s' : State) => (s'.tileAt t).pad
    let frame := fun (s' : State) (hit : Nat → Prop) => (∀ b, ¬hit b → (new s').byte b = old.byte b) ∧
      (∀ u, u ≠ t → (s'.tileAt u).pad = (s.tileAt u).pad) ∧ s'.mem = s.mem
    (∀ (a n : Nat) (v : Reg 1), n ∈ [1, 2, 4, 8] → a % n = 0 →
      let s' := s.padWrite t (scalarStore a n v) [] rows
      frame s' (fun b => a ≤ b ∧ b < a + n) ∧ ∀ k < n, (new s').byte (a + k) = BitVec.ofNat 8 (bits v.d.toNat (8 * k) 8)) ∧
    (∀ (a : Nat) (v : Reg 4), a % 32 = 0 →
      let s' := s.padWrite t (gwCarry (a / 8) v (2 ^ 32 - 1)) [] rows
      frame s' (fun b => a ≤ b ∧ b < a + 32) ∧ ∀ j < 4, (new s').gran (a / 8 + j) = v.gran j) ∧
    (∀ (v : Reg 32) (es : List (Nat × Nat × Nat)),
      let s' := s.padWrite t (scatter v es) [] rows
      frame s' (fun b => ∃ e ∈ es, e.1 ≤ b ∧ b < e.1 + e.2.2) ∧
      ∀ e ∈ es, ∀ k < e.2.2, (∀ q ∈ es, q ≠ e → ¬(q.1 ≤ e.1 + k ∧ e.1 + k < q.1 + q.2.2)) →
        (new s').byte (e.1 + k) = BitVec.ofNat 8 (bits v.d.toNat (8 * (e.2.1 + k)) 8)) ∧
    (∀ (ns : List Nib),
      let s' := s.padWrite t [] ns rows
      frame s' (fun b => ∃ n ∈ ns, n.addr = b) ∧
      ((∀ q ∈ ns, q.v < 16) → ∀ n ∈ ns, (∀ q ∈ ns, q.addr = n.addr → q.hi = n.hi → q.v = n.v) →
        bits ((new s').byte n.addr).toNat (if n.hi then 4 else 0) 4 = n.v))

/-- R196, R200. -/
def Obligations.TagInstructions : Prop :=
  ∀ (s : State),
    (∀ f : LF, (Instr.ldtag f).wf = true → s.tile.cond f.pred.toNat f.n = true → s.tile.GoodS f.base → s.tile.GoodS f.x →
      s.tile.lAddr f < 2 ^ 21 →
      exec (.ldtag f) s = .next ((s.land 4 4 [.scalar (BitVec.ofNat 6 (f.d.toNat - 328))
        (scalarOf (s.tile.tags.get 0 (s.tile.lAddr f / 256)).toNat)]).note .acted)) ∧
    (∀ f : TF, (Instr.sttag f).wf = true → s.tile.cond f.pred.toNat false = true → s.tile.GoodS f.base →
      Clean (s.tile.scalar (f.data.toNat - 328)) → s.tile.tAddr f < 2 ^ 21 →
      exec (.sttag f) s = .next (((s.onTile fun x => x.addPend [s.tile.tAddr f / 256]).schedule (s.now + 4) (ordWrite s.cur 1)
        (.tagWrite s.cur s.now (s.tile.tAddr f / 256) (BitVec.ofNat 8 (s.tile.sv (f.data.toNat - 328))))).note .acted))

/-- R204, R208, Table 6-3. That GLDV checks alignment and line for its active elements only is the model's reading (log entry 7). -/
def Obligations.GlobalLoadIssues : Prop :=
  ∀ (s : State) (f : LF),
    (∀ pa, (Instr.gld f).wf = true → s.tile.GoodS f.base → s.tile.GoodS f.x → s.tile.cond f.pred.toNat f.n = true →
      s.tile.lAddr f % (tyWidth f.type.toNat / 8) = 0 → s.tile.translate (s.tile.lAddr f) needR = .pa pa →
      exec (.gld f) s = .next (((({ s with nextId := s.nextId + 1 } : State).landHeld 4 48
        [.scalar (BitVec.ofNat 6 (f.d.toNat - 328)) (.zero 1)] s.nextId).schedule (s.now + 4) ordRead
        (.l1Read s.cur s.now s.nextId
          { kind := 1, type := f.type.toNat, st := f.type.toNat, grp := false, els := [{ i := 0, addr := pa, hi := false, recAt := 0 }], act := 1, z := false })).note .acted)) ∧
    (∀ es, (Instr.gldv f).wf = true → es = runOf (s.tile.lAddr f) (tyWidth f.type.toNat) (s.tile.lActive f) →
      (es = [] → f.z = false → exec (.gldv f) s = .next (s.note .acted)) ∧
      (es = [] → f.z = true → exec (.gldv f) s = .next ((s.land 4 48 [.vec f.d.toNat (.zero 32) (BitVec.allOnes 256) (some 2)]).note .acted)) ∧
      (∀ e r pa, es = e :: r → s.tile.GoodS f.base → s.tile.GoodS f.x → OneLine (max 1 (tyWidth f.type.toNat / 8)) es →
        s.tile.translate e.2 needR = .pa pa →
        ∃ t l q, exec (.gldv f) s = .next t ∧ t.tile.issued = .acted ∧ t.tile.inflight = s.tile.inflight ++ [l] ∧ l.waiting = true ∧
          l.hold = true ∧ l.id = s.nextId ∧ l.due = s.tile.rclk + 48 ∧ (∀ w ∈ l.writes, ∃ v m, w = .vec f.d.toNat v m (some 2)) ∧
          (∃ v ∈ t.agenda, v.at_ = s.now + 4 ∧ v.ev = .l1Read s.cur s.now s.nextId q) ∧
          q.els.map (fun d => (d.i, d.addr)) = es.map (fun d => (d.1, inLine pa d.2)) ∧ q.type = q.st ∧ q.grp = false ∧ q.kind = 0 ∧
          t.tile.s = s.tile.s ∧ t.tile.v = s.tile.v ∧ t.mem = s.mem))

/-- R206, R41: where and when a global store performs. That GSTV checks alignment and line for its active elements only is the model's
reading (log entry 7). -/
def Obligations.GlobalStoreIssues : Prop :=
  ∀ (s : State) (f : TF),
    (∀ pa, (Instr.gst f).wf = true → s.tile.GoodS f.base → s.tile.translate (s.tile.tAddr f) needW = .pa pa → s.tile.cond f.pred.toNat false = true →
      s.tile.tAddr f % (tyWidth f.type.toNat / 8) = 0 →
      exec (.gst f) s = .next (storesLater s (scalarStore pa (tyWidth f.type.toNat / 8) (s.tile.scalar (f.data.toNat - 328))))) ∧
    (∀ w es, (Instr.gstv f).wf = true → w = max 1 (tyWidth f.type.toNat / 8) → es = runOf (s.tile.tAddr f) (8 * w) (s.tile.tActive f (8 * w)) →
      (es = [] → exec (.gstv f) s = .next (s.note .acted)) ∧
      (∀ e r pa, es = e :: r → s.tile.GoodS f.base → OneLine w es → s.tile.translate e.2 needW = .pa pa →
        exec (.gstv f) s = .next (storesLater s (scatter (s.tile.vreg f.data.toNat) (es.map fun d => (inLine pa d.2, d.1 * w, w))))))

/-- R205, R207. That a freezing GFLUSH has its write-back at the cycle after it is asked for is the model's reading (log entry 7). -/
def Obligations.PrefetchAndFlush : Prop :=
  ∀ (s : State),
    (∀ f : LF, (Instr.gpref f).wf = true → s.tile.cond f.pred.toNat f.n = true → s.tile.GoodS f.base → s.tile.GoodS f.x →
      ∃ t, exec (.gpref f) s = .next t ∧ t.tile.issued = .acted ∧ t.tile.s = s.tile.s ∧ t.tile.v = s.tile.v ∧ t.tile.inflight = s.tile.inflight ∧
        t.mem = s.mem ∧ ∀ pa, s.tile.translate (s.tile.lAddr f) needR = .pa pa → ∀ k < 4,
          (∀ w l, s.tile.l1Find (pa / 256) = some (w, l) → bits l.v.toNat (16 * k) 16 ≠ 2 ^ 16 - 1) → 4 * (pa / 256) + k ∈ t.tile.fills) ∧
    (∀ (f : TF) (line : Option Nat), (Instr.gflush f).wf = true → s.tile.cond f.pred.toNat false = true → s.tile.GoodS f.base →
      (f.data.getLsbD 1 = true ∧ line = none ∨ f.data.getLsbD 1 = false ∧ ∃ pa, s.tile.translate (s.tile.tAddr f) 0 = .pa pa ∧ line = some (pa / 256)) →
      let dirty := s.tile.flushDirty line || s.l1Stores s.cur line
      (dirty = false → exec (.gflush f) s = .next ((if f.data.getLsbD 0 then s.flushInv s.cur line else s).note .acted)) ∧
      (dirty = true → s.tile.timed = true → exec (.gflush f) s = .next (s.raise (s.tile.classS 5 5 (sInfo 5 0 0 0)))) ∧
      (dirty = true → s.tile.timed = false →
        exec (.gflush f) s = .next ((s.schedule (s.now + 1) (ordWrite s.cur 1) (.l1Back s.cur line)).freeze (.l1wb line))))

/-- R209 to R211, Table 6-3. That a scratchpad atomic acts whatever its bank's format is the model's reading (log entry 6). -/
def Obligations.AtomicIssues : Prop :=
  ∀ (s : State) (f : TF), ∀ e ∈ atomics, (e.1 f).wf = true → s.tile.cond f.pred.toNat false = true →
    let a := s.tile.amo e.2 f
    s.tile.GoodS f.base → Clean (s.tile.scalar a.val) → Clean (s.tile.scalar a.ret) → a.addr % (tyWidth a.type / 8) = 0 →
    (a.rel = true → s.releaseGate 5 a.scope false = ([], none)) →
    (a.global = false → a.addr < 2 ^ 21 → s.tile.isLate (a.addr / 256) = false →
      (s.tile.st stERC = true → s.tile.pend.get 0 (a.addr / 256) = 0) →
      PortsFree s.tile 5 (planPorts (s.tile.bothBusy s.now) (s.now + 4) 1 [a.addr / 256]) →
      ∃ t l, exec (e.1 f) s = .next t ∧ t.tile.issued = .acted ∧ t.tile.inflight = s.tile.inflight ++ [l] ∧ l.waiting = true ∧
        l.due = s.tile.rclk + 6 ∧ l.writes = [.scalar (BitVec.ofNat 6 a.ret) (.zero 1)] ∧
        (∃ q ∈ t.agenda, q.at_ = s.now + 4 ∧ q.ev = .padAtomic s.cur s.now s.nextId s.tile.pc a.type e.2 a.addr (s.tile.sv a.val) (s.tile.sv a.ret)
          a.acq) ∧ t.tile.s = s.tile.s ∧ t.tile.pad = s.tile.pad) ∧
    (a.global = true → ∀ pa, s.tile.translate a.addr needRW = .pa pa →
      ∃ t l, exec (e.1 f) s = .next t ∧ t.tile.issued = .acted ∧ t.tile.inflight = s.tile.inflight ++ [l] ∧ l.waiting = true ∧
        l.due = s.tile.rclk + 64 ∧ l.writes = [.scalar (BitVec.ofNat 6 a.ret) (.zero 1)] ∧
        (∃ q ∈ t.agenda, q.at_ = s.now + 32 ∧ q.ev = .l2Atomic s.cur s.now s.nextId a.type e.2 pa (s.tile.sv a.val) (s.tile.sv a.ret) a.acq) ∧
        t.tile.s = s.tile.s ∧ t.mem = s.mem)

/-- R210: integer atomics. -/
def Obligations.AtomicValue : Prop :=
  (∀ (t old v cmp : Nat), tyF t = false → old < 2 ^ tyWidth t → v < 2 ^ tyWidth t → cmp < 2 ^ tyWidth t →
    amoNew 0x08 t old v cmp = some ((old + v) % 2 ^ tyWidth t) ∧
    (∃ n, amoNew 0x0A t old v cmp = some n ∧ ival t n = min (ival t old) (ival t v)) ∧
    (∃ n, amoNew 0x0B t old v cmp = some n ∧ ival t n = max (ival t old) (ival t v)) ∧
    amoNew 0x0C t old v cmp = some (old &&& v) ∧ amoNew 0x0D t old v cmp = some (old ||| v) ∧ amoNew 0x0E t old v cmp = some (old ^^^ v) ∧
    amoNew 0x0F t old v cmp = some v ∧ amoNew 0x10 t old v cmp = if old = cmp then some v else none) ∧
  (∀ (old v cmp : Nat), old < 2 ^ 32 → v < 2 ^ 32 →
    amoNew 0x09 10 old v cmp = some (fAdd 0 10 0 old v).1 ∧
    ((fval 10 old).isNan = true ∨ (fval 10 v).isNan = true → ∀ op ∈ [0x09, 0x0A, 0x0B], amoNew op 10 old v cmp = some 0x7FC00000) ∧
    (old % 2 ^ 31 = 0 → v % 2 ^ 31 = 0 → amoNew 0x0A 10 old v cmp = some (max old v) ∧ amoNew 0x0B 10 old v cmp = some (min old v)))

/-- R41, R43, R68, R206, R210, R211, R286, R287: what performs at basin memory, and the frame. When an atomic's value returns is free (log
entry 3). -/
def Obligations.MemoryWritesPerform : Prop :=
  ∀ (s : State) (t : Tid), Memory.wf s.mem → (∀ a, s.shadowAt (some t) a = none) →
    let frame := fun (s' : State) (hit : Nat → Prop) => (∀ b, ¬hit b → s'.mem.byte b = s.mem.byte b) ∧ ∀ u, (s'.tileAt u).pad = (s.tileAt u).pad
    (∀ (a n : Nat) (v : Reg 1), n ∈ [1, 2, 4, 8] → a % n = 0 →
      (let s' := s.l2Write t (scalarStore a n v)
       frame s' (fun b => a ≤ b ∧ b < a + n) ∧ ∀ k < n, s'.mem.byte (a + k) = BitVec.ofNat 8 (bits v.d.toNat (8 * k) 8)) ∧
      (let s' := s.l1Write t (scalarStore a n v)
       let p := s.lineSlot t (a / 256)
       let o := a % 256
       ∀ l, (p.2.tileAt t).l1.get none p.1 = some l → frame s' (fun _ => False) ∧
         ∃ l', (s'.tileAt t).l1.get none p.1 = some l' ∧ l'.tag = l.tag ∧ l'.v = l.v ∧ l'.own = l.own ∧
           (∀ k < n, bits l'.data.d.toNat (8 * (o + k)) 8 = bits v.d.toNat (8 * k) 8) ∧
           (∀ b < 256, l'.dirty.getLsbD b = (l.dirty.getLsbD b || decide (o ≤ b) && decide (b < o + n))) ∧
           ∀ b < 256, b < o ∨ o + n ≤ b → l.dirty.getLsbD b = true ∨ l.v.getLsbD (b / 4) = true →
             bits l'.data.d.toNat (8 * b) 8 = bits l.data.d.toNat (8 * b) 8)) ∧
    (∀ (v : Reg 32) (es : List (Nat × Nat × Nat)),
      let s' := s.l2Write t (scatter v es)
      frame s' (fun b => ∃ e ∈ es, e.1 ≤ b ∧ b < e.1 + e.2.2) ∧
      ∀ e ∈ es, ∀ k < e.2.2, (∀ q ∈ es, q ≠ e → ¬(q.1 ≤ e.1 + k ∧ e.1 + k < q.1 + q.2.2)) →
        s'.mem.byte (e.1 + k) = BitVec.ofNat 8 (bits v.d.toNat (8 * (e.2.1 + k)) 8)) ∧
    (∀ (id type op pa v cmp w : Nat) (acq : Bool), w = tyWidth type → w ∈ [32, 64] → pa % (w / 8) = 0 →
      let s' := s.l2Atomic t id type op pa v cmp acq
      let old := bits (s.mem.gran (pa / 8)).d.toNat (8 * (pa % 8)) w
      (amoNew op type old v cmp = none → frame s' (fun _ => False)) ∧
      (∀ new, amoNew op type old v cmp = some new → frame s' (fun b => pa ≤ b ∧ b < pa + w / 8) ∧
        ∀ k < w / 8, s'.mem.byte (pa + k) = BitVec.ofNat 8 (bits new (8 * k) 8)) ∧
      ∃ e ∈ s'.agenda, s.now < e.at_ ∧ ∃ r, e.ev = .event .globalAtomicReturn r ∧ r.t = t ∧ r.n = id ∧
        r.w = BitVec.ofNat 64 (if w = 64 then old else amoOld type old)) ∧
    (∀ (id : Nat) (r : CopyRun), (s.tileAt t).run? id = some r →
      let s' := s.copyPerform t id
      (∀ q ∈ (s'.tileAt t).copies, q.id ≠ id) ∧
      (r.cfg.path = 2 → frame s' (fun b => ∃ g ∈ r.memGrans, r.phys g = b / 8) ∧
        ∀ g w e, r.cfg.tensor = none → r.memGrans = [g] → buildGran r.got (s.mem.gran (r.phys g)) g (r.memNib [] 1) = (some w, e) →
          s'.mem = s.mem.write { w with g := r.phys g }) ∧
      (r.cfg.path = 3 → frame s' (fun b => ∃ e ∈ r.redEls, r.physByte e.1 ≤ b ∧ b < r.physByte e.1 + tyWidth r.redType / 8)))

/-- R395, R399 to R401. -/
def Obligations.PipeInstructions : Prop :=
  ∀ (s : State),
    (∀ (f : TF) (w : Nat), w = s.tile.sv f.base.toNat → s.tile.cond f.pred.toNat false = true → s.tile.GoodS f.base →
      (s.pipe (pwPipe w)).bound = true → pwProd w < (s.pipe (pwPipe w)).prod →
      ((Instr.ppush f).wf = true → (s.pipe (pwPipe w)).full = false →
        exec (.ppush f) s = .next ((((s.markEffect s.cur).modPipe (pwPipe w) fun q => { q with reserved := q.reserved + 1 }).schedule (s.now + 24)
          (ordPipe (pwProd w)) (.pipePush s.cur s.now (pwPipe w) (pwProd w) (s.pipe (pwPipe w)).gen (s.tile.pushEntry f.data.toNat))).note .acted)) ∧
      ((Instr.peos f).wf = true →
        exec (.peos f) s = .next (((s.markEffect s.cur).schedule (s.now + 24) (ordPipe (pwProd w))
          (.pipeMark s.cur s.now (pwPipe w) (pwProd w) (s.pipe (pwPipe w)).gen)).note .acted))) ∧
    (∀ (f : TF) (w : Nat), w = s.tile.sv f.base.toNat → s.tile.cond f.pred.toNat false = true → s.tile.GoodS f.base →
      let q := s.pipe (pwPipe w)
      (∀ i, (i = .ppush f ∨ i = .peos f) → i.wf = true →
        (q.bound = false → exec i s = .next (s.raise (s.tile.classS 5 0xF (taskInfo 3 (pwPipe w))))) ∧
        (q.bound = true → q.prod ≤ pwProd w → exec i s = .next (s.raise (s.tile.classS 5 0xF (taskInfo 4 (pwPipe w)))))) ∧
      ((Instr.ppush f).wf = true → q.bound = true → pwProd w < q.prod → q.full = true →
        exec (.ppush f) s = .next (if s.tile.timed then s.raise (s.tile.classS 5 0xF (taskInfo 2 (pwPipe w))) else s.freeze (.pushPipe (pwPipe w))))) ∧
    (∀ (f : LF) (p : Nat), p = pwPipe (s.tile.sv f.base.toNat) → (Instr.ppop f).wf = true → s.tile.cond f.pred.toNat f.n = true →
      s.tile.GoodS f.base →
      ((s.pipe p).bound = false → exec (.ppop f) s = .next (s.raise (s.tile.classS 4 0xF (taskInfo 3 p)))) ∧
      ((s.pipe p).bound = true → (s.pipe p).oldest s.now = none → (s.pipe p).ended = false →
        exec (.ppop f) s = .next (if s.tile.timed then s.raise (s.tile.classS 4 0xF (taskInfo 1 p)) else s.freeze (.popPipe p)))) ∧
    (∀ (f : LF) (p : Nat), p = pwPipe (s.tile.sv f.base.toNat) → (Instr.ppop f).wf = true → s.tile.cond f.pred.toNat f.n = true →
      s.tile.GoodS f.base → (s.pipe p).bound = true →
      (∀ v, (s.pipe p).oldest s.now = some v → exec (.ppop f) s = .next (((s.popEntry p).land 4 6 (popWrites f (some v))).note .acted)) ∧
      ((s.pipe p).oldest s.now = none → (s.pipe p).ended = true →
        exec (.ppop f) s = .next ((s.land 4 6 [.pred (BitVec.ofNat 5 f.x.toNat) (Reg.fresh 4 (2 ^ 256 - 1)) (BitVec.allOnes 256)]).note .acted)))

/-- R251 to R269: issue of a matrix command, with a start offset and without one. -/
def Obligations.MatrixCommandJoins : Prop :=
  ∀ (s : State) (f : MF), s.tile.trp = false → ∀ e ∈ matrixForms s f, e.1.wf = true → e.2.2 → s.tile.mSched e.2.1 = [] →
    (f.start ≠ 0 → exec e.1 s = .next (queues s e.2.1)) ∧
    (f.start = 0 → ∃ t, exec e.1 s = .next t ∧ t.tile.issued = .acted ∧ t.tile.s = s.tile.s ∧ t.tile.v = s.tile.v ∧ t.tile.z = s.tile.z ∧
      t.tile.pad = s.tile.pad ∧ t.mem = s.mem ∧
      (Latches s e.2.1 → t.tile.mq.length = s.tile.mq.length + 1 ∧ t.tile.dueF = s.tile.dueF) ∧
      (¬Latches s e.2.1 → ∃ q, t.tile.dueF = s.tile.dueF ++ [q]) ∧
      ((∀ m ∈ s.tile.mq, m.id ≠ s.nextId) →
        (Latches s e.2.1 → ∃ d, t.tile.mq = s.tile.mq ++ [d] ∧ d.id = s.nextId ∧ d.o = e.2.1.o ∧
          (d.usesW = true → d.image = some (s.tile.w.get .empty d.f.w.toNat)) ∧
          (d.o = 0x09 → d.dfmt < 2 → d.params = (List.range 3).map fun k => s.tile.vec (308 + 3 * d.f.w.toNat + k))) ∧
        (¬Latches s e.2.1 → t.tile.mq = s.tile.mq)))

/-- R104, R105, R257, R258, R260, R261, R263 to R267, R271. Flags and the last stage of a float sum follow log entry 8. -/
def Obligations.MatrixRowsWritten : Prop :=
  (∀ (x : Tile) (c : MCmd) (i : Nat), i < c.rows →
    let at_ := c.s + c.lat + i
    let n := c.f.zrow0.toNat + i
    let old := x.acc (c.accRow i)
    let z := fun j => bits old.d.toNat (32 * j) 32
    let row := fun (g : Nat → Nat) => Reg.fresh 64 (packNat 32 ((List.range 128).map g))
    let writes := fun (w : Reg 64) (fl : Nat) => c.writeAt x at_ = (c, c.rowOut i w fl, none)
    let src := c.src.get (.zero 32)
    let ctl := c.fpctl.toNat
    (c.o = 0x05 → writes (.zero 64) 0) ∧
    (c.o = 0x06 → writes (row fun _ => c.base.d.toNat) 0) ∧
    (c.o = 0x0A → ∃ w, writes w 0 ∧ ∀ j < 32, w.gran j = (src i).gran j ∧ w.gran (32 + j) = (c.src2.get (.zero 32) i).gran j) ∧
    (∀ v, c.image = some v → v.kl ≤ 2048 / modeBits v.mode →
      let adds := c.o = 0x02 ∨ c.o = 0x04 ∧ c.conv i ≠ .past
      let a := fun (k : Nat) => (if c.f.sgnA then Sys2Proof.sext (modeBits v.mode) (bits (src i).d.toNat (modeBits v.mode * k) (modeBits v.mode))
        else bits (src i).d.toNat (modeBits v.mode * k) (modeBits v.mode) : Int)
      let dot := fun (j : Nat) => ((List.range v.kl).map fun k => a k * v.iEl c.f.sgnB v.codes k j).sum
      let sum := fun (z : FVal) (j : Nat) => mmasum ctl z ((List.range v.kl).map fun k =>
        mulV (fin ctl (modeType v.mode) (bits (src i).d.toNat (16 * k) 16)) (v.fEl ctl v.codes k j))
      let flags := fun (g : Nat → Res) => (List.range 128).foldl (fun f j => f ||| (g j).2) 0
      (2 ≤ v.mode → (adds → Clean old → writes (row fun j => satOr c.f.sat 4 (dot j + ival 4 (z j))) 0) ∧
        (c.o = 0x03 → writes (row fun j => satOr c.f.sat 4 (dot j)) 0) ∧
        (c.o = 0x07 → c.writeAt x at_ = (c, { MOut.none with rs := some (n, scalarOf (wrapI 32 ((List.range v.kl).map a).sum)) }, none))) ∧
      (v.mode < 2 → (adds → Clean old → let g := fun j => sum (fval 10 (z j)) j
          writes (row fun j => (g j).1) (flags g)) ∧
        (c.o = 0x03 → let g := fun j => sum (.fin true 0 0) j
          writes (row fun j => (g j).1) (flags g))) ∧
      (c.o = 0x04 → c.conv i = .past → c.writeAt x at_ =
        (c, { MOut.none with land := some (c.result [] 0 (BitVec.ofNat 64 (2 ^ stCVO))) }, none)) ∧
      (c.o = 0x08 → Clean old → Clean (x.rowSum n) → Clean v.colsum →
        let za : Int := if c.f.sgnA then Sys2Proof.sext 8 c.f.pitch.toNat else c.f.pitch.toNat
        let zb := fun (j : Nat) => (if c.f.sgnB then Sys2Proof.sext 8 (bits (src 0).d.toNat (8 * j) 8) else bits (src 0).d.toNat (8 * j) 8 : Int)
        writes (row fun j => satOr c.f.sat 4 (ival 4 (z j) +
          (-(zb j * Sys2Proof.sext 32 (x.rowSum n).d.toNat) - za * columnAt v.colsum j + v.kl * za * zb j))) 0) ∧
      (adds ∨ c.o = 0x08 → ∀ b, old.firstBad (fun _ => true) = some b → c.writeAt x at_ = (c, .none, some (c.bad n b)))) ∧
    (c.o = 0x09 →
      let m := fun (j : Nat) => ival 4 (bits (c.params.getD (j / 64) (.zero 32)).d.toNat (32 * (j % 64)) 32)
      let p := (c.params.getD 2 (.zero 32)).d.toNat
      let sh := fun (j : Nat) => bits p (8 * j) 6
      let out := fun (j : Nat) =>
        if c.dfmt < 2 then satT (1 - c.dfmt)
          ((ival 4 (z j) * m j + if sh j = 0 then 0 else 2 ^ (sh j - 1)) / 2 ^ sh j + Sys2Proof.sext 32 (bits p 1024 32))
        else if c.dfmt = 2 then (cvt (ctl &&& (2 ^ 64 - 2)) 10 8 0 false (z j)).1 else z j
      let all := packNat (if c.dfmt < 2 then 8 else if c.dfmt = 2 then 16 else 32) ((List.range 128).map out)
      (Clean old → (c.dfmt < 2 → c.params.length = 3) → (c.writeAt x (c.s + 2 + i)).2.2 = none ∧
        (c.writeAt x (c.s + 2 + i)).1.src.get (.zero 32) i = Reg.fresh 32 (all % 2 ^ 2048) ∧
        (c.writeAt x (c.s + 2 + i)).1.src2.get (.zero 32) i = Reg.fresh 32 (all / 2 ^ 2048)) ∧
      (∀ b, old.firstBad (fun _ => true) = some b → (c.writeAt x (c.s + 2 + i)).2 = (.none, some (c.bad n b))) ∧
      ((i + 6 < c.rows → Clean (x.acc (c.accRow (i + 6)))) → let o := (c.writeAt x at_).2
        o.2 = none ∧ o.1.rs = none ∧ o.1.rows = c.drains i ∧
        o.1.land = some (c.result [.latch 3 (src i) (BitVec.ofNat 256 (2 ^ 256 - 1))] (fpFlags 8 (c.fls.get 0 i)) 0) ∧
        o.1.pad = gwCarry (c.addr i / 8) (src i) (2 ^ (if c.dfmt < 2 then 128 else 256) - 1) ++
          (if c.dfmt = 3 then gwCarry ((c.addr i + 32768) / 8) (c.src2.get (.zero 32) i) (2 ^ 256 - 1) else [])))) ∧
  (∀ (x : Tile) (now : Nat) (c : MCmd) (o : MOut), x.mq = [c] →
    c.readAt { x with mclk := x.mclk + 1 } now (x.mclk + 1) = (c, none, false) →
    (∀ y : Tile, y.z = x.z → y.rs = x.rs → c.writeAt y (x.mclk + 1) = (c, o, none)) →
    let y := x.matrixStep now
    y.mclk = x.mclk + 1 ∧ y.mxNow = x.mxNow ++ o.land.toList ∧ y.pad = x.pad.writes o.pad ∧ y.z = x.z ∧
      (∀ r, o.rs = some r → y.rowSum r.1 = r.2) ∧ (∀ n, (∀ v, o.rs ≠ some (n, v)) → y.rowSum n = x.rowSum n) ∧ y.s = x.s ∧ y.v = x.v)

/-- R425, R426. -/
def Obligations.ArrayImageInHandler : Prop :=
  ∀ (s : State) (f : MF), s.tile.sv? = true → s.tile.trp = true → s.tile.GoodS f.abase → s.tile.sv f.abase.toNat % 256 = 0 →
    s.tile.sv f.abase.toNat + 192 * 256 ≤ 2 ^ 21 →
    ((Instr.mxsave f).wf = true → ∃ t rows, exec (.mxsave f) s = .next t ∧ t.tile.issued = .acted ∧ t.tile.mxAt = some (s.tile.sv f.abase.toNat) ∧
      t.mxImages = (rows, s.tile.mclk, s.tile.mq) :: s.mxImages ∧ rows.length = 192 ∧
      (rows.getD 0 (.zero 32)).d.toNat = 0x4D584131 + 1 * 2 ^ 32 + s.tile.tcyc.toNat * 2 ^ 64 ∧ t.tile.s = s.tile.s ∧ t.tile.v = s.tile.v ∧ t.tile.mq = s.tile.mq ∧
      ∀ j < 192, ∃ e ∈ t.agenda, e.at_ = s.now + 1 + j ∧ e.ev = .mxRow s.cur (s.tile.sv f.abase.toNat / 256 + j) (rows.getD j (.zero 32))) ∧
    ((Instr.mxrest f).wf = true → (s.tile.pad.gran (s.tile.sv f.abase.toNat / 8)).bad = false → mxHeaderErr (s.tile.pad.reg (s.tile.sv f.abase.toNat / 8) 32) = none →
      exec (.mxrest f) s = .next (((s.onTile fun x => { x with mxBusy := max x.mxBusy (s.now + 193) }).schedule (s.now + 1) ordRead
        (.mxrest s.cur (s.tile.sv f.abase.toNat / 256) 0 [])).note .acted))

/-- R80 to R82, Table 3-8. R82 gives issue + 4 for a scratchpad row; that it waits for taken ports, in both modes, is the model's choice
(log entries 6 and 28). -/
def Obligations.FaultInjection : Prop :=
  ∀ (s : State) (f : SF) (n m p : Nat), n = f.imm32.toNat % 512 → m = s.tile.sv f.a.toNat → p = s.tile.sv f.b.toNat →
    (Instr.rinj f).wf = true → s.tile.sv? = true → s.tile.cond f.pq.toNat f.neg = true → s.tile.GoodS f.a → s.tile.GoodS f.b →
    (f.imm32.toNat / 512 % 8 = 0 → exec (.rinj f) s = .next ((s.land 0 1
      (injectWrite 32 m (.vec n (injectReg (f.imm32.toNat / 4096 % 4) m p (s.tile.vec n)) (BitVec.ofNat 256 (selMask 8 32 m)) none))).note .acted)) ∧
    (f.imm32.toNat / 512 % 8 = 1 → exec (.rinj f) s = .next ((s.land 0 1
      (injectWrite 1 m (.scalar (BitVec.ofNat 6 n) (injectReg (f.imm32.toNat / 4096 % 4) m p (s.tile.scalar n))))).note .acted)) ∧
    (f.imm32.toNat / 512 % 8 = 2 → exec (.rinj f) s = .next ((s.land 0 1
      (injectWrite 4 m (.pred (BitVec.ofNat 5 n) (injectReg (f.imm32.toNat / 4096 % 4) m p (s.tile.pred n)) (BitVec.ofNat 256 (selMask 64 4 m))))).note .acted)) ∧
    (f.imm32.toNat / 512 % 8 = 3 → s.tile.GoodS f.d → s.tile.sv f.d.toNat < 2 ^ 21 →
      ∃ t e, exec (.rinj f) s = .next t ∧ t.tile.issued = .acted ∧ e ∈ t.agenda ∧
        (s.tile.bothBusy s.now (s.now + 4) (s.tile.sv f.d.toNat / 256 / 128) = false → e.at_ = s.now + 4) ∧
        s.now + 4 ≤ e.at_ ∧ e.at_ ≤ s.now + 4 + 256 ∧
        (∀ c, s.now + 4 ≤ c → c < e.at_ → s.tile.bothBusy s.now c (s.tile.sv f.d.toNat / 256 / 128) = true) ∧
        t.tile.pend.get 0 (s.tile.sv f.d.toNat / 256) = s.tile.pend.get 0 (s.tile.sv f.d.toNat / 256) + 1 ∧
        e.ev = .padInject s.cur s.now (s.tile.sv f.d.toNat / 256) (f.imm32.toNat / 4096 % 4) m p ∧ t.tile.pad = s.tile.pad) ∧
    (∀ a j (g : Gran), bit m j = false → injectGran a m p j g = g) ∧
    (∀ j (g : Gran), bit m j = true → (injectGran 1 m p j g).r = g.r ∧ (injectGran 0 m p j g).d = g.d ∧ (injectGran 2 m p j g).bad = true)

/-- R164, R166, R167 (Tables 6-8, 6-9). -/
def Obligations.BranchResult : Prop :=
  ∀ (s : State) (f : YF),
    let near := s.tile.pc + (f.arg.signExtend 64 <<< 6)
    let a : Word := BitVec.ofNat 64 (s.tile.sv (YF.a f))
    (∀ k, exec (.nop k) s = .next (s.note .acted)) ∧
    ((Instr.br f).wf = true → s.tile.cond f.pred.toNat f.neg = true → exec (.br f) s = .next (takes s near)) ∧
    ((Instr.brp f).wf = true → (s.tile.pred f.pred.toNat).d.toNat ≠ (if f.neg then 2 ^ 256 - 1 else 0) →
      exec (.brp f) s = .next (takes s near)) ∧
    ((Instr.brs f).wf = true → s.tile.cond f.pred.toNat f.neg = true → Clean (s.tile.scalar (YF.a f)) →
      exec (.brs f) s = .next (if brsTaken (YF.b f) a then takes s (s.tile.pc + ((BitVec.ofNat 8 (YF.x f)).signExtend 64 <<< 6))
        else s.note .acted)) ∧
    ((Instr.jr f).wf = true → s.tile.cond f.pred.toNat f.neg = true → Clean (s.tile.scalar (YF.a f)) → exec (.jr f) s = .next (takes s a)) ∧
    ((Instr.call f).wf = true → s.tile.cond f.pred.toNat f.neg = true → exec (.call f) s = .next (takes (links s) near)) ∧
    ((Instr.callr f).wf = true → s.tile.cond f.pred.toNat f.neg = true → Clean (s.tile.scalar (YF.a f)) →
      exec (.callr f) s = .next (takes (links s) a)) ∧
    ((Instr.ret f).wf = true → s.tile.cond f.pred.toNat f.neg = true → s.tile.GoodS 62 → exec (.ret f) s = .next (takes s (s.tile.word 62)))

/-- R165, R168 to R170. R169 states no TRAPINFO for class S 0x9: that it is 0 is the model's reading (log entry 5). -/
def Obligations.LoopsAndFetchQueue : Prop :=
  (∀ (s : State) (f : YF) (i : Instr) (count : Nat),
    (i = .loop f ∧ count = s.tile.sv (YF.a f) ∧ Clean (s.tile.scalar (YF.a f)) ∨ i = .loopi f ∧ count = bits f.arg.toNat 0 12) →
    i.wf = true → s.tile.cond f.pred.toNat f.neg = true →
    let l := (s.tile.sreg srLLVL).toNat
    (l < 4 → ∃ t, exec i s = .next t ∧ t.tile.issued = .acted ∧ t.tile.sreg (srLBEG + l) = s.tile.pc + 64 ∧
      t.tile.sreg (srLFIN + l) = s.tile.pc + BitVec.ofNat 64 (64 * YF.x f) ∧ t.tile.sreg (srLCNT + l) = BitVec.ofNat 64 (max count 1) ∧
      (t.tile.sreg srLLVL).toNat = l + 1 ∧ t.tile.s = s.tile.s ∧ t.tile.p = s.tile.p ∧ t.tile.v = s.tile.v ∧ t.tile.inflight = s.tile.inflight ∧
      (∀ n, n ∉ [srLBEG + l, srLFIN + l, srLCNT + l, srLLVL] → t.tile.sreg n = s.tile.sreg n) ∧ t.mem = s.mem) ∧
    (4 ≤ l → exec i s = .next (s.raise (s.tile.classS 7 9 0)))) ∧
  (∀ (x : Tile) (a b c : Word), x.fq = [a, b, c] →
    (∀ t, x.branch = some t → x.advance.fq = [b, c, t] ∧ x.advance.branch = none ∧ x.advance.sr = x.sr) ∧
    (x.branch = none → x.sreg srLLVL = 0 → x.advance.fq = [b, c, c + 64] ∧ x.advance.sr = x.sr) ∧
    (∀ l < 4, x.branch = none → (x.sreg srLLVL).toNat = l + 1 →
      (x.sreg (srLFIN + l) ≠ c → x.advance.fq = [b, c, c + 64] ∧ x.advance.sr = x.sr) ∧
      (x.sreg (srLFIN + l) = c → 1 < (x.sreg (srLCNT + l)).toNat →
        x.advance.fq = [b, c, x.sreg (srLBEG + l)] ∧ x.advance.sreg (srLCNT + l) = x.sreg (srLCNT + l) - 1 ∧
        x.advance.sreg srLLVL = x.sreg srLLVL) ∧
      (x.sreg (srLFIN + l) = c → (x.sreg (srLCNT + l)).toNat ≤ 1 → l = 0 →
        x.advance.fq = [b, c, c + 64] ∧ x.advance.sreg srLLVL = 0) ∧
      (x.sreg (srLFIN + l) = c → (x.sreg (srLCNT + l)).toNat ≤ 1 → x.advance = (x.setSreg srLLVL (BitVec.ofNat 64 l)).advance)))

/-- R46, R47, R171, R173, R333, R385. The second invalidation of an acquire in free mode is the model's reading (log entry 7). -/
def Obligations.OrderingInstructions : Prop :=
  ∀ (s : State) (f : YF), s.tile.cond f.pred.toNat f.neg = true →
    ((Instr.fence f).wf = true →
      let rel := bit f.arg.toNat 1
      let scope := bits f.arg.toNat 2 3
      (rel = true → Released s scope (bit f.arg.toNat 5)) →
      let s1 := if rel = true ∧ 2 ≤ scope then s.closeCombine s.cur else s
      exec (.fence f) s = .next ((if bit f.arg.toNat 0 then s1.acquireTile s.cur s.now else s1).note .acted)) ∧
    ((Instr.sync f).wf = true → (2 ≤ syncLevel f → Clean (s.tile.scalar (YF.a f))) →
      (syncLevel f = 3 → s.reachErr (s.tile.sv (YF.a f) % 2 ^ 12) = false) →
      ∃ t m, exec (.sync f) s = .next t ∧ t.tile.issued = .acted ∧ t.tile.run = .sync (BitVec.ofNat 2 (syncLevel f)) (syncTimed f) m none ∧
        (syncLevel f = 2 → m = BitVec.ofNat 32 (s.tile.sv (YF.a f))) ∧ t.tile.s = s.tile.s ∧ t.tile.fq = s.tile.fq) ∧
    ((Instr.waitc f).wf = true → Clean (s.tile.scalar (YF.a f)) → Clean (s.tile.scalar (YF.b f)) →
      let k := s.tile.sv (YF.a f) % 4096
      let thr := s.tile.sv (YF.b f)
      (s.counterMet k thr = true → exec (.waitc f) s = .next ((s.acquireTile s.cur s.now).note .acted)) ∧
      (s.counterMet k thr = false → s.tile.timed = false → exec (.waitc f) s = .next (s.freeze (.counter k thr))) ∧
      (s.counterMet k thr = false → s.tile.timed = true → exec (.waitc f) s = .next (s.raise (s.tile.classS 7 0xB (taskInfo 1 k))))) ∧
    ((Instr.waith f).wf = true →
      let h := s.tile.handle (waithHandle f)
      (h.settled (waithLevel f) = true → (waithTrap f = true → h.failed = false) →
        exec (.waith f) s = .next ((s.acquireTile s.cur s.now).note .acted)) ∧
      (h.settled (waithLevel f) = false → s.tile.timed = false →
        exec (.waith f) s = .next (s.freeze (.handle (Fin.ofNat 32 (waithHandle f)) (waithLevel f)))) ∧
      (h.settled (waithLevel f) = false → s.tile.timed = true →
        exec (.waith f) s = .next (s.raise (s.tile.classS 7 0xD (4 * 2 ^ 12 + waithHandle f * 2 ^ 7)))) ∧
      (h.settled (waithLevel f) = true → waithTrap f = true → h.failed = true →
        ∃ q, exec (.waith f) s = .next (s.raise q) ∧ q.2.cls = clsW ∧ q.2.low = BitVec.ofNat 4 h.ferr.toNat))

/-- R407, R420, R421, R424, R427, R429, R452. That a task whose class M trap was double fails at its handler's end, and when its
HALT retires it, rests on log entry 10. -/
def Obligations.TrapInstructions : Prop :=
  ∀ (s : State) (f : YF), s.tile.cond f.pred.toNat f.neg = true →
    ((Instr.trap f).wf = true → Clean (s.tile.scalar (YF.a f)) →
      exec (.trap f) s = .next ((s.onTile fun x => { x with trapDue := some {
        cls := 8, low := BitVec.ofNat 4 (YF.x f), info := BitVec.ofNat 64 (s.tile.sv (YF.a f)), kind := .after, pc := s.tile.pc } }).note .acted)) ∧
    ((Instr.bkpt f).wf = true →
      exec (.bkpt f) s = .next ((if s.tile.trp then s else s.onTile fun x => { x with trapDue := some {
        cls := 9, low := 2, info := BitVec.ofNat 64 (YF.x f), kind := .after, pc := s.tile.pc } }).note .acted)) ∧
    ((Instr.eret f).wf = true → s.admits (.eret f) = true →
      (s.tile.gaveUp = false → exec (.eret f) s = .next ((s.onTile fun x => { x with run := .returning }).note .acted)) ∧
      (s.tile.gaveUp = true → exec (.eret f) s = .next ((s.failTile s.cur 5 0 0).note .acted))) ∧
    ((Instr.halt f).wf = true →
      (s.tile.gaveUp = false → exec (.halt f) s = .next (s.startHalt.note .acted)) ∧
      (s.tile.gaveUp = true → exec (.halt f) s = .next ((s.failTile s.cur 5 0 0).note .acted))) ∧
    ((Instr.yield f).wf = true →
      (s.tile.mqBefore = true → exec (.yield f) s = .next (s.note .acted)) ∧
      (s.tile.mqBefore = false → bit (YF.x f) 0 = false ∨ s.tile.trp = true →
        exec (.yield f) s = .next ((s.onTile fun x => { x with yc := 0, atYield := x.preempt && !x.trp }).note .acted)) ∧
      (s.tile.mqBefore = false → ∃ t, exec (.yield f) s = .next t ∧ t.tile.issued = .acted ∧ t.tile.yc = 0 ∧ t.tile.s = s.tile.s ∧ t.mem = s.mem))

/-- R407, R447 to R450, R453, R458 to R460. The order of the statuses, and the place of CASKDUP's in its cycle, are the model's
(log entry 19). -/
def Obligations.CaskInstructions : Prop :=
  ∀ (s : State),
    (∀ (f : YF) (m : SMap Nat), s.tile.cond f.pred.toNat f.neg = true → Clean (s.tile.scalar (YF.a f)) → Clean (s.tile.scalar (YF.b f)) →
      s.tile.sv (YF.a f) % 256 = 0 →
      let a := s.tile.sv (YF.a f)
      let mx := bit (YF.x f) 0
      let banks := s.tile.sv (YF.b f)
      ((Instr.susp f).wf = true → s.admits (.susp f) = true → (s.tile.trp = false → s.tile.mqBefore = false) →
        let n := caskSize mx banks s.tile.trp s.tile.mxAt.isSome
        s.tile.runPages a n needW = .pages m →
        let u : Susp := { va := a, pages := pagesOf a n m, mx := mx, trap := s.tile.trp, banks := BitVec.ofNat 64 banks, pre := false, gang := none,
                          size := n, image := [], ftime := 0, done := false }
        exec (.susp f) s = .next ((s.onTile fun x => { x with susp := some u }).note .acted)) ∧
      ((Instr.suspg f).wf = true → s.admits (.suspg f) = true → s.tile.mqBefore = false →
        let n := caskSize mx banks false false
        let ms := s.gangHere s.cur
        s.tile.runPages a (0x400 + ms.length * n) needW = .pages m →
        ∃ u : Susp, exec (.suspg f) s = .next (((s.startRelease s.cur 2).onTile fun x =>
            { x with run := .sync 2 false (tileMask (gangTiles ms)) none, susp := some u }).note .acted) ∧
          u.gang = some a ∧ u.size = n ∧ u.mx = mx ∧ u.banks = BitVec.ofNat 64 banks ∧ u.trap = false ∧ u.done = false ∧
          ∀ e, ms.find? (fun e => e.2.tile == some s.cur) = some e → u.va = a + 0x400 + e.2.member * n)) ∧
    (∀ f : YF, s.tile.cond f.pred.toNat f.neg = true → (Instr.rsm f).wf = true →
      (∀ c, s.tile.claim = some c → c.done = true → c.pc = s.tile.pc →
        (c.fault = none → exec (.rsm f) s = .next (s.startHalt.note .acted)) ∧
        (∀ q, c.fault = some q → exec (.rsm f) s = .next ((s.onTile fun x => { x with claim := none }).raise q))) ∧
      (∀ pa, s.tile.claim = none → Clean (s.tile.scalar (YF.a f)) → s.tile.sv (YF.a f) % 256 = 0 →
        s.tile.translate (s.tile.sv (YF.a f)) needR = .pa pa →
        ∃ t c, exec (.rsm f) s = .next t ∧ t.tile.issued = .froze ∧ t.tile.run = .claiming ∧ t.tile.claim = some c ∧ c.va = s.tile.sv (YF.a f) ∧
          c.pc = s.tile.pc ∧ c.done = false ∧ Schedules t (s.now + 32) (.event .rsmClaim { EvArg.none with t := s.cur }) ∧
          t.tile.s = s.tile.s ∧ t.mem = s.mem)) ∧
    (∀ f : CF, s.tile.cond f.pred.toNat f.neg = true → s.tile.GoodS f.a → s.tile.sv f.a.toNat % 256 = 0 →
      let a := s.tile.sv f.a.toNat
      ((Instr.caskdup f).wf = true → s.tile.GoodS f.b → s.tile.sv f.b.toNat % 256 = 0 →
        ∀ p q, s.tile.translate a needR = .pa p → s.tile.translate (s.tile.sv f.b.toNat) needW = .pa q →
        ∃ t, exec (.caskdup f) s = .next t ∧
          Asks s t f.d (2 ^ 59) (s.now + 32) (.caskdup s.cur s.nextId a (s.tile.sv f.b.toNat) s.tile.pdom s.tile.sv? s.now)) ∧
      ((Instr.caskdisc f).wf = true → ∀ p, s.tile.translate a needRW = .pa p →
        ∃ t, exec (.caskdisc f) s = .next t ∧ Asks s t f.d 64 (s.now + 32) (.caskdisc s.cur s.nextId a s.tile.pdom s.tile.sv?)) ∧
      ((Instr.caskq f).wf = true → ∀ p, s.tile.translate a needR = .pa p →
        ∃ t, exec (.caskq f) s = .next t ∧ Asks s t f.d 64 (s.now + 32) (.caskq s.cur s.nextId a s.tile.pdom s.tile.sv?))) ∧
    (∀ (t : Tid) (id src dst iss : Nat) (d : BitVec 16) (sv : Bool),
      let w := s.walkLogs d src 256
      let h := w.caskHeader (w.caskPages d src 256) src
      let st := hget h hfState
      let right := fun (k : Nat) => bit (rightsOf sv d.toNat h) k
      let answers := fun (v : Nat) => w.modTile t fun x => x.fill id (fillScalar (scalarOf v))
      let later := fun (v : Nat) => w.schedule (max (iss + 64) w.now) (ordLate t) (.statusNow t id v)
      s.caskq t id src d sv = answers (s.caskWord src d sv) ∧
      (∀ g ok, g = s.caskHeader (s.caskPages d src 256) src → ok = (hget g hfMagic == caskMagic && hget g hfMajor == 1 && hget g hfMinor == 0) →
        s.caskWord src d sv % 8 = (if ok then hget g hfState % 8 else 0) ∧ s.caskWord src d sv / 8 % 2 = (s.away src g).toNat ∧
        s.caskWord src d sv / 16 % 16 = (if sv = false ∧ s.savedSv d src g = true then rightsOf sv d.toNat g / 2 * 2 else rightsOf sv d.toNat g) % 16 ∧
        (bit (rightsOf sv d.toNat g) 3 = false → s.caskWord src d sv < 2 ^ 8)) ∧
      ((headerErr h).isSome = true → s.caskdisc t id src d sv = answers 3 ∧ s.caskdup t id src dst d sv iss = later 4) ∧
      ((headerErr h).isSome = false →
        (st ≠ csSealed → st ≠ csAnchored → s.caskdisc t id src d sv = answers 1 ∧ s.caskdup t id src dst d sv iss = later 1) ∧
        (st = csSealed ∨ st = csAnchored → right 2 = false → s.caskdisc t id src d sv = answers 2) ∧
        (st = csAnchored → s.caskdup t id src dst d sv iss =
          w.schedule (w.now + 1) (ordLate t) (.caskdup t id src dst d sv iss)) ∧
        (st = csSealed → hget h hfHeld ≠ 0 → s.caskdup t id src dst d sv iss = later 2) ∧
        (st = csSealed → hget h hfHeld = 0 → right 1 = false → s.caskdup t id src dst d sv iss = later 3) ∧
        (st = csSealed → hget h hfHeld = 0 → right 1 = true → src < dst + hget h hfSize → dst < src + hget h hfSize →
          s.caskdup t id src dst d sv iss = later 5)))

/-- R290 to R295. R295 states no .last before the first copy: 0 is the model's reading, and so is cause 1 of CSTOP on a STOPPED engine
(log entry 15). -/
def Obligations.CopyInstructions : Prop :=
  ∀ (s : State) (f : CF), s.tile.cond f.pred.toNat f.neg = true →
    let e := copyE f
    let g := s.tile.engine e
    let a := s.tile.sv f.a.toNat
    let b := s.tile.sv f.b.toNat
    let c := s.tile.sv f.c.toNat
    (s.tile.GoodS f.a → s.tile.GoodS f.b → s.tile.GoodS f.c →
      ((Instr.cloop f).wf = true → ∃ t, exec (.cloop f) s = .next t ∧ t.tile.issued = .acted ∧ Keeps s t ∧
        t.tile.engine (!e) = s.tile.engine (!e) ∧
        t.tile.engine e = { g with staged := { g.staged with
          lv := g.staged.lv.set (cloopLevel f) { n := BitVec.ofNat 32 a, ss := BitVec.ofNat 64 b, ds := BitVec.ofNat 64 c } } }) ∧
      ((Instr.cbase f).wf = true → ∃ t, exec (.cbase f) s = .next t ∧ t.tile.issued = .acted ∧ Keeps s t ∧
        t.tile.engine (!e) = s.tile.engine (!e) ∧
        t.tile.engine e = { g with staged := {
          lv := g.staged.lv, src := BitVec.ofNat 64 a, dst := BitVec.ofNat 64 b, m := BitVec.ofNat 64 c, path := BitVec.ofNat 2 (cbasePath f),
          op := BitVec.ofNat 3 (cbaseOp f), type := BitVec.ofNat 5 (cbaseType f), cvt := cbaseCvt f, tagmode := BitVec.ofNat 2 (cbaseTm f),
          tag := BitVec.ofNat 8 (cbaseTag f), tensor := none } })) ∧
    ((Instr.cgo f).wf = true → g.st = .idle ∨ g.st = .stopped → cgoTensor f = false → (cgoRes f = true → g.st = .stopped) →
      ∃ t, exec (.cgo f) s = .next t ∧ t.tile.issued = .acted ∧
        (f.imm20 ≠ 0 → let h := t.tile.engine e
          Keeps s t ∧ h.st = .armed ∧ h.next = s.tile.mclk + f.imm20.toNat ∧ h.pc = s.tile.pc ∧
          h.cfg = (if cgoRes f then g.cfg else g.staged) ∧ h.cn = (if cgoRes f then g.cn else 0))) ∧
    ((Instr.cgo f).wf = true → g.st = .idle ∨ g.st = .stopped → cgoTensor f = true → cgoRes f = false → s.tile.GoodS f.a → s.tile.GoodS f.b →
      s.tile.GoodS f.c → s.tile.GoodS f.d → (bits (s.tile.sv f.d.toNat) 16 2 = 0 ∨ bits (s.tile.sv f.d.toNat) 16 2 ≠ 3 ∧ cgoOp f = 0) →
      s.tensorChecks (cgoOp f) (a % 2 ^ 16) (bits (s.tile.sv f.d.toNat) 0 7) (originOf b c) = [] →
      ∃ t, exec (.cgo f) s = .next t ∧ t.tile.issued = .acted ∧
        (f.imm20 ≠ 0 → Keeps s t ∧ (t.tile.engine e).st = .armed ∧ (t.tile.engine e).cfg.tensor.isSome = true)) ∧
    ((Instr.cgo f).wf = true → cgoTensor f = false → (if cgoRes f = true then g.st ≠ .stopped else g.st = .armed ∨ g.st = .running) →
      exec (.cgo f) s = .next (s.raise (s.tile.classS 6 0xC (copyInfo e 5 0)))) ∧
    ((Instr.cstop f).wf = true → ∃ t, exec (.cstop f) s = .next t ∧ t.tile.issued = .acted ∧ Keeps s t ∧
      t.tile.engine e = (if g.st = .idle then g else if g.cn < g.cfg.copies then { g with st := .stopped, cause := 1 } else { g with st := .idle })) ∧
    ((Instr.cquery f).wf = true → ∃ v,
      exec (.cquery f) s = .next ((({ s with free := s.free + 1 } : State).land 6 2 [.scalar f.d (scalarOf (v % 2 ^ 64))]).note .acted) ∧
      (cquerySel f = 0 → v = g.st.code + 4 * g.slid.toNat + 8 * g.cfg.tensor.isSome.toNat + 16 * g.cause.toNat) ∧
      (cquerySel f = 1 → v = g.cn) ∧ (cquerySel f = 2 → g.cn = 0 → v = 0) ∧
      (cquerySel f = 2 → ∀ k c, g.cn = k + 1 → g.lasts.find? (fun l => l.1 == k) = some (k, c) → v = c.toNat) ∧ (cquerySel f = 4 → v = g.cfg.copies - g.cn) ∧
      (cquerySel f = 3 → g.cfg.tensor = none → v = g.cfg.index g.cn (cqueryLevel f)))

/-- R304, R305, R326, R327. -/
def Obligations.BindingInstructions : Prop :=
  ∀ (s : State) (f : CF), s.tile.cond f.pred.toNat f.neg = true →
    let v := f.imm20.toNat % 512
    ((Instr.tbind f).wf = true → (∀ j < 12, (s.tile.recordGran v j).bad = false) → tensorErrs (s.tile.tensorRecord v).toNat = [] →
      ∃ t, exec (.tbind f) s = .next t ∧ Asks s t f.d 32 (s.now + 32) (.tbind s.cur s.nextId (s.tile.tensorRecord v) s.tile.pdom)) ∧
    ((Instr.wcreate f).wf = true → s.admits (.wcreate f) = true → (∀ j < 4, (s.tile.recordGran v j).bad = false) →
      windowErrs (s.tile.windowDesc v).toNat = [] →
      ∃ t, exec (.wcreate f) s = .next t ∧ Asks s t f.d 32 (s.now + 32) (.wcreate s.cur s.nextId (s.tile.windowDesc v) s.tile.pdom)) ∧
    (s.tile.GoodS f.a →
      let a := s.tile.sv f.a.toNat
      ((Instr.tunbind f).wf = true →
        ∃ t, exec (.tunbind f) s = .next t ∧ Asks s t f.d 32 (s.now + 32) (.tunbind s.cur s.nextId (a % 2 ^ 16))) ∧
      ((Instr.tflush f).wf = true → ∃ t, exec (.tflush f) s = .next t ∧ Tells s t (s.now + 32) (.tflush (a % 2 ^ 16) (tflushMode f))) ∧
      ((Instr.wfree f).wf = true →
        ∃ t, exec (.wfree f) s = .next t ∧ Asks s t f.d (2 ^ 64) (s.now + 8) (.wclose s.cur s.nextId (twWin a) s.tile.pdom s.tile.sv?)))

/-- R314 to R317, R322. -/
def Obligations.WindowControl : Prop :=
  ∀ (s : State) (f : CF), s.tile.cond f.pred.toNat f.neg = true → s.tile.GoodS f.a →
    let w := s.tile.sv f.a.toNat
    let rank := w % 2 ^ 13
    let win := w / 2 ^ 16 % 2 ^ 8
    ((Instr.wpost f).wf = true → ∃ t o, exec (.wpost f) s = .next t ∧ Opens s t f .post s.rank win o) ∧
    ((Instr.wdone f).wf = true → ∃ t o, exec (.wdone f) s = .next t ∧ Opens s t f .done s.rank win o) ∧
    ((Instr.wstart f).wf = true → s.accRecs.length < 64 → ∃ t o, exec (.wstart f) s = .next t ∧ Opens s t f .start rank win o ∧
      (s.reachable rank = true → s.posts.contains (rank, win) = true → ∃ r ∈ t.accRecs, r.rank = rank ∧ r.win = win ∧ r.open_ = true)) ∧
    ((Instr.wcompl f).wf = true → ∃ t o, exec (.wcompl f) s = .next t ∧ Opens s t f .compl rank win o ∧ o.held = true) ∧
    ((Instr.wlock f).wf = true → ∃ t o, exec (.wlock f) s = .next t ∧ Opens s t f (.lock (bit f.x.toNat 0)) rank win o) ∧
    ((Instr.wunlock f).wf = true → ∃ t o, exec (.wunlock f) s = .next t ∧ Opens s t f .unlock rank win o ∧ o.held = true) ∧
    ((Instr.wfence f).wf = true →
      ∃ t o, exec (.wfence f) s = .next t ∧ Opens s t f (.fence (bit f.x.toNat 1)) rank win o ∧ o.held = !bit f.x.toNat 0)

/-- R328 to R330. -/
def Obligations.RemoteOperations : Prop :=
  ∀ (s : State) (f : CF), s.tile.cond f.pred.toNat f.neg = true →
    let w := s.tile.sv f.a.toNat
    let rank := w % 2 ^ 13
    let win := w / 2 ^ 16 % 2 ^ 8
    let a := s.tile.sv f.c.toNat
    let unit := max 1 (tyWidth (remType f) / 8)
    let has := fun (o : OpRec) (len : Nat) => o.off = s.tile.sv f.b.toNat ∧ o.len = len ∧ o.type = remType f ∧ o.laddr = a
    (s.tile.GoodS f.a → s.tile.GoodS f.b → s.tile.GoodS f.c → (s.ops.filter (·.chambered)).length < 256 →
      (∀ (need : Nat), need = needR ∨ need = needW →
        ((bit f.x.toNat 0 = false ∧ a + remLen f ≤ 2 ^ 21 ∧ a % unit = 0) ∨
          (bit f.x.toNat 0 = true ∧ ∃ m, s.tile.runPages a (remLen f) need = .pages m)) →
        ((Instr.wput f).wf = true → need = needR → ∃ t o, exec (.wput f) s = .next t ∧ Opens s t f .put rank win o ∧ has o (remLen f)) ∧
        ((Instr.wget f).wf = true → need = needW → ∃ t o, exec (.wget f) s = .next t ∧ Opens s t f .get rank win o ∧ has o (remLen f)) ∧
        ((Instr.wacc f).wf = true → need = needR →
          ∃ t o, exec (.wacc f) s = .next t ∧ Opens s t f (.acc (waccOp f) (bit f.x.toNat 4)) rank win o ∧ has o (remLen f))) ∧
      ((Instr.wamo f).wf = true → a + 16 ≤ 2 ^ 21 → a % 16 = 0 →
        ∃ t o, exec (.wamo f) s = .next t ∧ Opens s t f (.amo (waccOp f) (bit f.x.toNat 4)) rank win o ∧ has o 16)) ∧
    ((Instr.wflush f).wf = true → (bit f.x.toNat 1 = false → s.tile.GoodS f.a) →
      s.flushOut s.cur (if bit f.x.toNat 1 then none else some rank) (bit f.x.toNat 0) = false →
      exec (.wflush f) s = .next ((s.closeCombine s.cur).note .acted))

/-- R331, R332, R376 to R378, R384, R397, R404 to R406. That WTEST reads the window in its issue cycle and that COLL checks and
translates its source at issue + start is the model's reading (log entries 23 and 20). -/
def Obligations.CountersHandlesTasks : Prop :=
  ∀ (s : State) (f : CF), s.tile.cond f.pred.toNat f.neg = true →
    let a := s.tile.sv f.a.toNat
    let rel := bit f.x.toNat 0
    let h := s.tile.handleSeen (cHand f)
    (s.tile.GoodS f.a →
      ((Instr.cinc f).wf = true → s.tile.GoodS f.b → (rel = true → Released s 2 false) → ∃ t, exec (.cinc f) s = .next t ∧
        Tells s t (s.now + 16) (.counterWrite (a % 4096) false (if f.b = 0 then 1 else s.tile.word f.b) (some s.cur) s.now)) ∧
      ((Instr.cset f).wf = true → s.tile.GoodS f.b → ∃ t, exec (.cset f) s = .next t ∧
        Tells s t (s.now + 16) (.counterWrite (a % 4096) true (s.tile.word f.b) none s.now)) ∧
      ((Instr.cread f).wf = true → ∃ t, exec (.cread f) s = .next t ∧ Asks s t f.d 20 (s.now + 16) (.counterRead s.cur s.nextId (a % 4096))) ∧
      ((Instr.wtest f).wf = true → exec (.wtest f) s =
        .next ((s.land 6 24 [predBit f (s.wtest (a / 2 ^ 16 % 2 ^ 8) (f.x.toNat % 8))]).note .acted)) ∧
      ((Instr.pbind f).wf = true → (modeX f = 0 → a < 2 ^ 23) → ∃ t, exec (.pbind f) s = .next t ∧
        Asks s t f.d 24 (s.now + 24) (.pipeBind s.cur s.nextId (modeX f) (s.tile.word f.a))) ∧
      ((Instr.tspawn f).wf = true → (rel = true → Released s 2 false) →
        let n := recGang (s.tile.taskRecord a) + 1
        let rs := (List.range n).map fun j => s.tile.taskRecord (a + 192 * j)
        a % 64 = 0 → a + 192 * n ≤ 2 ^ 21 → (∀ k < 24 * n, (s.tile.pad.gran (a / 8 + k)).bad = false) → s.tile.spawnErrs rs = [] →
        ∃ t, exec (.tspawn f) s = .next t ∧ Asks s t f.d 24 (s.now + 24) (.tspawn s.cur s.nextId rs s.tile.pdom s.tile.sv?)) ∧
      ((Instr.coll f).wf = true → (rel = true → Released s 2 false) → s.collWaiting < 64 → a % 64 = 0 → a < 2 ^ 21 →
        (∀ k < 8, (s.tile.pad.gran (a / 8 + k)).bad = false) →
        let r := s.tile.collRecord a
        collErrs r = [] → (f.imm20 = 0 → ∀ k, crMember r s.rank = some k → crHasSrc r k = true → ∃ m, s.tile.runPages (crSrc r) (crRun r) needR = .pages m) →
        ∃ t, exec (.coll f) s = .next t ∧ t.tile.issued = .acted ∧
          (f.imm20 ≠ 0 → Tells s t (s.now + f.imm20.toNat) (.coll s.cur f r s.tile.pc)) ∧
          (f.imm20 = 0 → crStrm r = false → (t.tile.handle (cHand f)).iss = (s.tile.handle (cHand f)).iss + 1))) ∧
    ((Instr.hinit f).wf = true → (s.tile.handle (cHand f)).settled 0 = true → (s.tile.handle (cHand f)).settled 2 = true →
      ∃ t, exec (.hinit f) s = .next t ∧ Tells s t (s.now + 1) (.hinit s.cur (Fin.ofNat 32 (cHand f)))) ∧
    ((Instr.htest f).wf = true → exec (.htest f) s =
      .next ((s.land 6 2 [predBit f (if f.x.toNat % 4 = 3 then h.failed else h.settled (f.x.toNat % 4))]).note .acted)) ∧
    ((Instr.hread f).wf = true → exec (.hread f) s =
      .next ((s.land 6 2 [.scalar f.c (scalarOf (h.field (f.x.toNat % 8)))]).note .acted)) ∧
    ((Instr.teffect f).wf = true → s.admits (.teffect f) = true →
      (modeX f = 0 → ∀ i e, s.taskOf s.cur = some (i, e) → exec (.teffect f) s =
        .next ((s.land 6 2 [.scalar f.d (scalarOf (e.effect.toNat + 2 ^ 8 * e.fails))]).note .acted)) ∧
      (modeX f ≠ 0 → ∃ t, exec (.teffect f) s = .next t ∧ Tells s t (s.now + 1) (.teffect s.cur (modeX f == 1))))

/-- R18, R27, R462, R466, R468, R471, R472. The free signature of an attestation, the stop beyond 64 GiB, and
the throttling of one gang per measurement, are the model's (log entries 3, 21). -/
def Obligations.HostRegisterEvents : Prop :=
  ∀ s : State,
    (∃ t, exec .powerUp s = .next t ∧ t.bootStep = bootReached s.arg.boot ∧ t.mem = State.reset.mem ∧ t.tiles = State.reset.tiles ∧
      t.tasks = State.reset.tasks ∧ t.ports = State.reset.ports ∧ t.now = s.now ∧ t.host.digests = (s.arg.boot.hostFw, s.arg.boot.blob, s.arg.boot.dieFw)) ∧
    (∃ t r, exec .attestation s = .next t ∧ t.host.reports = s.host.reports ++ [r] ∧ r.nonce = s.arg.nonce ∧ r.digests = s.host.digests ∧
      r.step = s.bootStep ∧ t.mem = s.mem ∧ t.tiles = s.tiles) ∧
    (s.bootStep < 4 → ∀ i ∈ [Instr.rootrec, .rootarm, .rpool, .eqbase, .eqsize, .rjstart, .rjctlArm, .rjctlDisarm, .hostRegisterWrite,
      .apertureRead, .apertureWrite, .powerMeasurement], exec i s = .next s) ∧
    (4 ≤ s.bootStep →
      (s.host.rootSt = 0 → exec .rootrec s = .next { s with host := { s.host with rootRec := s.arg.record } }) ∧
      (s.host.rootSt = 0 → s.rootErrs s.host.rootRec = [] → ∃ t, exec .rootarm s = .next t ∧ t.host.rootSt = 1 ∧
        (s.freeEntries ≠ [] → ∃ e ∈ t.agenda, e.at_ = s.now ∧ e.ev = .event .rootSlotCopy EvArg.none)) ∧
      (s.host.rootSt = 0 → s.rootErrs s.host.rootRec ≠ [] → ∃ t, exec .rootarm s = .next t ∧ t.host.rootSt = 0) ∧
      ((∀ e ∈ s.taskList, e.2.shadows = []) → s.arg.w.toNat % 2 ^ 21 = 0 → s.arg.w.toNat ≤ 2 ^ 30 →
        exec .rpool s = .next { s with host := { s.host with rpool := s.arg.w } }) ∧
      exec .eqbase s = .next { s with host := { s.host with eqBase := s.arg.w, eqHead := 0, eqTail := 0 } } ∧
      exec .eqsize s = .next { s with host := { s.host with eqSize := s.arg.w, eqHead := 0, eqTail := 0 } } ∧
      (1 ≤ s.arg.n → s.arg.n ≤ 15 →
        (s.host.rjArm.get 0 s.arg.n ≠ 1 → ∃ t, exec .rjstart s = .next t ∧ t.host.rjStart.get 0 s.arg.n = s.arg.w) ∧
        (s.host.rjArm.get 0 s.arg.n = 1 → exec .rjstart s = .next s) ∧
        (let at_ := (s.host.rjStart.get 0 s.arg.n).toNat
         ∃ t, exec .rjctlArm s = .next t ∧ t.host.rjArm.get 0 s.arg.n = if at_ % 4 ≠ 0 ∨ at_ < s.ftime.toNat + 4096 then 0 else 1)) ∧
      (∃ t, exec .rjctlDisarm s = .next t ∧ t.host.rjArm.get 0 s.arg.n = 0) ∧
      (∃ t, exec .hostRegisterWrite s = .next t ∧ (s.arg.n = 0x0208 → t.host.carg0 = s.arg.w) ∧ (s.arg.n = 0x0210 → t.host.carg1 = s.arg.w) ∧
        (s.arg.n = 0x0100 → t.host.defHbase = s.arg.w) ∧ (s.arg.n = 0x0108 → t.host.defCask = s.arg.w) ∧
        (s.arg.n = 0x0118 → t.host.drtBase = s.arg.w) ∧ (s.arg.n = 0x0310 → t.host.eqHead = s.arg.w) ∧ t.mem = s.mem ∧ t.tiles = s.tiles) ∧
      (s.arg.n + s.arg.m ≤ 2 ^ 36 → ∃ t, exec .apertureRead s = .next t ∧ t.mem = s.mem ∧ t.tiles = s.tiles ∧
        t.host.reads.length = s.host.reads.length + ((s.arg.n + s.arg.m + 7) / 8 - s.arg.n / 8)) ∧
      (2 ^ 36 < s.arg.n + s.arg.m → exec .apertureRead s = .fault (.noSuchAddress s.arg.n)) ∧
      (s.arg.n + s.arg.bytes.length ≤ 2 ^ 36 → Memory.wf s.mem → ∃ t, exec .apertureWrite s = .next t ∧ t.tiles = s.tiles ∧
        t.host.acks = s.host.acks ++ [(s.arg.n, s.arg.bytes.length)] ∧
        (∀ k < s.arg.bytes.length, s.arg.n + k < s.poolBase → t.mem.byte (s.arg.n + k) = s.arg.bytes.getD k 0) ∧
        (∀ b, (b < s.arg.n ∨ s.arg.n + s.arg.bytes.length ≤ b ∨ s.poolBase ≤ b) → t.mem.byte b = s.mem.byte b)) ∧
      (2 ^ 36 < s.arg.n + s.arg.bytes.length → exec .apertureWrite s = .fault (.noSuchAddress s.arg.n)) ∧
      (s.arg.flag = false → exec .powerMeasurement s = .next { s with host := { s.host with aboveCount := 0 } }) ∧
      (s.arg.flag = true → ∀ g, s.gangs.reverse.find? s.mayThrottle = some g → ∃ t, exec .powerMeasurement s = .next t ∧
        ∀ n ∈ gangTiles g, (t.tileAt (tid n)).throttled = some (s.now + 1024))) ∧
    (∃ t, exec .throttleEnd s = .next t ∧ t.mem = s.mem ∧ ∀ n ∈ gangTiles (s.gangOf s.arg.n), ∀ c, (s.tileAt (tid n)).throttled = some c → c ≤ s.now →
      (t.tileAt (tid n)).throttled = none) ∧
    (∃ t, exec .emergencyPowerStop s = .next t ∧ t.mem = s.mem ∧ ∀ e ∈ s.taskList, recRjob e.2.record ≠ 0 → e.2.tile.isSome = true →
      t.host.rjEnded.get 0 (recRjob e.2.record) = 1)

/-- R438, R463, R464 (Table 17-2). When a command completes is free (log entry 3); that the table of command 10 comes with the event, and
that the command is done also where R345 refuses the table, is the model's (log entry 21). -/
def Obligations.HostCommandEvents : Prop :=
  ∀ s : State, 4 ≤ s.bootStep →
    let codes := [Instr.invalidatePage, .invalidateDomain, .invalidateAll, .debugStop, .debugResume, .readState, .writeState, .freeFailedTask,
      .linkBringUp, .loadShadowDepartureTable, .setCounter, .readCounter, .endReachJob, .cmdOtherCode]
    let c0 := s.host.carg0.toNat
    let c1 := s.host.carg1
    let d : BitVec 16 := s.host.carg0.truncate 16
    let tl := tid (c0 % 32)
    (s.host.cmdst = 1 → (∀ i ∈ codes, exec i s = .next (s.hostEvent evOther 1)) ∧
      exec .hostCommandDone s = .next { s with host := { s.host with cmdst := if s.host.cmdOk then 2 else 3 } }) ∧
    (s.host.cmdst ≠ 1 →
      (∃ t, exec .invalidatePage s = .next t ∧ Begun s t true ∧ t.stlb = s.stlb.filter (fun e => !e.holds d c1.toNat) ∧
        ∀ u, (t.tileAt u).utlb = (s.tileAt u).utlb.filter fun e => !e.holds d c1.toNat) ∧
      (∃ t, exec .invalidateDomain s = .next t ∧ Begun s t true ∧ t.stlb = s.stlb.filter (fun e => e.pdom != d) ∧
        ∀ u, (t.tileAt u).utlb = (s.tileAt u).utlb.filter fun e => e.pdom != d) ∧
      (∃ t, exec .invalidateAll s = .next t ∧ Begun s t true ∧ t.stlb = [] ∧ t.walks = [] ∧ ∀ u, (t.tileAt u).utlb = []) ∧
      (∃ t, exec .debugStop s = .next t ∧ t.host.cmdst = 1 ∧ t.host.stopTile = some tl ∧ t.tiles = s.tiles) ∧
      ((s.tileAt tl).run = .stopped → ∃ t, exec .debugResume s = .next t ∧ Begun s t true ∧
        (t.tileAt tl).run = (if (s.tileAt tl).task.isSome then .running else .idle) ∧ (t.tileAt tl).snapshot = []) ∧
      ((s.tileAt tl).run ≠ .stopped → ∃ t, exec .debugResume s = .next t ∧ Begun s t false ∧ t.tiles = s.tiles) ∧
      ((s.tileAt tl).run = .stopped → ∀ l, s.selected c0 = some l → ∃ t, exec .readState s = .next t ∧ Begun s t true ∧
        t.host.carg1 = (l.getD (bits c0 18 6) .zero).d ∧ t.host.cmdRind = (l.getD (bits c0 18 6) .zero).r ∧ t.tiles = s.tiles) ∧
      ((s.tileAt tl).run ≠ .stopped → ∃ t, exec .readState s = .next t ∧ Begun s t false ∧ t.host.carg1 = s.host.carg1) ∧
      ((s.tileAt tl).run = .stopped → bits c0 5 3 = 0 → bits c0 8 10 < 64 → bits c0 18 46 = 0 → ∃ t, exec .writeState s = .next t ∧
        Begun s t true ∧ (t.tileAt tl).sv (bits c0 8 10) = (if bits c0 8 10 = 0 then 0 else c1.toNat) ∧
        ∀ n, n ≠ bits c0 8 10 → (t.tileAt tl).sv n = (s.tileAt tl).sv n) ∧
      ((s.tileAt tl).run = .stopped → bits c0 5 3 < 4 → ¬(bits c0 5 3 < 2 ∧ bits c0 8 10 = 0) → ∀ l, s.selected c0 = some l →
        ∃ t, exec .writeState s = .next t ∧ Begun s t true ∧ t.selected c0 = some (l.set (bits c0 18 6) (Gran.fresh c1))) ∧
      ((s.tileAt tl).run = .stopped → s.selected c0 = none → ∀ i, (i = .readState ∨ i = .writeState) → ∃ t, exec i s = .next t ∧ Begun s t false ∧
        t.tiles = s.tiles) ∧
      ((s.tileAt tl).run = .stopped → bits c0 5 3 = 4 → sregReadOnly (bits c0 8 10) = true → ∃ t, exec .writeState s = .next t ∧
        Begun s t false ∧ t.tiles = s.tiles) ∧
      ((s.tileAt tl).run ≠ .stopped → ∃ t, exec .writeState s = .next t ∧ Begun s t false ∧ t.tiles = s.tiles) ∧
      (∀ e r, s.task (c0 % 4096) = some e → e.st = .failed r → ∃ t, exec .freeFailedTask s = .next t ∧ Begun s t true ∧
        t.task (c0 % 4096) = none) ∧
      ((∀ e r, s.task (c0 % 4096) = some e → e.st ≠ .failed r) → ∃ t, exec .freeFailedTask s = .next t ∧ Begun s t false ∧ t.tasks = s.tasks) ∧
      (∀ p, s.argPort = some p → s.enabled p = false → ∃ t, exec .linkBringUp s = .next t ∧ Begun s t false ∧ t.ports = s.ports) ∧
      (∀ p, s.argPort = some p → s.enabled p = true → s.ports[p].link = .off ∨ s.ports[p].link = .failed →
        ∃ t, exec .linkBringUp s = .next t ∧ Begun s t true ∧ t.ports[p].link = .train) ∧
      (∀ p, s.argPort = some p → s.arg.table ≠ [] → s.arg.table.length ≤ 65536 → c1.toNat % 4 = 0 →
        tableErr s.arg.table s.arg.streams = none →
        ∃ t, exec .loadShadowDepartureTable s = .next t ∧ Begun s t true ∧ t.ports[p].shadow = some (s.arg.table, c1, s.arg.streams) ∧
          t.ports[p].active = s.ports[p].active) ∧
      (∀ p e, s.argPort = some p → s.arg.table ≠ [] → s.arg.table.length ≤ 65536 → c1.toNat % 4 = 0 →
        tableErr s.arg.table s.arg.streams = some e →
        ∃ t, exec .loadShadowDepartureTable s = .next t ∧ Begun s t true ∧ t.ports = s.ports) ∧
      (s.argPort = none → ∃ t, exec .loadShadowDepartureTable s = .next t ∧ Begun s t false ∧ t.ports = s.ports) ∧
      (∃ t, exec .setCounter s = .next t ∧ Begun s t true ∧ t.counter (c0 % 4096) = Reg.fresh 1 c1.toNat ∧
        ∀ k, k ≠ c0 % 4096 → t.counter k = s.counter k) ∧
      (∃ t, exec .readCounter s = .next t ∧ Begun s t true ∧ t.host.carg1 = ((s.counter (c0 % 4096)).gran 0).d ∧ t.counters = s.counters) ∧
      (c0 % 16 ≠ 0 → ∃ t, exec .endReachJob s = .next t ∧ t.host.cmdst = 1 ∧ t.host.rjEnded.get 0 (c0 % 16) = 1) ∧
      (c0 % 16 = 0 → ∃ t, exec .endReachJob s = .next t ∧ Begun s t false ∧ t.tasks = s.tasks) ∧
      exec .cmdOtherCode s = .next { s with host := { s.host with cmdst := 3 } })

/-- R13, R339 to R343, R345, R349, R352, R353, R358, Table 12-4. What stands for ports of other dies, the flits that leave in AUTH, and the
free room of a request queue are the model's (log entries 3, 20, 23). -/
def Obligations.LinkEvents : Prop :=
  ∀ s : State,
    let p := s.arg.port
    let x := s.ports[p]
    let n := s.arg.n
    let f := s.arg.flit
    let goes := fun (i : Instr) (t : State) => exec i s = .next t
    (s.arg.flag = true → goes .laneLock { s with joined := true, farUp := n :: s.farUp.filter fun i => i != n }) ∧
    (s.arg.flag = false → x.link = .train → goes .laneLock (s.setLink p .align)) ∧
    (s.arg.flag = false → x.link ≠ .train → goes .laneLock s) ∧
    (x.link = .train → x.since + 2 ^ 24 ≤ s.now → ∃ t, goes .trainingTimeout t ∧ Fails s t p) ∧
    (x.link ≠ .train ∨ s.now < x.since + 2 ^ 24 → goes .trainingTimeout s) ∧
    (x.link = .align → n ≤ 240 → ∃ t, goes .alignment t ∧ t.ports[p].link = .auth ∧ t.ports[p].mgmt.length = x.mgmt.length + 1) ∧
    (x.link = .align → 240 < n → ∃ t, goes .alignment t ∧ Fails s t p) ∧
    (x.link ≠ .align → goes .alignment s) ∧
    (x.link = .auth → s.arg.flag = true ∧ s.arg.flag2 = true →
      (x.proved = true → goes .keyExchange s) ∧
      (x.proved = false → ∃ t, goes .keyExchange t ∧ t.ports[p].link = .auth ∧ t.ports[p].proved = true ∧
        t.ports[p].nextKeys = Config.linkKeys x.priv n s.arg.nonce x.rand (s.linkId p) 0 ∧ t.ports[p].mgmt.length = x.mgmt.length + 1)) ∧
    (x.link = .auth → x.proved = true → x.mgmt.length ≤ 1 → ∃ t, goes .fabricSlot t ∧ t.ports[p].link = .keyed ∧ t.ports[p].flits = 0 ∧
      t.ports[p].epoch = 0 ∧ t.ports[p].keys = x.nextKeys) ∧
    (x.link = .auth → x.proved = false ∨ 2 ≤ x.mgmt.length → goes .fabricSlot (s.sendMgmt p)) ∧
    (x.link = .align → goes .fabricSlot (s.leave (mgmtFlit 2 (Config.alignData (s.linkId p))))) ∧
    (x.link = .auth → ¬ (s.arg.flag = true ∧ s.arg.flag2 = true) → ∃ t, goes .keyExchange t ∧ Fails s t p) ∧
    (x.link = .keyed ∨ x.link = .active → s.arg.flag = true ∧ s.arg.flag2 = true → 2 ^ 47 ≤ x.flits % 2 ^ 48 → ∃ t, goes .keyExchange t ∧
      t.ports[p].link = x.link ∧ t.ports[p].rekey = true ∧ t.ports[p].keys = x.keys ∧
      t.ports[p].nextKeys = Config.linkKeys x.priv n s.arg.nonce x.rand (s.linkId p) (x.epoch + 1)) ∧
    (x.shadow = none → goes .tableActivation s) ∧
    (∀ table at_ streams, x.shadow = some (table, at_, streams) →
      (s.ftime < at_ → goes .tableActivation s) ∧
      (at_ ≤ s.ftime → tableErr table streams = none → ∃ t, goes .tableActivation t ∧ t.ports[p].active = table ∧ t.ports[p].shadow = none ∧
        t.ports[p].t0 = at_ ∧ t.ports[p].streams = streams ∧ t.ports[p].link = (if x.link = .keyed then .active else x.link) ∧
        (x.link = .keyed → t.joined = true) ∧ (x.link ≠ .keyed → t.joined = s.joined)) ∧
      (∀ e, at_ ≤ s.ftime → tableErr table streams = some e → ∃ t, goes .tableActivation t ∧ t.ports[p].active = x.active ∧ t.ports[p].shadow = none ∧
        t.ports[p].link = x.link)) ∧
    (s.arg.flag = false → x.link = .active → ∃ t, goes .laneLockLoss t ∧ Fails s t p) ∧
    (s.arg.flag = false → x.link ≠ .active → goes .laneLockLoss s) ∧
    (s.arg.flag = true → ∃ t, goes .laneLockLoss t ∧ t.farUp = (s.farUp.filter fun i => i != n) ∧ t.ports = s.ports ∧
      Schedules t (s.now + 1024) (.event .linkFailureTimeout { EvArg.none with n := n, m := s.nextOpn })) ∧
    ((∀ o ∈ s.ops, s.cutOff n s.arg.m o = false) → (∀ c ∈ s.colls, c.opn < s.arg.m → s.collOver n c = false) → goes .linkFailureTimeout s) ∧
    (∀ o, s.ops.filter (s.cutOff n s.arg.m) = [o] → (∀ c ∈ s.colls, c.opn < s.arg.m → s.collOver n c = false) →
      let own := fun (q : Queued) => q.flit.src.toNat == s.rank && q.flit.opn.toNat == o.opn
      goes .linkFailureTimeout (({ s with reqQ := s.reqQ.filter fun q => !own q, ctlQ := s.ctlQ.filter fun q => !own q } : State).opFail o.seq 9)) ∧
    (x.flits % 2 ^ 48 = 2 ^ 47 → ∃ t, goes .rekeyStart t ∧ t.ports[p].rekey = false ∧ t.ports[p].link = x.link ∧
      t.ports[p].mgmt.length = x.mgmt.length + 1) ∧
    (x.flits % 2 ^ 48 ≠ 2 ^ 47 → goes .rekeyStart s) ∧
    (x.flits % 2 ^ 48 ≠ 0 ∨ x.flits / 2 ^ 48 ≠ x.epoch + 1 → goes .rekeyCommit s) ∧
    (x.flits % 2 ^ 48 = 0 → x.flits / 2 ^ 48 = x.epoch + 1 →
      (x.rekey = true → ∃ t, goes .rekeyCommit t ∧ t.ports[p].epoch = x.epoch + 1 ∧ t.ports[p].rekey = false ∧ t.ports[p].link = x.link ∧
        t.ports[p].keys = x.nextKeys ∧ t.ports[p].mgmt.length = x.mgmt.length + 1) ∧
      (x.rekey = false → x.link = .active → ∃ t, goes .rekeyCommit t ∧ Fails s t p) ∧
      (x.rekey = false → x.link ≠ .active → goes .rekeyCommit s)) ∧
    (∀ q, s.portOfLink 0 = some q →
      (s.ports[q].link = .keyed ∨ s.ports[q].link = .active → goes .epoch { s with ftime := (f.data.gran 0).d + 240, ftOn := true }) ∧
      (s.ports[q].link ≠ .keyed → s.ports[q].link ≠ .active → goes .epoch s)) ∧
    (s.portOfLink 0 = none → goes .epoch { s with ftime := (f.data.gran 0).d + 264, ftOn := true }) ∧
    (∃ t, goes .referenceLockLoss t ∧ t.mem = s.mem ∧ ∀ q : Fin 9, t.ports[q].link = if s.ports[q].link = .off then .off else .failed) ∧
    (x.link = .keyed → goes .fabricSlot ((s.countSlot p).sendMgmt p)) ∧
    (x.link = .active → ∃ t, goes .fabricSlot t ∧ t.mem = s.mem ∧
      let s1 := s.countSlot p
      (s1.slotIndex p = none → t = s1.sendMgmt p) ∧
      (∀ i, s1.slotIndex p = some i →
        (dkind (x.entryAt i) = 0 → t = s1.sendMgmt p) ∧
        (dkind (x.entryAt i) ≠ 0 → let r := s1.slotFlit p i (x.entryAt i)
          t = if r.1.kind = 0 then r.2 else (r.2.noteLink p r.1).leave r.1))) ∧
    (s.leave f = { s with outbox := s.outbox ++ [(s.now, f)] }) ∧
    ((s.countSlot p).ports[p].flits = x.flits + 1) ∧
    (x.link ≠ .align → x.link ≠ .auth → x.link ≠ .keyed → x.link ≠ .active → goes .fabricSlot s) ∧
    (s.arg.flag = true →
      (s.pkgOf f.src.toNat = none → goes .standingFlitArrival (s.event srcFabric p.val evOther 0)) ∧
      (∀ k, s.pkgOf f.src.toNat = some k → f.kind = 1 →
        (f.lseq ≠ (s.conn k).nextRecv ∨ flitBlanked f = true → goes .standingFlitArrival (s.askResend k)) ∧
        (f.lseq = (s.conn k).nextRecv → flitBlanked f = false → Config.freeBit s.free = false →
          goes .standingFlitArrival (({ s with free := s.free + 1 } : State).askResend k)) ∧
        (f.lseq = (s.conn k).nextRecv → flitBlanked f = false → Config.freeBit s.free = true → flitReserved f = false →
          goes .standingFlitArrival ((({ s with free := s.free + 1 } : State).setConn
            { s.conn k with nextRecv := (s.conn k).nextRecv + 1, resend := false, owed := true }).forward f)))) ∧
    (s.arg.flag = false → ∀ k, s.pkgOf f.src.toNat = some k → f.kind = 1 →
      goes .standingFlitArrival (((s.tagFailure p).event srcFabric p.val evOther 0).askResend k)) ∧
    (∀ k, (s.askResend k).conn k = { s.conn k with resend := true, owed := true }) ∧
    (s.arg.flag = true → goes .acknowledgementOnly (s.acked [f])) ∧
    (s.arg.flag = false → s.pkgOf f.src.toNat = none → goes .acknowledgementOnly s) ∧
    (s.arg.flag = false → ∀ k, s.pkgOf f.src.toNat = some k →
      ((s.conn k).kept = [] → goes .acknowledgementOnly s) ∧
      (∀ g l, (s.conn k).kept = g :: l → f.tag.truncate 6 = g.lseq + 1 → ∃ t, goes .acknowledgementOnly t ∧ (t.conn k).kept = l) ∧
      (∀ g l, (s.conn k).kept = g :: l → (s.conn k).kept.length < (f.tag.truncate 6 - g.lseq : BitVec 6).toNat → goes .acknowledgementOnly s)) ∧
    (s.slotIndex p = none → goes .scheduledFlitArrival s) ∧
    (∀ i, s.slotIndex p = some i →
      let sid := astream (x.entryAt i)
      let st := x.streams.get 0 sid
      let void : Flit := { Flit.void with kind := 5, tag := BitVec.ofNat 16 sid, data := voidData }
      (akind (x.entryAt i) ≠ 1 → goes .scheduledFlitArrival s) ∧
      (akind (x.entryAt i) = 1 → s.arg.flag = true → flitReserved f = false →
        (streamKind st = 2 → f.kind = 0 ∨ f.kind = 1 ∨ f.kind = 3 → goes .scheduledFlitArrival (s.standingArrive p f true)) ∧
        (bits f.tag.toNat 0 12 = sid →
          (streamKind st = 1 → f.kind = 5 ∨ f.kind = 6 → goes .scheduledFlitArrival (s.streamArrive p sid s.ftime.toNat f 4)) ∧
          (streamKind st = 3 → f.kind = 4 → ∃ t, goes .scheduledFlitArrival t ∧ Schedules t s.now
            (.event .syncResult { EvArg.none with port := p, n := sid, flit := f, w := s.ftime - 240 })))) ∧
      (akind (x.entryAt i) = 1 → (s.arg.flag = false ∧ s.arg.flag2 = false ∨ s.arg.flag = true ∧
          (flitReserved f = true ∨ streamKind st = 2 ∧ f.kind ∉ [(0 : BitVec 3), 1, 3] ∨
            streamKind st ≠ 2 ∧ f.kind ∉ (if streamKind st = 3 then [(4 : BitVec 3)] else [5, 6]))) →
        let s1 := s.event srcFabric p.val evOther sid
        (streamKind st = 1 → goes .scheduledFlitArrival (s1.streamArrive p sid s.ftime.toNat void 4)) ∧
        (streamKind st = 2 → ∀ k, s.pkgOf (streamPeer st) = some k → k ≠ s.myPkg → goes .scheduledFlitArrival (s1.askResend k)) ∧
        (streamKind st = 3 → ∃ t, goes .scheduledFlitArrival t ∧ Schedules t s.now
          (.event .syncResult { EvArg.none with port := p, n := sid, flit := void, w := s.ftime - 240 })))) ∧
    (f.kind ≠ 4 ∨ (f.data.gran 0).bad = true → goes .syncResult (s.portM p.val 2 (s.reachParticipants n))) ∧
    (f.kind = 4 → (f.data.gran 0).bad = false → (f.data.gran 0).d.getLsbD 0 = false → goes .syncResult s) ∧
    (f.kind = 4 → (f.data.gran 0).bad = false → (f.data.gran 0).d.getLsbD 0 = true →
      s.ftime.toNat < s.arg.w.toNat + streamRoff (x.streams.get 0 n) →
      ∀ u timed m a, (s.tileAt u).run = .sync 3 timed m (some a) → m.toNat = n → s.restartPlanned u = false →
        a + 2 + (s.ftime.toNat - s.arg.w.toNat) ≤ s.now →
        ∃ t, goes .syncResult t ∧ t.restartPlanned u = true)

/-- R311, R314 to R320, R328, R329, R338, R363 to R365, R371, R373. Failure codes of control operations, the messages of a collective's
launch, and where a get's data lie in its reply, are the model's (log entries 14, 20, 23). -/
def Obligations.WindowEvents : Prop :=
  ∀ s : State,
    let f := s.arg.flit
    let win := f.win.toNat
    let len := f.count.toNat + 1
    let unit := tyWidth f.type.toNat / 8
    let goes := fun (i : Instr) (t : State) => exec i s = .next t
    let applied := fun (t : State) => Schedules t (s.now + 16) (.event .remoteApply { EvArg.none with flit := s.brought f }) ∧
      (f.last = true → s.failedHere f = false → Schedules t (s.now + 1) (.send (s.noticeFlit f.src.toNat f.opn.toNat 0 0))) ∧
      t.mem = s.mem ∧ t.tiles = s.tiles
    (∀ i right n, (i, right, n) ∈ [(Instr.putRequest, 115, len), (.getRequest, 114, len), (.accumulateRequest, 116, len), (.atomicRequest, 117, unit),
        (.futureFill, 117, unit)] →
      (PortOk s f right n → ∃ t, goes i t ∧ applied t) ∧ (∀ c, s.portCheck f right n = .error c → goes i (s.reject f c))) ∧
    ((∀ q ∈ s.tagOps, ¬ (q.1 = f.src.toNat ∧ q.2.1 = f.opn.toNat)) →
      (∀ c, s.portCheck f 116 len = .error c → goes .taggedAccumulate (s.reject f c)) ∧
      (∀ e, s.portCheck f 116 len = .ok e →
        (bit e.desc.toNat 118 = false → goes .taggedAccumulate (s.reject f 3)) ∧
        (bit e.desc.toNat 118 = true →
          ((∃ k ∈ s.dedup, k.1 = win ∧ k.2.1 = f.src.toNat ∧ k.2.2.1 = f.tag.toNat) → ∃ t, goes .taggedAccumulate t ∧
            Schedules t (s.now + 1) (.send (s.noticeFlit f.src.toNat f.opn.toNat 2 6)) ∧ t.mem = s.mem ∧ t.dedup = s.dedup) ∧
          ((∀ k ∈ s.dedup, ¬ (k.1 = win ∧ k.2.1 = f.src.toNat ∧ k.2.2.1 = f.tag.toNat)) →
            (4096 ≤ s.dedup.length → ∃ t, goes .taggedAccumulate t ∧
              Schedules t (s.now + 1) (.send (s.noticeFlit f.src.toNat f.opn.toNat 2 7)) ∧ t.mem = s.mem ∧ t.dedup = s.dedup) ∧
            (s.dedup.length < 4096 → ∃ t, goes .taggedAccumulate t ∧ applied t ∧ (win, f.src.toNat, f.tag.toNat, f.tile.val) ∈ t.dedup))))) ∧
    (s.windows.get none win = none → goes .remoteApply s) ∧
    (∀ e, s.windows.get none win = some e →
      let s1 := s.modWindow win fun e => { e with inFlight := e.inFlight - 1 }
      (∃ e', s1.windows.get none win = some e' ∧ e'.inFlight = e.inFlight - 1) ∧
      (f.op = 0 → goes .remoteApply ((s1.applyPut e f).visibleNotice f)) ∧
      (f.op = 1 → goes .remoteApply (s1.applyGet e f)) ∧
      (2 ≤ f.op.toNat → f.op.toNat < 9 ∨ 18 ≤ f.op.toNat → goes .remoteApply ((s1.applyAcc e f).visibleNotice f)) ∧
      (9 ≤ f.op.toNat → f.op.toNat < 18 → goes .remoteApply (s1.applyAmo e f))) ∧
    (f.last = false ∨ s.failedHere f = true → s.visibleNotice f = s) ∧
    (f.last = true → s.failedHere f = false → Schedules (s.visibleNotice f) (s.now + 1) (.send (s.noticeFlit f.src.toNat f.opn.toNat 1
      (if s.poisoned.contains (f.src.toNat, f.opn.toNat) then 8 else 0)))) ∧
    (∀ c, ((s.reject f c).rejected.contains (f.src.toNat, f.opn.toNat)) = true ∧
      Schedules (s.reject f c) (s.now + 1) (.send (s.noticeFlit f.src.toNat f.opn.toNat 2 c))) ∧
    (s.opOf f.opn.toNat = none → goes .getData s ∧ goes .atomicOldValue s ∧ goes .fenceDone s ∧ goes .grant s) ∧
    (∀ o, s.opOf f.opn.toNat = some o →
      let a := o.laddr + (f.offset.toNat - o.off)
      let ws := landWrites a len (s.brought f).data
      (∀ row, o.glob = false → runRows a len = [row] → goes .getData (s.landRow o.seq row (ws.filter fun w => w.g / 32 == row))) ∧
      goes .atomicOldValue (s.landRow o.seq (rowOf o.laddr) (gwCarry (o.laddr / 8 + 1) (Reg.ofGrans 1 [(s.brought f).data.gran 0]) 0xFF)) ∧
      goes .fenceDone (s.opLevel o.seq 2) ∧
      (∀ ex, o.kind = .lock ex → o.cask = none → goes .grant (({ s with locks := s.locks ++
        [({ rank := o.rank, win := o.win, tile := o.tile, holder := o.lockTile, ex := ex } : LockHeld)] } : State).opLevel o.seq 2)) ∧
      ((∀ ex, o.kind ≠ .lock ex) ∨ o.cask ≠ none → goes .grant (s.opLevel o.seq 2))) ∧
    (∀ o row ws, s.op? o.seq = some o → o.failed = false → o.glob = false → o.ret.contains row = true →
      (s.padTaken o.tile (row / 128) = false → ((s.landRow o.seq row ws).tileAt o.tile).pad = (s.tileAt o.tile).pad.writes ws) ∧
      (s.padTaken o.tile (row / 128) = true → ((s.landRow o.seq row ws).tileAt o.tile).pad = (s.tileAt o.tile).pad ∧
        Schedules (s.landRow o.seq row ws) (s.now + 1) (.landRow o.seq row ws))) ∧
    (len < 16 → goes .notices s) ∧
    (len = 16 →
      let r := bits f.data.d.toNat 0 128
      (bits r 69 13 ≠ s.rank → goes .notices s) ∧
      (bits r 69 13 = s.rank → s.opOf (bits r 55 14) = none → goes .notices s) ∧
      (∀ o, bits r 69 13 = s.rank → s.opOf (bits r 55 14) = some o → s.members o = [o] →
        (bits r 53 2 = 2 → goes .notices (s.opFail o.seq (bits r 48 5))) ∧
        (bits r 53 2 = 0 → bits r 48 5 = 0 → goes .notices (s.opLevel o.seq 1)) ∧
        (bits r 53 2 = 1 → bits r 48 5 = 0 → o.kind = .put → goes .notices (s.opLevel o.seq 2)))) ∧
    ((∀ r ∈ s.accRecs, ¬ (r.rank = f.src.toNat ∧ r.win = win ∧ r.open_ = false)) →
      goes .post { s with posts := s.posts ++ [(f.src.toNat, win)] }) ∧
    (∀ r, s.accRecs.find? (fun r => r.rank == f.src.toNat && r.win == win && !r.open_) = some r →
      let ids := (s.chamberOf r).map (·.seq)
      goes .post ((({ s with
          accRecs := s.accRecs.map fun q => if q == r then { q with open_ := true } else q
          ops := s.ops.map fun (o : OpRec) => if ids.contains o.seq then { o with chambered := false } else o } : State).opLevel
                  r.opn 2).depart r.rank)) ∧
    (∀ c, s.controlWindow f 0 = .error c → goes .fenceArrival (s.notify f.src.toNat f.opn.toNat 2 c)) ∧
    (∀ e, s.controlWindow f 0 = .ok e → ∃ t e', goes .fenceArrival t ∧ t.window win = some e' ∧
      ∃ ns, e'.arrivals = e.arrivals ++ [(f.src.toNat, f.opn.toNat, ns)]) ∧
    (∀ c, s.controlWindow f 1 = .error c → goes .completion ((s.event srcPort 0 evOther win).notify f.src.toNat f.opn.toNat 2 c)) ∧
    (∀ e, s.controlWindow f 1 = .ok e →
      (e.st ≠ .posted → goes .completion ((s.event srcPort 0 evOther win).notify f.src.toNat f.opn.toNat 2 1)) ∧
      (e.st = .posted → ∃ t e', goes .completion t ∧ t.window win = some e' ∧ f.src.toNat ∈ e'.bitmap ∧
        Schedules t (s.now + 1) (.send (s.noticeFlit f.src.toNat f.opn.toNat 1 0)) ∧
        (e'.allDone = true → Schedules t (s.now + 1) (.postEnd win)) ∧ ∀ k ∈ t.dedup, ¬ (k.1 = win ∧ k.2.1 = f.src.toNat))) ∧
    (s.lowerRequest f = true → ∃ t, goes .lockRequest t ∧ Schedules t s.now (.event .lockRequest s.arg) ∧ t.windows = s.windows) ∧
    (∀ c, s.lowerRequest f = false → s.controlWindow f 2 = .error c → goes .lockRequest (s.notify f.src.toNat f.opn.toNat 2 c)) ∧
    (∀ c, s.controlWindow f 2 = .error c → goes .release (s.notify f.src.toNat f.opn.toNat 2 c)) ∧
    (∀ e, s.controlWindow f 2 = .ok e →
      (s.lowerRequest f = false →
        (64 ≤ e.fifo.length → goes .lockRequest (s.notify f.src.toNat f.opn.toNat 2 5)) ∧
        (e.fifo = [] → e.holders = [] → ∃ t e', goes .lockRequest t ∧ t.window win = some e' ∧ e'.fifo = [] ∧
          e'.holders = [{ rank := f.src.toNat, tile := f.tile.val, ex := f.op == 5, opn := f.opn.toNat }]) ∧
        (∀ q, e.fifo = [] → e.holders = [q] → q.ex = true → ∃ t e', goes .lockRequest t ∧ t.window win = some e' ∧ e'.holders = [q] ∧
          e'.fifo = [{ rank := f.src.toNat, tile := f.tile.val, ex := f.op == 5, opn := f.opn.toNat }])) ∧
      ((∀ q ∈ e.holders, ¬ (q.rank = f.src.toNat ∧ q.tile = f.tile.val)) → goes .release (s.notify f.src.toNat f.opn.toNat 2 1)) ∧
      (∀ q, e.fifo = [] → e.holders = [q] → q.rank = f.src.toNat → q.tile = f.tile.val → ∃ t e', goes .release t ∧ t.window win = some e' ∧
        e'.holders = [] ∧ Schedules t (s.now + 1) (.send (s.noticeFlit f.src.toNat f.opn.toNat 1 0)))) ∧
    (∀ i ∈ [Instr.completionNoticeSend, .fenceArrivalSend, .releaseSend],
      (s.op? s.arg.n = none → goes i s) ∧
      (∀ o, s.op? s.arg.n = some o → s.mayDepart o = false → goes i s) ∧
      (∀ o, s.op? s.arg.n = some o → s.mayDepart o = true → o.kind ≠ .compl →
        goes i ((s.modOp s.arg.n fun q => { q with held := false }).depart o.rank)) ∧
      (∀ o r, s.op? s.arg.n = some o → s.mayDepart o = true → o.kind = .compl →
        s.accRecs.find? (fun r => r.rank == o.rank && r.win == o.win && r.closing) = some r →
        goes i ((({ s with accRecs := s.accRecs.erase r } : State).modOp s.arg.n fun q => { q with held := false }).depart o.rank))) ∧
    ((∀ r ∈ s.accRecs, ¬ (r.rank = s.arg.n ∧ r.win = s.arg.m ∧ r.open_ = false ∧ r.at_ + 2 ^ 24 ≤ s.now)) → goes .chamberQueueTimeout s) ∧
    (∀ r, s.accRecs.find? (fun r => r.rank == s.arg.n && r.win == s.arg.m && !r.open_ && decide (r.at_ + 2 ^ 24 ≤ s.now)) = some r →
      goes .chamberQueueTimeout ((((r.opn :: (s.chamberOf r).map (·.seq)).foldl (fun s i => s.opFail i 10)
        ({ s with accRecs := s.accRecs.filter fun q => q != r } : State))).depart r.rank)) ∧
    (∀ e, s.windows.get none s.arg.m = some e → e.freeing = none ∨ e.inFlight ≠ 0 → goes .windowEntryFreed s) ∧
    (∀ e w, s.windows.get none s.arg.m = some e → e.freeing = some w → e.inFlight = 0 → ∃ t, goes .windowEntryFreed t ∧
      t.windows.get none s.arg.m = none ∧ t.mem = s.mem ∧
      ∀ u id, w = some (u, id) → (t.tileAt u) = (s.tileAt u).fillNow id 0) ∧
    ((∀ l ∈ s.launches, l.id ≠ s.arg.launch.id) → 1 < s.arg.launch.id.n →
      goes .launchNotice { s with launches := s.launches ++ [s.arg.launch] }) ∧
    ((∀ l ∈ s.launches, l.id ≠ s.arg.launch.id) → s.arg.launch.id.n = 1 → crStrm s.arg.launch.record = false →
      ∃ t, goes .launchNotice t ∧ t = ({ s with launches := t.launches } : State).collSend (crRank s.arg.launch.record 0) (.request s.arg.launch.id) ∧
        t.launches = s.launches) ∧
    (s.grants = [] →
      (s.collOf s.arg.coll = none → goes .reservationRequest s) ∧
      (∀ c, s.collOf s.arg.coll = some c →
        (s.collFits c = false → goes .reservationRequest { s with grants := [s.arg.coll] }) ∧
        (s.collFits c = true → ∃ t, goes .reservationRequest t ∧ t.grants = []))) ∧
    (s.arg.n + 1 < s.arg.coll.n → goes .reservationGrant
      (s.collSend (s.arg.coll.lo + (s.arg.n + 1) * s.arg.coll.stride) (.request s.arg.coll))) ∧
    (s.arg.coll.n ≤ s.arg.n + 1 → goes .reservationGrant
      ((List.range s.arg.coll.n).foldl (fun s k => s.collSend (s.arg.coll.lo + k * s.arg.coll.stride) (.go s.arg.coll)) s)) ∧
    (s.collOf s.arg.coll = none → goes .go s ∧ goes .chunkStaging s ∧ goes .streamStaging s) ∧
    (∀ c, s.collOf s.arg.coll = some c →
      (s.arg.code ≠ 0 → goes .go (s.failColl c.opn s.arg.code.toNat)) ∧
      (s.arg.code = 0 → crHasSrc c.record c.member = true → goes .go ((List.range (crChunks c.record)).foldl (fun s _ => s.stageNext c.opn)
        ((s.modColl c.opn fun c => { c with gone := true }).opLevel c.opn 1))) ∧
      (s.arg.code = 0 → crHasSrc c.record c.member = false →
        goes .go ((((s.modColl c.opn fun c => { c with gone := true }).opLevel c.opn 1).opLevel c.opn 0).finishColl c.opn)) ∧
      goes .chunkStaging (s.stageNext c.opn) ∧ goes .streamStaging (s.streamStage c.opn)) ∧
    (∀ k c, s.collAt k = some c →
      let due := c.gone && !crStrm c.record && crHasSrc c.record c.member && decide (c.chunks.length < crChunks c.record) &&
        s.chunkReady c c.chunks.length
      (due = true → s.stageNext k = s.stageChunk c.opn (s.readChunk c c.chunks.length)) ∧ (due = false → s.stageNext k = s)) ∧
    (f.part = none → goes .towpathPartial (s.event srcEngine 1 evOther 0)) ∧
    (∀ d, f.part = some d → (s.collOf d.coll = none → goes .towpathPartial (s.event srcEngine 1 evOther 0)) ∧
      (∀ c, s.collOf d.coll = some c → goes .towpathPartial (s.takePart c f 0)))

/-- The events of the basin; what the model chose among them (the victim's room, the restart of a SYNC, the order of a cask's unit) is
logged (log entries 7, 10, 15, 19, 20). R18, R23, R27, R43, R173, R174, R201, R202, R211, R280, R282, R289, R386 to R392, R407, R413, R424, R428, R437, R444, R448, R453, R455, R458. -/
def Obligations.BasinEvents : Prop :=
  ∀ s : State,
    let t := s.arg.t
    let x := s.tileAt t
    let n := s.arg.n
    let b := s.arg.flag
    let g := x.engine b
    let goes := fun (i : Instr) (u : State) => exec i s = .next u
    (x.throttled.isSome = true → goes .tileCycle s) ∧
    (x.throttled = none → goes .tileCycle (((s.tileLand t).modTile t Tile.beginDue).tileTrap t)) ∧
    (x.run = .running → x.mDue = [] → x.logTraps = [] → x.dueF = [] → x.trapDue = none → x.syncRest = false → s.tileTrap t = s) ∧
    (∀ w, x.frozen = some w → s.waitOver t w = true → goes .freezeEnd (s.modTile t fun y =>
      { y with frozen := match w with | .release .. | .flush .. => some (.cycles 1) | _ => none })) ∧
    ((∀ w, x.frozen = some w → s.waitOver t w = false) → goes .freezeEnd s) ∧
    (x.fills.contains n = false → goes .l1Fill s) ∧
    (x.fills.contains n = true →
      (∀ k l, x.l1Find (n / 4) = some (k, l) → s.lineSlot t (n / 4) = (k, s)) ∧
      let p := s.lineSlot t (n / 4)
      ∀ l, (p.2.tileAt t).l1.get none p.1 = some l →
        ∃ u l', goes .l1Fill u ∧ (u.tileAt t).l1.get none p.1 = some l' ∧ (u.tileAt t).fills = x.fills.erase n ∧ u.mem = s.mem ∧
          l'.v = l.v ||| BitVec.ofNat 64 (field (16 * (n % 4)) 16) ∧ l'.dirty = l.dirty ∧ l'.own = l.own ∧ l'.pend = l.pend ∧ l'.tag = l.tag ∧
          ∀ j < 8, ∀ i < 8, let c := 8 * (8 * (n % 4) + j) + i
            bits l'.data.d.toNat (8 * c) 8 =
              if l.dirty.getLsbD c then bits l.data.d.toNat (8 * c) 8 else bits (p.2.memGran (some t) (8 * n + j)).d.toNat (8 * i) 8) ∧
    ((∀ k l, x.l1Find (n / 64) = some (k, l) → l.pend.getLsbD (n % 64) = false) → goes .ownershipGrant s) ∧
    (∀ k l, x.l1Find (n / 64) = some (k, l) → l.pend.getLsbD (n % 64) = true → ∃ u l', goes .ownershipGrant u ∧
      u.owner.get 0 n = t.val + 1 ∧ (u.tileAt t).l1.get none k = some l' ∧ l'.own.getLsbD (n % 64) = true ∧ l'.pend.getLsbD (n % 64) = false ∧
      l'.v = l.v ∧ u.mem = (s.takeWord n).mem ∧ ∀ v, v ≠ t → u.tileAt v = (s.takeWord n).tileAt v) ∧
    (s.owner.get 0 n ≠ t.val + 1 → goes .revocation s) ∧
    (s.owner.get 0 n = t.val + 1 → ∃ u, goes .revocation u ∧ u.owner.get 0 n = 0 ∧ ∀ k l, x.l1Find (n / 64) = some (k, l) →
      ∃ l', (u.tileAt t).l1.get none k = some l' ∧ l'.v.getLsbD (n % 64) = false ∧ l'.own.getLsbD (n % 64) = false ∧ l'.data = l.data ∧
        u.mem = (({ s with owner := s.owner.set 0 n 0 } : State).memWrites (some t)
          (gwCarry (32 * l.tag) l.data (l.dirty.toNat &&& field (4 * (n % 64)) 4))).mem) ∧
    goes .globalAtomicReturn (s.modTile t fun y => y.fill n (fillScalar ⟨s.arg.w, BitVec.ofNat 8 s.arg.m⟩)) ∧
    (let w := s.arg.walk
     let e := s.walk w.pdom w.va.toNat
     (w ∉ s.walks → goes .translationWalkEnd s) ∧
     (w ∈ s.walks → ∃ u, goes .translationWalkEnd u ∧ u.walks = s.walks.erase w ∧ u.mem = s.mem ∧
       (e.fault = none ∨ w.req ≠ 16 → e ∈ u.stlb ∧ e ∈ (u.tileAt w.tile).utlb))) ∧
    (∀ a, x.translate (n * 256) needX = .pa a → ∃ u, goes .fetchLineArrival u ∧ (u.tileAt t).fbuf.get none n =
      some (s.memReg (some t) (a / 256 * 32) 32)) ∧
    ((∀ a, x.translate (n * 256) needX ≠ .pa a) → goes .fetchLineArrival s) ∧
    (x.copyDue b = false → goes .copyEmission s) ∧
    (x.copyDue b = true →
      (g.cfg.copies ≤ g.cn → goes .copyEmission (s.modTile t fun y => y.modEngine b fun h => { h with st := .idle })) ∧
      (∀ f l, g.cn < g.cfg.copies → g.cfg.faults g.bfmt t g.cn = f :: l →
        goes .copyEmission (s.copyStop t b g.nest g.cn g.issue g.pc clsT (BitVec.ofNat 4 f.1) f.2)) ∧
      (g.cn < g.cfg.copies → g.cfg.faults g.bfmt t g.cn = [] → g.cfg.pages g.bfmt g.cn = [] → g.cfg.bytes g.bfmt g.cn ≠ 0 →
        (g.tm = false → s.copyLatePages t b g = []) → goes .copyEmission (s.launchCopy t b g))) ∧
    (x.run? n = none → goes .lateRowWrite s) ∧
    (∀ r, x.run? n = some r → (r.dstLeft.contains s.arg.m = true → goes .lateRowWrite (s.copyPut t r s.arg.m)) ∧
      (r.dstLeft.contains s.arg.m = false → goes .lateRowWrite s)) ∧
    (g.wq = [] → goes .writeQueueRowWrite s) ∧
    (∀ id k, g.wq = [(id, k)] → k / 8192 = (tid n).val →
      (s.padTaken (tid n) (k % 8192 / 128) = true → goes .writeQueueRowWrite (s.planQueue t (tid n) b)) ∧
      (∀ r, s.padTaken (tid n) (k % 8192 / 128) = false → x.run? id = some r → goes .writeQueueRowWrite
        ((s.modTile t fun y => y.modEngine b fun h => { h with wq := [] }).copyRow t r k))) ∧
    (g.rq = [] → goes .delayedSourceRead (s.modTile t fun y => y.modEngine b fun h => { h with rq := [] })) ∧
    (∀ id k due r, g.rq = [(id, k, due)] → x.run? id = some r →
      let key := r.src.getD k 0
      let u := tid (key / 8192)
      let rows := key % 8192 :: r.recRows (key % 8192)
      let popped := s.modTile t fun y => y.modEngine b fun h => { h with rq := [] }
      (due + 8 < s.now → goes .delayedSourceRead (popped.runStopS t r 4)) ∧
      (s.now ≤ due + 8 → g.rdAt ≠ s.now → (∀ q ∈ rows, s.padReadTaken u (q / 128) = false) →
        ((∃ q ∈ rows, (r.erc = true ∧ (s.tileAt u).pend.get 0 q ≠ 0) ∨ (s.tileAt u).isLate q = true) →
          goes .delayedSourceRead (popped.runStopS t r 1)) ∧
        ((∀ q ∈ rows, (r.erc = true → (s.tileAt u).pend.get 0 q = 0) ∧ (s.tileAt u).isLate q = false) → ∃ v, goes .delayedSourceRead v ∧
          (∀ q ∈ (v.tileAt t).copies, q.id = id → ∃ q' ∈ x.copies, q'.id = id ∧ q = { q' with got := q'.read (s.tileAt u).pad (key % 8192) }) ∧
          v.mem = s.mem))) ∧
    (s.host.rootSt ≠ 1 ∨ s.freeEntries = [] → goes .rootSlotCopy s) ∧
    (s.host.rootSt = 1 → s.freeEntries ≠ [] →
      goes .rootSlotCopy (({ s with host := { s.host with rootSt := 2 } } : State).createTasks [s.host.rootRec] 0 (some 3) true).2) ∧
    (s.task n = none → goes .taskReady s) ∧
    (∀ e, s.task n = some e →
      (e.st = .created → goes .taskReady (s.setTask n (some { e with st := if s.ready e then .ready else .waiting, since := false }))) ∧
      (e.st = .waiting → e.since = true → goes .taskReady (s.setTask n (some { e with st := .ready, since := false }))) ∧
      (e.st = .waiting → e.since = false → goes .taskReady s)) ∧
    (s.nextStart = none → goes .taskStart s) ∧
    (∀ q ps ts, s.nextStart = some (q, ps) → fitTiles (gangEnts q) (if gangBound q then s.freeTiles else s.openTiles) = some ts →
      goes .taskStart ((ps.foldl (fun s i => s.modTask i fun e => { e with bypass := e.bypass + 1 }) s).startGang q ts)) ∧
    (x.yields = false → goes .preemption s) ∧
    (x.yields = true → ∃ u c, goes .preemption u ∧ (u.tileAt t).susp = some c ∧ c.va = x.caskPlace ∧ c.mx = true ∧ c.pre = true ∧
      c.banks = BitVec.allOnes 64 ∧ (u.tileAt t).preempt = false ∧ u.mem = s.mem) ∧
    (∃ v, goes .reachJobStart v ∧ v.mem = s.mem ∧
      (∀ e ∈ s.taskList, ∀ u c, e.2.tile = some u → e.2.startAt = some c → recRjob e.2.record = n → c ≤ s.ftime.toNat →
        (s.tileAt u).run = .entering (2 ^ 64) → (v.tileAt u).run = .entering (s.tileAt u).rclk) ∧
      (∀ u, (s.tileAt u).run ≠ .entering (2 ^ 64) → v.tileAt u = s.tileAt u)) ∧
    (let late := s.taskList.filter fun e => recRjob e.2.record == n && e.2.st.unstarted && (match e.2.startAt with
        | some c => decide (c ≤ s.ftime.toNat + 32)
        | none => false)
     (late = [] → goes .partNotReady s) ∧ (∀ e, late = [e] → goes .partNotReady (s.failPart e.1))) ∧
    (s.taskOf t = none ∨ s.mayRetire t = false → goes .taskRetire s) ∧
    (∀ i e, s.taskOf t = some (i, e) → s.mayRetire t = true →
      (∀ f, firstDue x.dueF = some f → goes .taskRetire (s.failTile t 7 (f.2.2.cls.toNat * 16 + f.2.2.low.toNat) f.2.2.info)) ∧
      (x.dueF = [] →
        (x.trp = true → goes .taskRetire (s.failTile t 4 0 0)) ∧
        (x.trp = false → x.claim = none → goes .taskRetire (s.retire t)) ∧
        (∀ c, x.trp = false → x.claim = some c → goes .taskRetire ((s.retire t).handOver t i e c)))) ∧
    (∀ e, s.task n = some e →
      (e.st ≠ .retired → goes .redirectSwitch s) ∧
      (e.st = .retired → e.shadows = [] → goes .redirectSwitch (s.setTask n none)) ∧
      (∀ h, e.st = .retired → e.shadows = [h] → s.maySwitch e h = true → goes .redirectSwitch ((s.switchTile h).setTask n none))) ∧
    (s.mayArrive t = false → goes .syncArrival s) ∧
    (∀ lvl timed m a, s.mayArrive t = true → x.run = .sync lvl timed m a →
      goes .syncArrival (s.modTile t fun y => { y with run := match y.run with
        | .sync lvl timed m _ => .sync lvl timed m (some s.now)
        | r => r }).planRestart) ∧
    (s.arg.tiles = BitVec.ofNat 32 (2 ^ t.val) → x.arrivedAt.isSome = true → x.susp = none → goes .syncRestart (s.modTile t fun y => y.restart b)) ∧
    (x.task.isSome = true → ∃ u k, goes .classMEvent u ∧ (u.tileAt t).mDue = x.mDue ++ [(k, s.arg.low, s.arg.w)] ∧ k ≤ 64 ∧ u.mem = s.mem) ∧
    (x.task = none → ∃ u, goes .classMEvent u ∧ u.tileAt t = x ∧ u.mem = s.mem) ∧
    (x.susp = none ∨ s.drained t = false → goes .suspensionDrainEnd s) ∧
    (∀ c, x.susp = some c → s.drained t = true → ∃ u, goes .suspensionDrainEnd u ∧ (u.tileAt t).run = .writing ∧ Schedules u (s.now + 1) (.l1Back t none) ∧
      Schedules u (s.now + 16) (.caskSections t 0) ∧
      Schedules u (s.now + 16 + ceilDiv c.size 256) (.event .caskWritten { EvArg.none with t := t }) ∧ u.mem = s.mem) ∧
    (x.susp = none ∨ s.taskOf t = none → goes .caskWritten s) ∧
    (∀ c i e, x.susp = some c → s.taskOf t = some (i, e) →
      (x.run ≠ .writing ∨ c.done = true → goes .caskWritten s) ∧
      (x.run = .writing → c.done = false → c.gang = none →
        ∃ u e', goes .caskWritten u ∧ u.task i = some e' ∧ e'.st = .suspended ∧ e'.cask = some c.va ∧ e'.tile = none ∧
          Schedules u (s.now + 1) (.tileFree t))) ∧
    (s.op? n = none → goes .caskNoticeLanding s) ∧
    (∀ o, s.op? n = some o →
      (o.failed = true → goes .caskNoticeLanding s) ∧
      (o.failed = false → s.arg.m < 3 → o.has s.arg.m = true → goes .caskNoticeLanding s) ∧
      (o.failed = false → s.arg.m < 3 → o.has s.arg.m = false → (∀ a ∈ s.anchors, some a.id ≠ o.cask) →
        goes .caskNoticeLanding (s.modOp o.seq fun q => q.reach s.arg.m)) ∧
      (∀ a, o.failed = false → s.arg.m < 2 → o.has s.arg.m = false → s.anchors.find? (fun a => some a.id == o.cask) = some a →
        goes .caskNoticeLanding ((s.caskHandle a o.h fun h => h.reach o s.arg.m).modOp o.seq fun q => q.reach s.arg.m))) ∧
    (x.claim = none → goes .rsmClaim s) ∧
    (∀ c, x.claim = some c →
      (x.run ≠ .claiming ∨ c.done = true → goes .rsmClaim s) ∧
      (x.run = .claiming → c.done = false →
        let r := s.memReg none (c.pa / 8) 32
        (∀ q, s.arg.n ≠ 1 ∨ hget r.d.toNat hfState ≠ csAnchored → s.claimFault x c r = some q → ∃ u, goes .rsmClaim u ∧ (u.tileAt t).claim = some { c with done := true, fault := some q } ∧ u.mem = s.mem ∧
          Schedules u (max (c.at_ + 64) (s.now + 32)) (.claimEnd t)) ∧
        (s.arg.n = 1 ∨ s.claimFault x c r = none → hget r.d.toNat hfState = csAnchored → ∃ u, goes .rsmClaim u ∧ u.tiles = s.tiles ∧ u.mem = s.mem ∧
          Schedules u (s.now + 1) (.event .rsmClaim { EvArg.none with t := t, n := 1 })) ∧
        (s.claimFault x c r = none → hget r.d.toNat hfState ≠ csAnchored → ∃ u, goes .rsmClaim u ∧
          (u.tileAt t).claim = some (s.claimed c r.d.toNat).1 ∧ (s.claimed c r.d.toNat).1.done = true ∧
          Schedules u (max (c.at_ + 64) (s.now + 32)) (.claimEnd t)))) ∧
    (x.run ≠ .restoring → goes .restoreComplete s) ∧
    (∀ c e, x.claim = some c → s.task n = some e → x.run = .restoring →
      (e.st ≠ .running → goes .restoreComplete (s.modTile t Tile.vacate)) ∧
      (e.st = .running → e.gcask = none → goes .restoreComplete (s.restoreTile t n c.va c.pdom c.home)) ∧
      (∀ a, e.st = .running → e.gcask = some a → goes .restoreComplete
        ((s.setHeader (s.caskPages c.pdom a 256) a hfState csSpent).restoreTile t n c.va c.pdom c.home))) ∧
    ((∀ d ∈ s.dups, d.id ≠ n) → goes .caskdupCopyDone s) ∧
    (∀ d, s.dups.find? (fun d => d.id == n) = some d → ∃ u, goes .caskdupCopyDone u ∧ u.dups = (s.dups.filter fun e => e.id != d.id))

/-- R63 to R65, R143. -/
def Obligations.RindAndHardwired : Prop :=
  (∀ g : Gran, g.bad = true ↔ g.r.getLsbD 7 = true ∨ g.r.toNat % 128 ≠ crc7 g.d.toNat) ∧
  (∀ d : Word, (Gran.fresh d).bad = false ∧ (Gran.fresh d).d = d ∧ (Gran.poison d).bad = true ∧ (Gran.poison d).r.toNat = 128 + crc7 d.toNat) ∧
  (∀ a b : Word, crc7 (a ^^^ b).toNat = crc7 a.toNat ^^^ crc7 b.toNat ^^^ 0x5D) ∧
  (∀ x : Tile, ((x.scalar 0).gran 0).d = 0 ∧ ((x.scalar 0).gran 0).r = 0x5D ∧ (x.pred 0).d.toNat = 2 ^ 256 - 1 ∧ Clean (x.pred 0) ∧
    (∀ v, x.setScalar 0 v = x) ∧ (∀ v, x.setPred 0 v = x) ∧
    (∀ n v, n ≠ 0 → n < 64 → (x.setScalar n v).scalar n = v ∧ ∀ m, m ≠ n → (x.setScalar n v).scalar m = x.scalar m) ∧
    (∀ n v, n ≠ 0 → n < 32 → (x.setPred n v).pred n = v ∧ ∀ m, m ≠ n → (x.setPred n v).pred m = x.pred m))

/-- R148, R150 to R153, R216. -/
def Obligations.ResultsLand : Prop :=
  ∀ (s : State) (t : Tid), (s.tileAt t).frozen = none → (s.tileAt t).mxNow = [] →
    let x := s.tileAt t
    let y := (s.tileLand t).tileAt t
    (∀ l n v, x.inflight = [l] → l.waiting = false → l.fault = none → l.writes = [.scalar n v] → n ≠ 0 →
      y.rclk = x.rclk + 1 ∧
      (l.due ≤ x.rclk + 1 → y.scalar n.toNat = v ∧ y.inflight = [] ∧ ∀ m : BitVec 6, m ≠ n → y.scalar m.toNat = x.scalar m.toNat) ∧
      (x.rclk + 1 < l.due → y.inflight = [l] ∧ y.s = x.s)) ∧
    (∀ l, x.inflight = [l] → l.waiting = false → l.fault = none → l.due ≤ x.rclk + 1 → x.stDue = 0 → l.fp = 0 → l.st = 0 →
      (∀ n v m q, l.writes = [.vec n v m q] →
        (∀ j < 32, let k := bits m.toNat (8 * j) 8
          let o := (x.vec n).gran j
          let g := (y.vec n).gran j
          (k = 255 → g = v.gran j) ∧ (k = 0 → g = o) ∧ (0 < k → k < 255 → g.bad = (o.bad || (v.gran j).bad)) ∧
          ∀ i < 8, bits g.d.toNat (8 * i) 8 = bits (if bit k i then v.gran j else o).d.toNat (8 * i) 8) ∧
        (∀ p, q = some p → y.latch p.val = y.vec n) ∧ (∀ p : Fin 4, q ≠ some p → y.latch p.val = x.latch p.val) ∧
        (∀ r, r ≠ n → y.vec r = x.vec r) ∧ y.s = x.s ∧ y.p = x.p ∧ y.z = x.z) ∧
      (∀ n v m, n ≠ 0 → l.writes = [.pred n v m] →
        (∀ j < 4, let k := bits m.toNat (64 * j) 64
          let o := (x.pred n.toNat).gran j
          let g := (y.pred n.toNat).gran j
          (k = 2 ^ 64 - 1 → g = v.gran j) ∧ (k = 0 → g = o) ∧ (0 < k → k < 2 ^ 64 - 1 → g.bad = (o.bad || (v.gran j).bad)) ∧
          ∀ i < 64, g.d.getLsbD i = (if bit k i then v.gran j else o).d.getLsbD i) ∧
        (∀ r : BitVec 5, r ≠ n → y.pred r.toNat = x.pred r.toNat) ∧ y.s = x.s ∧ y.v = x.v ∧ y.z = x.z) ∧
      (∀ n v m, l.writes = [.acc n v m] →
        (∀ i < 128, bits (y.acc n).d.toNat (32 * i) 32 = bits (if m.getLsbD i then v else x.acc n).d.toNat (32 * i) 32) ∧
        (m = BitVec.allOnes 128 → y.acc n = v) ∧ (∀ r, r ≠ n → y.acc r = x.acc r) ∧ y.s = x.s ∧ y.p = x.p ∧ y.v = x.v) ∧
      (∀ n v, l.writes = [.sreg n v] →
        (n ∉ [srSTATUS, srFPCTL, 0x012, srLLVL] → y.sreg n = BitVec.ofNat 64 (v.toNat % 2 ^ sregWidth n)) ∧
        (n = srFPCTL → y.sreg n = BitVec.ofNat 64 (v.toNat % 2 ^ 38)) ∧ (n = srLLVL → y.sreg n = BitVec.ofNat 64 (min (v.toNat % 8) 4)) ∧
        (n = srSTATUS → ∀ b < 64, (y.sreg n).getLsbD b =
          if 8 ≤ b ∧ b < 14 then v.getLsbD b else if b = 2 then v.getLsbD b && x.st stSV else (b == 0 || b == 1 || b == 3) && (x.sreg n).getLsbD b) ∧
        (∀ r, r ≠ n → y.sreg r = x.sreg r) ∧ y.s = x.s ∧ y.p = x.p ∧ y.v = x.v ∧ y.z = x.z)) ∧
    (∀ l n v, x.inflight = [l] → l.waiting = false → l.fault = none → l.writes = [.scalar n v] → l.due ≤ x.rclk + 1 →
      y.sreg srFPCTL = x.sreg srFPCTL ||| l.fp ∧ y.sreg srSTATUS = x.sreg srSTATUS ||| (x.stDue ||| l.st)) ∧
    (∀ a b n v w, (x.inflight = [a, b] ∨ x.inflight = [b, a]) → a.waiting = false → b.waiting = false → a.fault = none → b.fault = none →
      a.writes = [.scalar n v] → b.writes = [.scalar n w] → n ≠ 0 → a.due ≤ x.rclk + 1 → b.due ≤ x.rclk + 1 →
      (a.issue < b.issue ∨ a.issue = b.issue ∧ a.slot < b.slot) →
      y.scalar n.toNat = w ∧ y.inflight = [] ∧ y.st stWCOL = true ∧
      (x.st stWCT = false → y.dueF = x.dueF) ∧
      (x.st stWCT = true → ∃ f, y.dueF = x.dueF ++ [f] ∧ f.2.2.cls = clsS ∧ f.2.2.low = 8 ∧ f.2.2.kind = .issue ∧
        f.2.2.info.toNat = min (b.tc - a.tc) 2047 + 2 ^ 11 * a.slot.val + 2 ^ 15 * b.slot.val + 2 ^ 19 * n.toNat))

/-- R414, R416, R417, R419, R421, R424 (Table 15-5). -/
def Obligations.TrapEntryAndReturn : Prop :=
  (∀ (s : State) (t : Tid) (q : TrapReq),
    let x := s.tileAt t
    let y := (s.takeTrap t q).tileAt t
    let mode : Word := (if x.st stSV then 1 else 0) + (if x.st stTM then 2 else 0)
    (x.trp = true → s.takeTrap t q = s.failTile t 5 0 0) ∧
    (x.trp = false → q.cls ≠ clsD ∨ q.low ≠ 0 ∧ bit (x.sreg srDBGCTL).toNat 2 = false →
      y.sreg srCAUSE = BitVec.ofNat 64 (16 * q.cls.toNat + q.low.toNat) ∧ y.sreg srTRAPINFO = q.info ∧ y.sreg srTRAPPC = q.pc ∧
      (q.kind = .issue → y.sreg srSLOTDONE = 0 ∧ y.sreg srTRAPNX = (x.fq.getD 1 0 &&& ~~~0x3F) + mode ∧
        y.sreg (srTRAPNX + 1) = x.fq.getD 2 0 &&& ~~~0x3F) ∧
      (q.kind = .after → y.sreg srSLOTDONE = 0xFF ∧ y.sreg srTRAPNX = (x.fq.getD 0 0 &&& ~~~0x3F) + mode ∧
        y.sreg (srTRAPNX + 1) = x.fq.getD 1 0 &&& ~~~0x3F ∧ y.sreg (srTRAPNX + 2) = x.fq.getD 2 0 &&& ~~~0x3F) ∧
      y.trp = true ∧ y.sv? = true ∧ y.timed = false ∧ y.st stTDL = true ∧
      (let h := (x.sreg srHBASE &&& ~~~0xFFF) + BitVec.ofNat 64 (256 * q.cls.toNat)
       y.fq = [h, h + 64, h + 128]) ∧
      y.run = .entering (x.rclk + 8) ∧ y.inflight = [] ∧ y.snapshot = x.inflight.map (fun l => { l with due := l.due - x.rclk }) ∧
      y.s = x.s ∧ y.p = x.p ∧ y.v = x.v ∧ y.q = x.q ∧ y.z = x.z ∧ y.pad = x.pad ∧
      (∀ n, n ∉ [srCAUSE, srTRAPINFO, srTRAPPC, srSLOTDONE, srTRAPNX, srTRAPNX + 1, srTRAPNX + 2, srSTATUS] → y.sreg n = x.sreg n) ∧
      (s.takeTrap t q).mem = s.mem ∧ ∀ u, u ≠ t → (s.takeTrap t q).tileAt u = s.tileAt u)) ∧
  (∀ x : Tile,
    let y := x.trapReturn
    let nx := fun i => x.sreg (srTRAPNX + i) &&& ~~~0x3F
    y.trp = false ∧ y.sv? = (x.sreg srTRAPNX).getLsbD 0 ∧ y.timed = (x.sreg srTRAPNX).getLsbD 1 ∧ y.run = .running ∧
    ((x.sreg srSLOTDONE).toNat % 256 = 0 → y.fq = [x.sreg srTRAPPC &&& ~~~0x3F, nx 0, nx 1]) ∧
    ((x.sreg srSLOTDONE).toNat % 256 = 255 → y.fq = [nx 0, nx 1, nx 2]) ∧
    y.inflight = x.snapshot.map (fun l => { l with due := x.rclk + l.due }) ∧ y.s = x.s ∧ y.p = x.p ∧ y.v = x.v)

/-- R18, R143, R383, R462, R468; what memory and the registers hold is the model's choice where the spec gives nothing (log entry 1). -/
def Obligations.ResetState : Prop :=
  let s := State.reset
  s.MemOk ∧ (∀ t : Tid, (s.tileAt t).task = none ∧ (s.tileAt t).run = .idle ∧ (s.tileAt t).inflight = [] ∧ (s.tileAt t).mq = [] ∧
    (s.tileAt t).trp = false ∧ (s.tileAt t).utlb = [] ∧ (((s.tileAt t).scalar 0).gran 0).d = 0 ∧ (((s.tileAt t).scalar 0).gran 0).r = 0x5D ∧
    ((s.tileAt t).pred 0).d.toNat = 2 ^ 256 - 1 ∧ Clean ((s.tileAt t).pred 0)) ∧
  (∀ p : Fin 9, s.ports[p].link = .off) ∧ (∀ k, s.counter k = Reg.zero 1 ∧ s.ctrSeen.get (Reg.zero 1) k = Reg.zero 1) ∧ s.ftime = 0 ∧
  s.host.rootSt = 0 ∧ s.host.cmdst = 0 ∧ s.host.rpool = 0x10000000 ∧ s.binds = [] ∧ (∀ w, s.windows.get none w = none) ∧ s.stlb = [] ∧
  (∀ i, s.task i = none) ∧ s.bootStep = 0

/-- R148, R165, R413. `afterIssue` and `retire` are the model's names for what follows a tile's issue. -/
def Obligations.StepRunsDecoded : Prop :=
  (∀ (s : State) (n b k : Nat) (i : Instr) (s1 : State), Issues s n b → headerErrs (bits b 0 16) = [] → k < 8 →
    decodeSlot k (slotBits b k) = .ok i → (∀ j, i ≠ .nop j) → (∀ j < 8, j ≠ k → slotBits b j = 0) →
    let s0 : State := { s with cur := tid n }
    exec i s0 = .next s1 → s0.tile.results ≤ 96 →
    (s1.tile.issued = .acted → s1.tile.results ≤ 96 →
      step s = (s1.lateBundle.onTile fun y => y.retire s0.tile (Header.ofNat (bits b 0 16)) (logOf s0.tile b)).afterIssue n) ∧
    (s1.tile.issued ≠ .acted → step s = (s1.onTile fun y => { y with resv := s0.tile.resv }).afterIssue n)) ∧
  (∀ (s : State) (i : Instr) (a : EvArg) (rest : List Entry),
    (s.turn = .reads → dueEntry s.now readOrd s.agenda = some (.event i a, rest) → step s = exec i { s with agenda := rest, arg := a }) ∧
    (s.turn = .writes → dueEntry s.now (fun o => !readOrd o) s.agenda = some (.event i a, rest) →
      step s = exec i { s with agenda := rest, arg := a }) ∧
    (s.turn = .poll → s.noticed = some (i, a) → step s = exec i { s with arg := a }))

/-- Table 5-17, Table 9-8, R45, R158, R162, R190, R199, R291, R384, R420, R128. -/
def Obligations.DecodeWords : Prop :=
  decodeSlot 0 0x30C403 = .ok (.mul { imm32 := 0, neg := false, pq := 0, b := 3, a := 3, d := 4 }) ∧
  decodeSlot 0 0x000001000001C781 = .ok (.addImmediate { imm32 := 256, neg := false, pq := 0, b := 0, a := 7, d := 7 }) ∧
  decodeSlot 0 0x0000000600000538 = .ok (.mfsr { imm32 := 6, neg := false, pq := 0, b := 0, a := 0, d := 5 }) ∧
  decodeSlot 1 0x00000050808060281004 = .ok (.vfma { v1 := false, imm16 := 0, z := false, n := false, sub := 0, sat := false, rnd := 0, type := 10,
                                                     pred := 2, c := 4, b := 6, a := 5, d := 4 }) ∧
  decodeSlot 2 0x00000050808060281004 = .ok (.vfma { v1 := true, imm16 := 0, z := false, n := false, sub := 0, sat := false, rnd := 0, type := 10,
                                                     pred := 2, c := 4, b := 6, a := 5, d := 4 }) ∧
  decodeSlot 2 0x00000050800000281080 = .ok (.vrcp { v1 := true, imm16 := 0, z := false, n := false, sub := 0, sat := false, rnd := 0, type := 10,
                                                     pred := 2, c := 0, b := 0, a := 5, d := 4 }) ∧
  decodeSlot 1 0x00000050800000281080 = .error [encErr 1 .v1Only 0 9] ∧
  decodeSlot 3 0x0002CC0004202002 = .ok (.mma { start := 44, sat := true, sgnB := true, sgnA := false, zrow0 := 0, pitch := 1, rows := 16, abase := 4,
                                                w := 0, z := 0 }) ∧
  decodeSlot 4 0x000000A020038241 = .ok (.vld { res := false, n := false, z := false, tagchk := false, tag := 0, pred := 0, x := 0, type := 10,
                                                imm15 := 0x100, base := 7, d := 9 }) ∧
  decodeSlot 5 0x006A83E50783 = .ok (.vstx { hi := 0, sc := 0, pred := 3, type := 10, imm11 := 0x41F, base := 10, data := 30 }) ∧
  decodeSlot 6 0x000000A30A200001 = .ok (.cloop { imm20 := 0, x := 5, c := 6, b := 5, a := 4, d := 0, neg := false, pred := 0 }) ∧
  decodeSlot 6 0x000000000040E030 = .ok (.tspawn { imm20 := 0, x := 0, c := 0, b := 0, a := 8, d := 7, neg := false, pred := 0 }) ∧
  decodeSlot 7 0x05007012 = .ok (.trap { arg := 0x05007, neg := false, pred := 0 }) ∧
  decodeSlot 7 0x0000E00D = .ok (.fence { arg := 0x0000E, neg := false, pred := 0 }) ∧
  decodeSlot 7 0x3F = .error [encErr 7 .notInstruction 0 5] ∧ decodeSlot 6 0x7F = .error [encErr 6 .notInstruction 0 6] ∧
  decodeSlot 0 0xFF = .error [encErr 0 .notInstruction 0 7]

/-- R109 to R128: no bit of an encoding is dropped. -/
def Obligations.DecodeEncode : Prop :=
  (∀ (i : Instr) (k w : Nat), i.wf = true → encode i = some (k, w) → k < 8 ∧ w < 2 ^ slotWidth k ∧ decodeSlot k w = .ok i) ∧
  (∀ i : Instr, i ∉ events → encode i ≠ none) ∧ (∀ i ∈ events, encode i = none) ∧
  (∀ (i j : Instr), i.wf = true → j.wf = true → encode i ≠ none → encode i = encode j → i = j) ∧
  (∀ (k w : Nat) (i : Instr), k < 8 → w < 2 ^ slotWidth k → decodeSlot k w = .ok i → i.wf = true ∧ encode i = some (k, w))

/-- The canonical form of memory is an invariant of the machine: equal memories are equal data. -/
def Obligations.EveryStepKeepsMemory : Prop :=
  ∀ s t : State, s.MemOk → step s = .next t → t.MemOk

/-- R466: the aperture is 64 GiB; there is no other stop in the model. -/
def Obligations.EveryInstructionAnswers : Prop :=
  ∀ (i : Instr) (s : State), (∀ r, exec i s ≠ .refused r) ∧
    ((i = .apertureRead → s.arg.n + s.arg.m ≤ 2 ^ 36) → (i = .apertureWrite → s.arg.n + s.arg.bytes.length ≤ 2 ^ 36) → ∃ t, exec i s = .next t)

end
end

