-- ==== Sys2Proof/Laws/Encode.lean ====
section
/-! SUPPORT. The fields of a slot are read back from the word that holds them, its opcode too, and the word fits the slot. -/

namespace Sys2Proof

theorem bits_eq (x lo w : Nat) : bits x lo w = x / 2 ^ lo % 2 ^ w := by
  rw [bits, Nat.shiftRight_eq_div_pow]

theorem bit_eq (x i : Nat) : bit x i = decide (x / 2 ^ i % 2 = 1) := by
  rw [bit, Nat.testBit_eq_decide_div_mod_eq]

theorem ofNat_of_eq {w : Nat} (x : Nat) (v : BitVec w) (h : x = v.toNat) : BitVec.ofNat w x = v := by
  subst h; simp

theorem bool_of_mod (b : Bool) (x : Nat) (h : x = b.toNat) : decide (x = 1) = b := by
  subst h; cases b <;> rfl

theorem SF.op_word (op : Nat) (f : SF) (h : op < 2 ^ 8) : bits (SF.word op f) 0 8 = op := by
  have := f.d.isLt; have := f.a.isLt; have := f.b.isLt; have := f.pq.isLt; have := f.neg.toNat_le; have := f.imm32.isLt
  simp only [bits_eq, SF.word]
  omega

theorem SF.word_lt (op : Nat) (f : SF) (h : op < 2 ^ 8) : SF.word op f < 2 ^ 64 := by
  have := f.d.isLt; have := f.a.isLt; have := f.b.isLt; have := f.pq.isLt; have := f.neg.toNat_le; have := f.imm32.isLt
  simp only [SF.word]
  omega

theorem SF.ofNat_word (op : Nat) (f : SF) (h : op < 2 ^ 8) : SF.ofNat (SF.word op f) = f := by
  have := f.d.isLt; have := f.a.isLt; have := f.b.isLt; have := f.pq.isLt; have := f.neg.toNat_le; have := f.imm32.isLt
  cases f
  simp only [SF.ofNat, bits_eq, bit_eq, SF.mk.injEq] at *
  refine ⟨ofNat_of_eq _ _ ?_, bool_of_mod _ _ ?_, ofNat_of_eq _ _ ?_, ofNat_of_eq _ _ ?_, ofNat_of_eq _ _ ?_, ofNat_of_eq _ _ ?_⟩ <;>
    simp only [SF.word] <;> omega

theorem VF.op_word (op : Nat) (f : VF) (h : op < 2 ^ 10) : bits (VF.word op f) 0 10 = op := by
  simp only [bits_eq, VF.word]
  omega

theorem VF.word_lt (op : Nat) (f : VF) (h : op < 2 ^ 10) : VF.word op f < 2 ^ 80 := by
  have := f.d.isLt; have := f.a.isLt; have := f.b.isLt; have := f.c.isLt; have := f.pred.isLt; have := f.type.isLt
  have := f.rnd.isLt; have := f.sat.toNat_le; have := f.sub.isLt; have := f.n.toNat_le; have := f.z.toNat_le; have := f.imm16.isLt
  simp only [VF.word]
  omega

theorem VF.ofNat_word (op : Nat) (f : VF) (h : op < 2 ^ 10) : VF.ofNat f.v1 (VF.word op f) = f := by
  have := f.d.isLt; have := f.a.isLt; have := f.b.isLt; have := f.c.isLt; have := f.pred.isLt; have := f.type.isLt
  have := f.rnd.isLt; have := f.sat.toNat_le; have := f.sub.isLt; have := f.n.toNat_le; have := f.z.toNat_le; have := f.imm16.isLt
  cases f
  simp only [VF.ofNat, bits_eq, bit_eq, VF.mk.injEq, true_and] at *
  refine ⟨ofNat_of_eq _ _ ?_, bool_of_mod _ _ ?_, bool_of_mod _ _ ?_, ofNat_of_eq _ _ ?_, bool_of_mod _ _ ?_, ofNat_of_eq _ _ ?_,
    ofNat_of_eq _ _ ?_, ofNat_of_eq _ _ ?_, ofNat_of_eq _ _ ?_, ofNat_of_eq _ _ ?_, ofNat_of_eq _ _ ?_, ofNat_of_eq _ _ ?_⟩ <;>
    simp only [VF.word] <;> omega

theorem MF.op_word (op : Nat) (f : MF) (h : op < 2 ^ 6) : bits (MF.word op f) 0 6 = op := by
  simp only [bits_eq, MF.word]
  omega

theorem MF.word_lt (op : Nat) (f : MF) (h : op < 2 ^ 6) : MF.word op f < 2 ^ 64 := by
  have := f.z.isLt; have := f.w.isLt; have := f.abase.isLt; have := f.rows.isLt; have := f.pitch.isLt; have := f.zrow0.isLt
  have := f.sgnA.toNat_le; have := f.sgnB.toNat_le; have := f.sat.toNat_le; have := f.start.isLt
  simp only [MF.word]
  omega

theorem MF.ofNat_word (op : Nat) (f : MF) (h : op < 2 ^ 6) : MF.ofNat (MF.word op f) = f := by
  have := f.z.isLt; have := f.w.isLt; have := f.abase.isLt; have := f.rows.isLt; have := f.pitch.isLt; have := f.zrow0.isLt
  have := f.sgnA.toNat_le; have := f.sgnB.toNat_le; have := f.sat.toNat_le; have := f.start.isLt
  cases f
  simp only [MF.ofNat, bits_eq, bit_eq, MF.mk.injEq] at *
  refine ⟨ofNat_of_eq _ _ ?_, bool_of_mod _ _ ?_, bool_of_mod _ _ ?_, bool_of_mod _ _ ?_, ofNat_of_eq _ _ ?_, ofNat_of_eq _ _ ?_,
    ofNat_of_eq _ _ ?_, ofNat_of_eq _ _ ?_, ofNat_of_eq _ _ ?_, ofNat_of_eq _ _ ?_⟩ <;>
    simp only [MF.word] <;> omega

theorem LF.op_word (op : Nat) (f : LF) (h : op < 2 ^ 6) : bits (LF.word op f) 0 6 = op := by
  simp only [bits_eq, LF.word]
  omega

theorem LF.word_lt (op : Nat) (f : LF) (h : op < 2 ^ 6) : LF.word op f < 2 ^ 64 := by
  have := f.d.isLt; have := f.base.isLt; have := f.imm15.isLt; have := f.type.isLt; have := f.x.isLt; have := f.pred.isLt
  have := f.tag.isLt; have := f.tagchk.toNat_le; have := f.z.toNat_le; have := f.n.toNat_le; have := f.res.toNat_le
  simp only [LF.word]
  omega

theorem LF.ofNat_word (op : Nat) (f : LF) (h : op < 2 ^ 6) : LF.ofNat (LF.word op f) = f := by
  have := f.d.isLt; have := f.base.isLt; have := f.imm15.isLt; have := f.type.isLt; have := f.x.isLt; have := f.pred.isLt
  have := f.tag.isLt; have := f.tagchk.toNat_le; have := f.z.toNat_le; have := f.n.toNat_le; have := f.res.toNat_le
  cases f
  simp only [LF.ofNat, bits_eq, bit_eq, LF.mk.injEq] at *
  refine ⟨bool_of_mod _ _ ?_, bool_of_mod _ _ ?_, bool_of_mod _ _ ?_, bool_of_mod _ _ ?_, ofNat_of_eq _ _ ?_, ofNat_of_eq _ _ ?_,
    ofNat_of_eq _ _ ?_, ofNat_of_eq _ _ ?_, ofNat_of_eq _ _ ?_, ofNat_of_eq _ _ ?_, ofNat_of_eq _ _ ?_⟩ <;>
    simp only [LF.word] <;> omega

theorem TF.op_word (op : Nat) (f : TF) (h : op < 2 ^ 6) : bits (TF.word op f) 0 6 = op := by
  simp only [bits_eq, TF.word]
  omega

theorem TF.word_lt (op : Nat) (f : TF) (h : op < 2 ^ 6) : TF.word op f < 2 ^ 48 := by
  have := f.data.isLt; have := f.base.isLt; have := f.imm11.isLt; have := f.type.isLt; have := f.pred.isLt
  have := f.sc.isLt; have := f.hi.isLt
  simp only [TF.word]
  omega

theorem TF.ofNat_word (op : Nat) (f : TF) (h : op < 2 ^ 6) : TF.ofNat (TF.word op f) = f := by
  have := f.data.isLt; have := f.base.isLt; have := f.imm11.isLt; have := f.type.isLt; have := f.pred.isLt
  have := f.sc.isLt; have := f.hi.isLt
  cases f
  simp only [TF.ofNat, bits_eq, TF.mk.injEq] at *
  refine ⟨ofNat_of_eq _ _ ?_, ofNat_of_eq _ _ ?_, ofNat_of_eq _ _ ?_, ofNat_of_eq _ _ ?_, ofNat_of_eq _ _ ?_, ofNat_of_eq _ _ ?_,
    ofNat_of_eq _ _ ?_⟩ <;>
    simp only [TF.word] <;> omega

theorem CF.op_word (op : Nat) (f : CF) (h : op < 2 ^ 7) : bits (CF.word op f) 0 7 = op := by
  simp only [bits_eq, CF.word]
  omega

theorem CF.word_lt (op : Nat) (f : CF) (h : op < 2 ^ 7) : CF.word op f < 2 ^ 64 := by
  have := f.pred.isLt; have := f.neg.toNat_le; have := f.d.isLt; have := f.a.isLt; have := f.b.isLt; have := f.c.isLt
  have := f.x.isLt; have := f.imm20.isLt
  simp only [CF.word]
  omega

theorem CF.ofNat_word (op : Nat) (f : CF) (h : op < 2 ^ 7) : CF.ofNat (CF.word op f) = f := by
  have := f.pred.isLt; have := f.neg.toNat_le; have := f.d.isLt; have := f.a.isLt; have := f.b.isLt; have := f.c.isLt
  have := f.x.isLt; have := f.imm20.isLt
  cases f
  simp only [CF.ofNat, bits_eq, bit_eq, CF.mk.injEq] at *
  refine ⟨ofNat_of_eq _ _ ?_, ofNat_of_eq _ _ ?_, ofNat_of_eq _ _ ?_, ofNat_of_eq _ _ ?_, ofNat_of_eq _ _ ?_, ofNat_of_eq _ _ ?_,
    bool_of_mod _ _ ?_, ofNat_of_eq _ _ ?_⟩ <;>
    simp only [CF.word] <;> omega

theorem YF.op_word (op : Nat) (f : YF) (h : op < 2 ^ 6) : bits (YF.word op f) 0 6 = op := by
  simp only [bits_eq, YF.word]
  omega

theorem YF.word_lt (op : Nat) (f : YF) (h : op < 2 ^ 6) : YF.word op f < 2 ^ 32 := by
  have := f.pred.isLt; have := f.neg.toNat_le; have := f.arg.isLt
  simp only [YF.word]
  omega

theorem YF.ofNat_word (op : Nat) (f : YF) (h : op < 2 ^ 6) : YF.ofNat (YF.word op f) = f := by
  have := f.pred.isLt; have := f.neg.toNat_le; have := f.arg.isLt
  cases f
  simp only [YF.ofNat, bits_eq, bit_eq, YF.mk.injEq] at *
  refine ⟨ofNat_of_eq _ _ ?_, bool_of_mod _ _ ?_, ofNat_of_eq _ _ ?_⟩ <;> simp only [YF.word] <;> omega

/-! A word of a slot is the one that its opcode and its fields make. -/

theorem bit_toNat (x i : Nat) : (bit x i).toNat = x / 2 ^ i % 2 := by
  rw [bit_eq]; have := Nat.mod_two_eq_zero_or_one (x / 2 ^ i); rcases this with h | h <;> simp [h]

theorem SF.word_ofNat (w : Nat) (h : w < 2 ^ 64) : SF.word (bits w 0 8) (SF.ofNat w) = w := by
  simp only [SF.word, SF.ofNat, bits_eq, BitVec.toNat_ofNat, bit_toNat, Nat.mod_mod, Nat.pow_zero, Nat.div_one]; omega

theorem VF.word_ofNat (v : Bool) (w : Nat) (h : w < 2 ^ 80) : VF.word (bits w 0 10) (VF.ofNat v w) = w := by
  simp only [VF.word, VF.ofNat, bits_eq, BitVec.toNat_ofNat, bit_toNat, Nat.mod_mod, Nat.pow_zero, Nat.div_one]; omega

theorem MF.word_ofNat (w : Nat) (h : w < 2 ^ 64) : MF.word (bits w 0 6) (MF.ofNat w) = w := by
  simp only [MF.word, MF.ofNat, bits_eq, BitVec.toNat_ofNat, bit_toNat, Nat.mod_mod, Nat.pow_zero, Nat.div_one]; omega

theorem LF.word_ofNat (w : Nat) (h : w < 2 ^ 64) : LF.word (bits w 0 6) (LF.ofNat w) = w := by
  simp only [LF.word, LF.ofNat, bits_eq, BitVec.toNat_ofNat, bit_toNat, Nat.mod_mod, Nat.pow_zero, Nat.div_one]; omega

theorem TF.word_ofNat (w : Nat) (h : w < 2 ^ 48) : TF.word (bits w 0 6) (TF.ofNat w) = w := by
  simp only [TF.word, TF.ofNat, bits_eq, BitVec.toNat_ofNat, Nat.mod_mod, Nat.pow_zero, Nat.div_one]; omega

theorem CF.word_ofNat (w : Nat) (h : w < 2 ^ 64) : CF.word (bits w 0 7) (CF.ofNat w) = w := by
  simp only [CF.word, CF.ofNat, bits_eq, BitVec.toNat_ofNat, bit_toNat, Nat.mod_mod, Nat.pow_zero, Nat.div_one]; omega

theorem YF.word_ofNat (w : Nat) (h : w < 2 ^ 32) : YF.word (bits w 0 6) (YF.ofNat w) = w := by
  simp only [YF.word, YF.ofNat, bits_eq, BitVec.toNat_ofNat, bit_toNat, Nat.mod_mod, Nat.pow_zero, Nat.div_one]; omega

end Sys2Proof
end

