-- ==== Sys2Proof/Laws/State.lean ====
section
/-! SUPPORT. One lemma for each field and each update of the state and of a tile: what the update leaves, and what it sets. -/

namespace Sys2Proof.Machine

/-! ## A tile of the basin -/

theorem tileAt_setTile_same (s : State) (t : Tid) (x : Tile) : (s.setTile t x).tileAt t = x := by
  simp [State.tileAt, State.setTile]

theorem tileAt_setTile_other (s : State) (t u : Tid) (x : Tile) (h : u ≠ t) : (s.setTile t x).tileAt u = s.tileAt u := by
  have h1 : t.val ≠ u.val := fun e => h (Fin.ext e.symm)
  simp [State.tileAt, State.setTile, h1]

@[simp] theorem tileAt_setTile (s : State) (t u : Tid) (x : Tile) : (s.setTile t x).tileAt u = if u = t then x else s.tileAt u := by
  by_cases h : u = t
  · subst h
    simp [tileAt_setTile_same]
  · simp [tileAt_setTile_other s t u x h, h]

@[simp] theorem tileAt_modTile (s : State) (t u : Tid) (f : Tile → Tile) :
    (s.modTile t f).tileAt u = if u = t then f (s.tileAt t) else s.tileAt u := by simp [State.modTile]

@[simp] theorem cur_onTile (s : State) (f : Tile → Tile) : (s.onTile f).cur = s.cur := rfl

@[simp] theorem tile_onTile (s : State) (f : Tile → Tile) : (s.onTile f).tile = f s.tile := by
  show (s.modTile s.cur f).tileAt s.cur = f (s.tileAt s.cur)
  simp

@[simp] theorem tileAt_onTile_other (s : State) (f : Tile → Tile) (t : Tid) (h : t ≠ s.cur) : (s.onTile f).tileAt t = s.tileAt t := by
  simp [State.onTile, h]

@[simp] theorem tileAt_schedule (s : State) (n o : Nat) (e : Ev) (t : Tid) : (s.schedule n o e).tileAt t = s.tileAt t := rfl

@[simp] theorem tileAt_plan (s : State) (n o : Nat) (i : Instr) (a : EvArg) (t : Tid) : (s.plan n o i a).tileAt t = s.tileAt t := rfl

@[simp] theorem tile_note (s : State) (n : Issued) : (s.note n).tile = { s.tile with issued := n } := by simp [State.note]

@[simp] theorem tile_land (s : State) (k : Fin 8) (n : Nat) (ws : List RWrite) :
    (s.land k n ws).tile = s.tile.addLanding (s.tile.landing k n ws) := by simp [State.land]

/-! ## `State.setTile` -/

@[simp] theorem now_setTile (s : State) (t : Tid) (x : Tile) : (s.setTile t x).now = s.now := rfl
@[simp] theorem ftime_setTile (s : State) (t : Tid) (x : Tile) : (s.setTile t x).ftime = s.ftime := rfl
@[simp] theorem ftOn_setTile (s : State) (t : Tid) (x : Tile) : (s.setTile t x).ftOn = s.ftOn := rfl
@[simp] theorem turn_setTile (s : State) (t : Tid) (x : Tile) : (s.setTile t x).turn = s.turn := rfl
@[simp] theorem cur_setTile (s : State) (t : Tid) (x : Tile) : (s.setTile t x).cur = s.cur := rfl
@[simp] theorem arg_setTile (s : State) (t : Tid) (x : Tile) : (s.setTile t x).arg = s.arg := rfl
@[simp] theorem free_setTile (s : State) (t : Tid) (x : Tile) : (s.setTile t x).free = s.free := rfl
@[simp] theorem nextId_setTile (s : State) (t : Tid) (x : Tile) : (s.setTile t x).nextId = s.nextId := rfl
@[simp] theorem agenda_setTile (s : State) (t : Tid) (x : Tile) : (s.setTile t x).agenda = s.agenda := rfl
@[simp] theorem bootStep_setTile (s : State) (t : Tid) (x : Tile) : (s.setTile t x).bootStep = s.bootStep := rfl
@[simp] theorem boot_setTile (s : State) (t : Tid) (x : Tile) : (s.setTile t x).boot = s.boot := rfl
@[simp] theorem mem_setTile (s : State) (t : Tid) (x : Tile) : (s.setTile t x).mem = s.mem := rfl
@[simp] theorem memWas_setTile (s : State) (t : Tid) (x : Tile) : (s.setTile t x).memWas = s.memWas := rfl
@[simp] theorem undo_setTile (s : State) (t : Tid) (x : Tile) : (s.setTile t x).undo = s.undo := rfl
@[simp] theorem owner_setTile (s : State) (t : Tid) (x : Tile) : (s.setTile t x).owner = s.owner := rfl
@[simp] theorem binds_setTile (s : State) (t : Tid) (x : Tile) : (s.setTile t x).binds = s.binds := rfl
@[simp] theorem stlb_setTile (s : State) (t : Tid) (x : Tile) : (s.setTile t x).stlb = s.stlb := rfl
@[simp] theorem walks_setTile (s : State) (t : Tid) (x : Tile) : (s.setTile t x).walks = s.walks := rfl
@[simp] theorem counters_setTile (s : State) (t : Tid) (x : Tile) : (s.setTile t x).counters = s.counters := rfl
@[simp] theorem ctrSeen_setTile (s : State) (t : Tid) (x : Tile) : (s.setTile t x).ctrSeen = s.ctrSeen := rfl
@[simp] theorem tasks_setTile (s : State) (t : Tid) (x : Tile) : (s.setTile t x).tasks = s.tasks := rfl
@[simp] theorem spawns_setTile (s : State) (t : Tid) (x : Tile) : (s.setTile t x).spawns = s.spawns := rfl
@[simp] theorem pipes_setTile (s : State) (t : Tid) (x : Tile) : (s.setTile t x).pipes = s.pipes := rfl
@[simp] theorem windows_setTile (s : State) (t : Tid) (x : Tile) : (s.setTile t x).windows = s.windows := rfl
@[simp] theorem groups_setTile (s : State) (t : Tid) (x : Tile) : (s.setTile t x).groups = s.groups := rfl
@[simp] theorem dedup_setTile (s : State) (t : Tid) (x : Tile) : (s.setTile t x).dedup = s.dedup := rfl
@[simp] theorem ops_setTile (s : State) (t : Tid) (x : Tile) : (s.setTile t x).ops = s.ops := rfl
@[simp] theorem nextOpn_setTile (s : State) (t : Tid) (x : Tile) : (s.setTile t x).nextOpn = s.nextOpn := rfl
@[simp] theorem accRecs_setTile (s : State) (t : Tid) (x : Tile) : (s.setTile t x).accRecs = s.accRecs := rfl
@[simp] theorem posts_setTile (s : State) (t : Tid) (x : Tile) : (s.setTile t x).posts = s.posts := rfl
@[simp] theorem combine_setTile (s : State) (t : Tid) (x : Tile) : (s.setTile t x).combine = s.combine := rfl
@[simp] theorem poisoned_setTile (s : State) (t : Tid) (x : Tile) : (s.setTile t x).poisoned = s.poisoned := rfl
@[simp] theorem rejected_setTile (s : State) (t : Tid) (x : Tile) : (s.setTile t x).rejected = s.rejected := rfl
@[simp] theorem tagOps_setTile (s : State) (t : Tid) (x : Tile) : (s.setTile t x).tagOps = s.tagOps := rfl
@[simp] theorem reqQ_setTile (s : State) (t : Tid) (x : Tile) : (s.setTile t x).reqQ = s.reqQ := rfl
@[simp] theorem ctlQ_setTile (s : State) (t : Tid) (x : Tile) : (s.setTile t x).ctlQ = s.ctlQ := rfl
@[simp] theorem repQ_setTile (s : State) (t : Tid) (x : Tile) : (s.setTile t x).repQ = s.repQ := rfl
@[simp] theorem joined_setTile (s : State) (t : Tid) (x : Tile) : (s.setTile t x).joined = s.joined := rfl
@[simp] theorem farUp_setTile (s : State) (t : Tid) (x : Tile) : (s.setTile t x).farUp = s.farUp := rfl
@[simp] theorem outbox_setTile (s : State) (t : Tid) (x : Tile) : (s.setTile t x).outbox = s.outbox := rfl
@[simp] theorem collOut_setTile (s : State) (t : Tid) (x : Tile) : (s.setTile t x).collOut = s.collOut := rfl
@[simp] theorem conns_setTile (s : State) (t : Tid) (x : Tile) : (s.setTile t x).conns = s.conns := rfl
@[simp] theorem ports_setTile (s : State) (t : Tid) (x : Tile) : (s.setTile t x).ports = s.ports := rfl
@[simp] theorem colls_setTile (s : State) (t : Tid) (x : Tile) : (s.setTile t x).colls = s.colls := rfl
@[simp] theorem collNums_setTile (s : State) (t : Tid) (x : Tile) : (s.setTile t x).collNums = s.collNums := rfl
@[simp] theorem launches_setTile (s : State) (t : Tid) (x : Tile) : (s.setTile t x).launches = s.launches := rfl
@[simp] theorem grants_setTile (s : State) (t : Tid) (x : Tile) : (s.setTile t x).grants = s.grants := rfl
@[simp] theorem mxImages_setTile (s : State) (t : Tid) (x : Tile) : (s.setTile t x).mxImages = s.mxImages := rfl
@[simp] theorem demand_setTile (s : State) (t : Tid) (x : Tile) : (s.setTile t x).demand = s.demand := rfl
@[simp] theorem overAt_setTile (s : State) (t : Tid) (x : Tile) : (s.setTile t x).overAt = s.overAt := rfl
@[simp] theorem dups_setTile (s : State) (t : Tid) (x : Tile) : (s.setTile t x).dups = s.dups := rfl
@[simp] theorem anchors_setTile (s : State) (t : Tid) (x : Tile) : (s.setTile t x).anchors = s.anchors := rfl
@[simp] theorem slotImgs_setTile (s : State) (t : Tid) (x : Tile) : (s.setTile t x).slotImgs = s.slotImgs := rfl
@[simp] theorem locks_setTile (s : State) (t : Tid) (x : Tile) : (s.setTile t x).locks = s.locks := rfl
@[simp] theorem gangClaims_setTile (s : State) (t : Tid) (x : Tile) : (s.setTile t x).gangClaims = s.gangClaims := rfl
@[simp] theorem host_setTile (s : State) (t : Tid) (x : Tile) : (s.setTile t x).host = s.host := rfl

/-! ## `State.modTile` -/

@[simp] theorem now_modTile (s : State) (t : Tid) (f : Tile → Tile) : (s.modTile t f).now = s.now := rfl
@[simp] theorem ftime_modTile (s : State) (t : Tid) (f : Tile → Tile) : (s.modTile t f).ftime = s.ftime := rfl
@[simp] theorem ftOn_modTile (s : State) (t : Tid) (f : Tile → Tile) : (s.modTile t f).ftOn = s.ftOn := rfl
@[simp] theorem turn_modTile (s : State) (t : Tid) (f : Tile → Tile) : (s.modTile t f).turn = s.turn := rfl
@[simp] theorem cur_modTile (s : State) (t : Tid) (f : Tile → Tile) : (s.modTile t f).cur = s.cur := rfl
@[simp] theorem arg_modTile (s : State) (t : Tid) (f : Tile → Tile) : (s.modTile t f).arg = s.arg := rfl
@[simp] theorem free_modTile (s : State) (t : Tid) (f : Tile → Tile) : (s.modTile t f).free = s.free := rfl
@[simp] theorem nextId_modTile (s : State) (t : Tid) (f : Tile → Tile) : (s.modTile t f).nextId = s.nextId := rfl
@[simp] theorem agenda_modTile (s : State) (t : Tid) (f : Tile → Tile) : (s.modTile t f).agenda = s.agenda := rfl
@[simp] theorem bootStep_modTile (s : State) (t : Tid) (f : Tile → Tile) : (s.modTile t f).bootStep = s.bootStep := rfl
@[simp] theorem boot_modTile (s : State) (t : Tid) (f : Tile → Tile) : (s.modTile t f).boot = s.boot := rfl
@[simp] theorem mem_modTile (s : State) (t : Tid) (f : Tile → Tile) : (s.modTile t f).mem = s.mem := rfl
@[simp] theorem memWas_modTile (s : State) (t : Tid) (f : Tile → Tile) : (s.modTile t f).memWas = s.memWas := rfl
@[simp] theorem undo_modTile (s : State) (t : Tid) (f : Tile → Tile) : (s.modTile t f).undo = s.undo := rfl
@[simp] theorem owner_modTile (s : State) (t : Tid) (f : Tile → Tile) : (s.modTile t f).owner = s.owner := rfl
@[simp] theorem binds_modTile (s : State) (t : Tid) (f : Tile → Tile) : (s.modTile t f).binds = s.binds := rfl
@[simp] theorem stlb_modTile (s : State) (t : Tid) (f : Tile → Tile) : (s.modTile t f).stlb = s.stlb := rfl
@[simp] theorem walks_modTile (s : State) (t : Tid) (f : Tile → Tile) : (s.modTile t f).walks = s.walks := rfl
@[simp] theorem counters_modTile (s : State) (t : Tid) (f : Tile → Tile) : (s.modTile t f).counters = s.counters := rfl
@[simp] theorem ctrSeen_modTile (s : State) (t : Tid) (f : Tile → Tile) : (s.modTile t f).ctrSeen = s.ctrSeen := rfl
@[simp] theorem tasks_modTile (s : State) (t : Tid) (f : Tile → Tile) : (s.modTile t f).tasks = s.tasks := rfl
@[simp] theorem spawns_modTile (s : State) (t : Tid) (f : Tile → Tile) : (s.modTile t f).spawns = s.spawns := rfl
@[simp] theorem pipes_modTile (s : State) (t : Tid) (f : Tile → Tile) : (s.modTile t f).pipes = s.pipes := rfl
@[simp] theorem windows_modTile (s : State) (t : Tid) (f : Tile → Tile) : (s.modTile t f).windows = s.windows := rfl
@[simp] theorem groups_modTile (s : State) (t : Tid) (f : Tile → Tile) : (s.modTile t f).groups = s.groups := rfl
@[simp] theorem dedup_modTile (s : State) (t : Tid) (f : Tile → Tile) : (s.modTile t f).dedup = s.dedup := rfl
@[simp] theorem ops_modTile (s : State) (t : Tid) (f : Tile → Tile) : (s.modTile t f).ops = s.ops := rfl
@[simp] theorem nextOpn_modTile (s : State) (t : Tid) (f : Tile → Tile) : (s.modTile t f).nextOpn = s.nextOpn := rfl
@[simp] theorem accRecs_modTile (s : State) (t : Tid) (f : Tile → Tile) : (s.modTile t f).accRecs = s.accRecs := rfl
@[simp] theorem posts_modTile (s : State) (t : Tid) (f : Tile → Tile) : (s.modTile t f).posts = s.posts := rfl
@[simp] theorem combine_modTile (s : State) (t : Tid) (f : Tile → Tile) : (s.modTile t f).combine = s.combine := rfl
@[simp] theorem poisoned_modTile (s : State) (t : Tid) (f : Tile → Tile) : (s.modTile t f).poisoned = s.poisoned := rfl
@[simp] theorem rejected_modTile (s : State) (t : Tid) (f : Tile → Tile) : (s.modTile t f).rejected = s.rejected := rfl
@[simp] theorem tagOps_modTile (s : State) (t : Tid) (f : Tile → Tile) : (s.modTile t f).tagOps = s.tagOps := rfl
@[simp] theorem reqQ_modTile (s : State) (t : Tid) (f : Tile → Tile) : (s.modTile t f).reqQ = s.reqQ := rfl
@[simp] theorem ctlQ_modTile (s : State) (t : Tid) (f : Tile → Tile) : (s.modTile t f).ctlQ = s.ctlQ := rfl
@[simp] theorem repQ_modTile (s : State) (t : Tid) (f : Tile → Tile) : (s.modTile t f).repQ = s.repQ := rfl
@[simp] theorem joined_modTile (s : State) (t : Tid) (f : Tile → Tile) : (s.modTile t f).joined = s.joined := rfl
@[simp] theorem farUp_modTile (s : State) (t : Tid) (f : Tile → Tile) : (s.modTile t f).farUp = s.farUp := rfl
@[simp] theorem outbox_modTile (s : State) (t : Tid) (f : Tile → Tile) : (s.modTile t f).outbox = s.outbox := rfl
@[simp] theorem collOut_modTile (s : State) (t : Tid) (f : Tile → Tile) : (s.modTile t f).collOut = s.collOut := rfl
@[simp] theorem conns_modTile (s : State) (t : Tid) (f : Tile → Tile) : (s.modTile t f).conns = s.conns := rfl
@[simp] theorem ports_modTile (s : State) (t : Tid) (f : Tile → Tile) : (s.modTile t f).ports = s.ports := rfl
@[simp] theorem colls_modTile (s : State) (t : Tid) (f : Tile → Tile) : (s.modTile t f).colls = s.colls := rfl
@[simp] theorem collNums_modTile (s : State) (t : Tid) (f : Tile → Tile) : (s.modTile t f).collNums = s.collNums := rfl
@[simp] theorem launches_modTile (s : State) (t : Tid) (f : Tile → Tile) : (s.modTile t f).launches = s.launches := rfl
@[simp] theorem grants_modTile (s : State) (t : Tid) (f : Tile → Tile) : (s.modTile t f).grants = s.grants := rfl
@[simp] theorem mxImages_modTile (s : State) (t : Tid) (f : Tile → Tile) : (s.modTile t f).mxImages = s.mxImages := rfl
@[simp] theorem demand_modTile (s : State) (t : Tid) (f : Tile → Tile) : (s.modTile t f).demand = s.demand := rfl
@[simp] theorem overAt_modTile (s : State) (t : Tid) (f : Tile → Tile) : (s.modTile t f).overAt = s.overAt := rfl
@[simp] theorem dups_modTile (s : State) (t : Tid) (f : Tile → Tile) : (s.modTile t f).dups = s.dups := rfl
@[simp] theorem anchors_modTile (s : State) (t : Tid) (f : Tile → Tile) : (s.modTile t f).anchors = s.anchors := rfl
@[simp] theorem slotImgs_modTile (s : State) (t : Tid) (f : Tile → Tile) : (s.modTile t f).slotImgs = s.slotImgs := rfl
@[simp] theorem locks_modTile (s : State) (t : Tid) (f : Tile → Tile) : (s.modTile t f).locks = s.locks := rfl
@[simp] theorem gangClaims_modTile (s : State) (t : Tid) (f : Tile → Tile) : (s.modTile t f).gangClaims = s.gangClaims := rfl
@[simp] theorem host_modTile (s : State) (t : Tid) (f : Tile → Tile) : (s.modTile t f).host = s.host := rfl

/-! ## `State.onTile` -/

@[simp] theorem now_onTile (s : State) (f : Tile → Tile) : (s.onTile f).now = s.now := rfl
@[simp] theorem ftime_onTile (s : State) (f : Tile → Tile) : (s.onTile f).ftime = s.ftime := rfl
@[simp] theorem ftOn_onTile (s : State) (f : Tile → Tile) : (s.onTile f).ftOn = s.ftOn := rfl
@[simp] theorem turn_onTile (s : State) (f : Tile → Tile) : (s.onTile f).turn = s.turn := rfl
@[simp] theorem arg_onTile (s : State) (f : Tile → Tile) : (s.onTile f).arg = s.arg := rfl
@[simp] theorem free_onTile (s : State) (f : Tile → Tile) : (s.onTile f).free = s.free := rfl
@[simp] theorem nextId_onTile (s : State) (f : Tile → Tile) : (s.onTile f).nextId = s.nextId := rfl
@[simp] theorem agenda_onTile (s : State) (f : Tile → Tile) : (s.onTile f).agenda = s.agenda := rfl
@[simp] theorem bootStep_onTile (s : State) (f : Tile → Tile) : (s.onTile f).bootStep = s.bootStep := rfl
@[simp] theorem boot_onTile (s : State) (f : Tile → Tile) : (s.onTile f).boot = s.boot := rfl
@[simp] theorem mem_onTile (s : State) (f : Tile → Tile) : (s.onTile f).mem = s.mem := rfl
@[simp] theorem memWas_onTile (s : State) (f : Tile → Tile) : (s.onTile f).memWas = s.memWas := rfl
@[simp] theorem undo_onTile (s : State) (f : Tile → Tile) : (s.onTile f).undo = s.undo := rfl
@[simp] theorem owner_onTile (s : State) (f : Tile → Tile) : (s.onTile f).owner = s.owner := rfl
@[simp] theorem binds_onTile (s : State) (f : Tile → Tile) : (s.onTile f).binds = s.binds := rfl
@[simp] theorem stlb_onTile (s : State) (f : Tile → Tile) : (s.onTile f).stlb = s.stlb := rfl
@[simp] theorem walks_onTile (s : State) (f : Tile → Tile) : (s.onTile f).walks = s.walks := rfl
@[simp] theorem counters_onTile (s : State) (f : Tile → Tile) : (s.onTile f).counters = s.counters := rfl
@[simp] theorem ctrSeen_onTile (s : State) (f : Tile → Tile) : (s.onTile f).ctrSeen = s.ctrSeen := rfl
@[simp] theorem tasks_onTile (s : State) (f : Tile → Tile) : (s.onTile f).tasks = s.tasks := rfl
@[simp] theorem spawns_onTile (s : State) (f : Tile → Tile) : (s.onTile f).spawns = s.spawns := rfl
@[simp] theorem pipes_onTile (s : State) (f : Tile → Tile) : (s.onTile f).pipes = s.pipes := rfl
@[simp] theorem windows_onTile (s : State) (f : Tile → Tile) : (s.onTile f).windows = s.windows := rfl
@[simp] theorem groups_onTile (s : State) (f : Tile → Tile) : (s.onTile f).groups = s.groups := rfl
@[simp] theorem dedup_onTile (s : State) (f : Tile → Tile) : (s.onTile f).dedup = s.dedup := rfl
@[simp] theorem ops_onTile (s : State) (f : Tile → Tile) : (s.onTile f).ops = s.ops := rfl
@[simp] theorem nextOpn_onTile (s : State) (f : Tile → Tile) : (s.onTile f).nextOpn = s.nextOpn := rfl
@[simp] theorem accRecs_onTile (s : State) (f : Tile → Tile) : (s.onTile f).accRecs = s.accRecs := rfl
@[simp] theorem posts_onTile (s : State) (f : Tile → Tile) : (s.onTile f).posts = s.posts := rfl
@[simp] theorem combine_onTile (s : State) (f : Tile → Tile) : (s.onTile f).combine = s.combine := rfl
@[simp] theorem poisoned_onTile (s : State) (f : Tile → Tile) : (s.onTile f).poisoned = s.poisoned := rfl
@[simp] theorem rejected_onTile (s : State) (f : Tile → Tile) : (s.onTile f).rejected = s.rejected := rfl
@[simp] theorem tagOps_onTile (s : State) (f : Tile → Tile) : (s.onTile f).tagOps = s.tagOps := rfl
@[simp] theorem reqQ_onTile (s : State) (f : Tile → Tile) : (s.onTile f).reqQ = s.reqQ := rfl
@[simp] theorem ctlQ_onTile (s : State) (f : Tile → Tile) : (s.onTile f).ctlQ = s.ctlQ := rfl
@[simp] theorem repQ_onTile (s : State) (f : Tile → Tile) : (s.onTile f).repQ = s.repQ := rfl
@[simp] theorem joined_onTile (s : State) (f : Tile → Tile) : (s.onTile f).joined = s.joined := rfl
@[simp] theorem farUp_onTile (s : State) (f : Tile → Tile) : (s.onTile f).farUp = s.farUp := rfl
@[simp] theorem outbox_onTile (s : State) (f : Tile → Tile) : (s.onTile f).outbox = s.outbox := rfl
@[simp] theorem collOut_onTile (s : State) (f : Tile → Tile) : (s.onTile f).collOut = s.collOut := rfl
@[simp] theorem conns_onTile (s : State) (f : Tile → Tile) : (s.onTile f).conns = s.conns := rfl
@[simp] theorem ports_onTile (s : State) (f : Tile → Tile) : (s.onTile f).ports = s.ports := rfl
@[simp] theorem colls_onTile (s : State) (f : Tile → Tile) : (s.onTile f).colls = s.colls := rfl
@[simp] theorem collNums_onTile (s : State) (f : Tile → Tile) : (s.onTile f).collNums = s.collNums := rfl
@[simp] theorem launches_onTile (s : State) (f : Tile → Tile) : (s.onTile f).launches = s.launches := rfl
@[simp] theorem grants_onTile (s : State) (f : Tile → Tile) : (s.onTile f).grants = s.grants := rfl
@[simp] theorem mxImages_onTile (s : State) (f : Tile → Tile) : (s.onTile f).mxImages = s.mxImages := rfl
@[simp] theorem demand_onTile (s : State) (f : Tile → Tile) : (s.onTile f).demand = s.demand := rfl
@[simp] theorem overAt_onTile (s : State) (f : Tile → Tile) : (s.onTile f).overAt = s.overAt := rfl
@[simp] theorem dups_onTile (s : State) (f : Tile → Tile) : (s.onTile f).dups = s.dups := rfl
@[simp] theorem anchors_onTile (s : State) (f : Tile → Tile) : (s.onTile f).anchors = s.anchors := rfl
@[simp] theorem slotImgs_onTile (s : State) (f : Tile → Tile) : (s.onTile f).slotImgs = s.slotImgs := rfl
@[simp] theorem locks_onTile (s : State) (f : Tile → Tile) : (s.onTile f).locks = s.locks := rfl
@[simp] theorem gangClaims_onTile (s : State) (f : Tile → Tile) : (s.onTile f).gangClaims = s.gangClaims := rfl
@[simp] theorem host_onTile (s : State) (f : Tile → Tile) : (s.onTile f).host = s.host := rfl

/-! ## `State.schedule` -/

@[simp] theorem now_schedule (s : State) (n o : Nat) (e : Ev) : (s.schedule n o e).now = s.now := rfl
@[simp] theorem ftime_schedule (s : State) (n o : Nat) (e : Ev) : (s.schedule n o e).ftime = s.ftime := rfl
@[simp] theorem ftOn_schedule (s : State) (n o : Nat) (e : Ev) : (s.schedule n o e).ftOn = s.ftOn := rfl
@[simp] theorem turn_schedule (s : State) (n o : Nat) (e : Ev) : (s.schedule n o e).turn = s.turn := rfl
@[simp] theorem cur_schedule (s : State) (n o : Nat) (e : Ev) : (s.schedule n o e).cur = s.cur := rfl
@[simp] theorem arg_schedule (s : State) (n o : Nat) (e : Ev) : (s.schedule n o e).arg = s.arg := rfl
@[simp] theorem free_schedule (s : State) (n o : Nat) (e : Ev) : (s.schedule n o e).free = s.free := rfl
@[simp] theorem nextId_schedule (s : State) (n o : Nat) (e : Ev) : (s.schedule n o e).nextId = s.nextId := rfl
@[simp] theorem bootStep_schedule (s : State) (n o : Nat) (e : Ev) : (s.schedule n o e).bootStep = s.bootStep := rfl
@[simp] theorem boot_schedule (s : State) (n o : Nat) (e : Ev) : (s.schedule n o e).boot = s.boot := rfl
@[simp] theorem tiles_schedule (s : State) (n o : Nat) (e : Ev) : (s.schedule n o e).tiles = s.tiles := rfl
@[simp] theorem mem_schedule (s : State) (n o : Nat) (e : Ev) : (s.schedule n o e).mem = s.mem := rfl
@[simp] theorem memWas_schedule (s : State) (n o : Nat) (e : Ev) : (s.schedule n o e).memWas = s.memWas := rfl
@[simp] theorem undo_schedule (s : State) (n o : Nat) (e : Ev) : (s.schedule n o e).undo = s.undo := rfl
@[simp] theorem owner_schedule (s : State) (n o : Nat) (e : Ev) : (s.schedule n o e).owner = s.owner := rfl
@[simp] theorem binds_schedule (s : State) (n o : Nat) (e : Ev) : (s.schedule n o e).binds = s.binds := rfl
@[simp] theorem stlb_schedule (s : State) (n o : Nat) (e : Ev) : (s.schedule n o e).stlb = s.stlb := rfl
@[simp] theorem walks_schedule (s : State) (n o : Nat) (e : Ev) : (s.schedule n o e).walks = s.walks := rfl
@[simp] theorem counters_schedule (s : State) (n o : Nat) (e : Ev) : (s.schedule n o e).counters = s.counters := rfl
@[simp] theorem ctrSeen_schedule (s : State) (n o : Nat) (e : Ev) : (s.schedule n o e).ctrSeen = s.ctrSeen := rfl
@[simp] theorem tasks_schedule (s : State) (n o : Nat) (e : Ev) : (s.schedule n o e).tasks = s.tasks := rfl
@[simp] theorem spawns_schedule (s : State) (n o : Nat) (e : Ev) : (s.schedule n o e).spawns = s.spawns := rfl
@[simp] theorem pipes_schedule (s : State) (n o : Nat) (e : Ev) : (s.schedule n o e).pipes = s.pipes := rfl
@[simp] theorem windows_schedule (s : State) (n o : Nat) (e : Ev) : (s.schedule n o e).windows = s.windows := rfl
@[simp] theorem groups_schedule (s : State) (n o : Nat) (e : Ev) : (s.schedule n o e).groups = s.groups := rfl
@[simp] theorem dedup_schedule (s : State) (n o : Nat) (e : Ev) : (s.schedule n o e).dedup = s.dedup := rfl
@[simp] theorem ops_schedule (s : State) (n o : Nat) (e : Ev) : (s.schedule n o e).ops = s.ops := rfl
@[simp] theorem nextOpn_schedule (s : State) (n o : Nat) (e : Ev) : (s.schedule n o e).nextOpn = s.nextOpn := rfl
@[simp] theorem accRecs_schedule (s : State) (n o : Nat) (e : Ev) : (s.schedule n o e).accRecs = s.accRecs := rfl
@[simp] theorem posts_schedule (s : State) (n o : Nat) (e : Ev) : (s.schedule n o e).posts = s.posts := rfl
@[simp] theorem combine_schedule (s : State) (n o : Nat) (e : Ev) : (s.schedule n o e).combine = s.combine := rfl
@[simp] theorem poisoned_schedule (s : State) (n o : Nat) (e : Ev) : (s.schedule n o e).poisoned = s.poisoned := rfl
@[simp] theorem rejected_schedule (s : State) (n o : Nat) (e : Ev) : (s.schedule n o e).rejected = s.rejected := rfl
@[simp] theorem tagOps_schedule (s : State) (n o : Nat) (e : Ev) : (s.schedule n o e).tagOps = s.tagOps := rfl
@[simp] theorem reqQ_schedule (s : State) (n o : Nat) (e : Ev) : (s.schedule n o e).reqQ = s.reqQ := rfl
@[simp] theorem ctlQ_schedule (s : State) (n o : Nat) (e : Ev) : (s.schedule n o e).ctlQ = s.ctlQ := rfl
@[simp] theorem repQ_schedule (s : State) (n o : Nat) (e : Ev) : (s.schedule n o e).repQ = s.repQ := rfl
@[simp] theorem joined_schedule (s : State) (n o : Nat) (e : Ev) : (s.schedule n o e).joined = s.joined := rfl
@[simp] theorem farUp_schedule (s : State) (n o : Nat) (e : Ev) : (s.schedule n o e).farUp = s.farUp := rfl
@[simp] theorem outbox_schedule (s : State) (n o : Nat) (e : Ev) : (s.schedule n o e).outbox = s.outbox := rfl
@[simp] theorem collOut_schedule (s : State) (n o : Nat) (e : Ev) : (s.schedule n o e).collOut = s.collOut := rfl
@[simp] theorem conns_schedule (s : State) (n o : Nat) (e : Ev) : (s.schedule n o e).conns = s.conns := rfl
@[simp] theorem ports_schedule (s : State) (n o : Nat) (e : Ev) : (s.schedule n o e).ports = s.ports := rfl
@[simp] theorem colls_schedule (s : State) (n o : Nat) (e : Ev) : (s.schedule n o e).colls = s.colls := rfl
@[simp] theorem collNums_schedule (s : State) (n o : Nat) (e : Ev) : (s.schedule n o e).collNums = s.collNums := rfl
@[simp] theorem launches_schedule (s : State) (n o : Nat) (e : Ev) : (s.schedule n o e).launches = s.launches := rfl
@[simp] theorem grants_schedule (s : State) (n o : Nat) (e : Ev) : (s.schedule n o e).grants = s.grants := rfl
@[simp] theorem mxImages_schedule (s : State) (n o : Nat) (e : Ev) : (s.schedule n o e).mxImages = s.mxImages := rfl
@[simp] theorem demand_schedule (s : State) (n o : Nat) (e : Ev) : (s.schedule n o e).demand = s.demand := rfl
@[simp] theorem overAt_schedule (s : State) (n o : Nat) (e : Ev) : (s.schedule n o e).overAt = s.overAt := rfl
@[simp] theorem dups_schedule (s : State) (n o : Nat) (e : Ev) : (s.schedule n o e).dups = s.dups := rfl
@[simp] theorem anchors_schedule (s : State) (n o : Nat) (e : Ev) : (s.schedule n o e).anchors = s.anchors := rfl
@[simp] theorem slotImgs_schedule (s : State) (n o : Nat) (e : Ev) : (s.schedule n o e).slotImgs = s.slotImgs := rfl
@[simp] theorem locks_schedule (s : State) (n o : Nat) (e : Ev) : (s.schedule n o e).locks = s.locks := rfl
@[simp] theorem gangClaims_schedule (s : State) (n o : Nat) (e : Ev) : (s.schedule n o e).gangClaims = s.gangClaims := rfl
@[simp] theorem host_schedule (s : State) (n o : Nat) (e : Ev) : (s.schedule n o e).host = s.host := rfl

/-! ## `State.plan` -/

@[simp] theorem now_plan (s : State) (n o : Nat) (i : Instr) (a : EvArg) : (s.plan n o i a).now = s.now := rfl
@[simp] theorem ftime_plan (s : State) (n o : Nat) (i : Instr) (a : EvArg) : (s.plan n o i a).ftime = s.ftime := rfl
@[simp] theorem ftOn_plan (s : State) (n o : Nat) (i : Instr) (a : EvArg) : (s.plan n o i a).ftOn = s.ftOn := rfl
@[simp] theorem turn_plan (s : State) (n o : Nat) (i : Instr) (a : EvArg) : (s.plan n o i a).turn = s.turn := rfl
@[simp] theorem cur_plan (s : State) (n o : Nat) (i : Instr) (a : EvArg) : (s.plan n o i a).cur = s.cur := rfl
@[simp] theorem arg_plan (s : State) (n o : Nat) (i : Instr) (a : EvArg) : (s.plan n o i a).arg = s.arg := rfl
@[simp] theorem free_plan (s : State) (n o : Nat) (i : Instr) (a : EvArg) : (s.plan n o i a).free = s.free := rfl
@[simp] theorem nextId_plan (s : State) (n o : Nat) (i : Instr) (a : EvArg) : (s.plan n o i a).nextId = s.nextId := rfl
@[simp] theorem bootStep_plan (s : State) (n o : Nat) (i : Instr) (a : EvArg) : (s.plan n o i a).bootStep = s.bootStep := rfl
@[simp] theorem boot_plan (s : State) (n o : Nat) (i : Instr) (a : EvArg) : (s.plan n o i a).boot = s.boot := rfl
@[simp] theorem tiles_plan (s : State) (n o : Nat) (i : Instr) (a : EvArg) : (s.plan n o i a).tiles = s.tiles := rfl
@[simp] theorem mem_plan (s : State) (n o : Nat) (i : Instr) (a : EvArg) : (s.plan n o i a).mem = s.mem := rfl
@[simp] theorem memWas_plan (s : State) (n o : Nat) (i : Instr) (a : EvArg) : (s.plan n o i a).memWas = s.memWas := rfl
@[simp] theorem undo_plan (s : State) (n o : Nat) (i : Instr) (a : EvArg) : (s.plan n o i a).undo = s.undo := rfl
@[simp] theorem owner_plan (s : State) (n o : Nat) (i : Instr) (a : EvArg) : (s.plan n o i a).owner = s.owner := rfl
@[simp] theorem binds_plan (s : State) (n o : Nat) (i : Instr) (a : EvArg) : (s.plan n o i a).binds = s.binds := rfl
@[simp] theorem stlb_plan (s : State) (n o : Nat) (i : Instr) (a : EvArg) : (s.plan n o i a).stlb = s.stlb := rfl
@[simp] theorem walks_plan (s : State) (n o : Nat) (i : Instr) (a : EvArg) : (s.plan n o i a).walks = s.walks := rfl
@[simp] theorem counters_plan (s : State) (n o : Nat) (i : Instr) (a : EvArg) : (s.plan n o i a).counters = s.counters := rfl
@[simp] theorem ctrSeen_plan (s : State) (n o : Nat) (i : Instr) (a : EvArg) : (s.plan n o i a).ctrSeen = s.ctrSeen := rfl
@[simp] theorem tasks_plan (s : State) (n o : Nat) (i : Instr) (a : EvArg) : (s.plan n o i a).tasks = s.tasks := rfl
@[simp] theorem spawns_plan (s : State) (n o : Nat) (i : Instr) (a : EvArg) : (s.plan n o i a).spawns = s.spawns := rfl
@[simp] theorem pipes_plan (s : State) (n o : Nat) (i : Instr) (a : EvArg) : (s.plan n o i a).pipes = s.pipes := rfl
@[simp] theorem windows_plan (s : State) (n o : Nat) (i : Instr) (a : EvArg) : (s.plan n o i a).windows = s.windows := rfl
@[simp] theorem groups_plan (s : State) (n o : Nat) (i : Instr) (a : EvArg) : (s.plan n o i a).groups = s.groups := rfl
@[simp] theorem dedup_plan (s : State) (n o : Nat) (i : Instr) (a : EvArg) : (s.plan n o i a).dedup = s.dedup := rfl
@[simp] theorem ops_plan (s : State) (n o : Nat) (i : Instr) (a : EvArg) : (s.plan n o i a).ops = s.ops := rfl
@[simp] theorem nextOpn_plan (s : State) (n o : Nat) (i : Instr) (a : EvArg) : (s.plan n o i a).nextOpn = s.nextOpn := rfl
@[simp] theorem accRecs_plan (s : State) (n o : Nat) (i : Instr) (a : EvArg) : (s.plan n o i a).accRecs = s.accRecs := rfl
@[simp] theorem posts_plan (s : State) (n o : Nat) (i : Instr) (a : EvArg) : (s.plan n o i a).posts = s.posts := rfl
@[simp] theorem combine_plan (s : State) (n o : Nat) (i : Instr) (a : EvArg) : (s.plan n o i a).combine = s.combine := rfl
@[simp] theorem poisoned_plan (s : State) (n o : Nat) (i : Instr) (a : EvArg) : (s.plan n o i a).poisoned = s.poisoned := rfl
@[simp] theorem rejected_plan (s : State) (n o : Nat) (i : Instr) (a : EvArg) : (s.plan n o i a).rejected = s.rejected := rfl
@[simp] theorem tagOps_plan (s : State) (n o : Nat) (i : Instr) (a : EvArg) : (s.plan n o i a).tagOps = s.tagOps := rfl
@[simp] theorem reqQ_plan (s : State) (n o : Nat) (i : Instr) (a : EvArg) : (s.plan n o i a).reqQ = s.reqQ := rfl
@[simp] theorem ctlQ_plan (s : State) (n o : Nat) (i : Instr) (a : EvArg) : (s.plan n o i a).ctlQ = s.ctlQ := rfl
@[simp] theorem repQ_plan (s : State) (n o : Nat) (i : Instr) (a : EvArg) : (s.plan n o i a).repQ = s.repQ := rfl
@[simp] theorem joined_plan (s : State) (n o : Nat) (i : Instr) (a : EvArg) : (s.plan n o i a).joined = s.joined := rfl
@[simp] theorem farUp_plan (s : State) (n o : Nat) (i : Instr) (a : EvArg) : (s.plan n o i a).farUp = s.farUp := rfl
@[simp] theorem outbox_plan (s : State) (n o : Nat) (i : Instr) (a : EvArg) : (s.plan n o i a).outbox = s.outbox := rfl
@[simp] theorem collOut_plan (s : State) (n o : Nat) (i : Instr) (a : EvArg) : (s.plan n o i a).collOut = s.collOut := rfl
@[simp] theorem conns_plan (s : State) (n o : Nat) (i : Instr) (a : EvArg) : (s.plan n o i a).conns = s.conns := rfl
@[simp] theorem ports_plan (s : State) (n o : Nat) (i : Instr) (a : EvArg) : (s.plan n o i a).ports = s.ports := rfl
@[simp] theorem colls_plan (s : State) (n o : Nat) (i : Instr) (a : EvArg) : (s.plan n o i a).colls = s.colls := rfl
@[simp] theorem collNums_plan (s : State) (n o : Nat) (i : Instr) (a : EvArg) : (s.plan n o i a).collNums = s.collNums := rfl
@[simp] theorem launches_plan (s : State) (n o : Nat) (i : Instr) (a : EvArg) : (s.plan n o i a).launches = s.launches := rfl
@[simp] theorem grants_plan (s : State) (n o : Nat) (i : Instr) (a : EvArg) : (s.plan n o i a).grants = s.grants := rfl
@[simp] theorem mxImages_plan (s : State) (n o : Nat) (i : Instr) (a : EvArg) : (s.plan n o i a).mxImages = s.mxImages := rfl
@[simp] theorem demand_plan (s : State) (n o : Nat) (i : Instr) (a : EvArg) : (s.plan n o i a).demand = s.demand := rfl
@[simp] theorem overAt_plan (s : State) (n o : Nat) (i : Instr) (a : EvArg) : (s.plan n o i a).overAt = s.overAt := rfl
@[simp] theorem dups_plan (s : State) (n o : Nat) (i : Instr) (a : EvArg) : (s.plan n o i a).dups = s.dups := rfl
@[simp] theorem anchors_plan (s : State) (n o : Nat) (i : Instr) (a : EvArg) : (s.plan n o i a).anchors = s.anchors := rfl
@[simp] theorem slotImgs_plan (s : State) (n o : Nat) (i : Instr) (a : EvArg) : (s.plan n o i a).slotImgs = s.slotImgs := rfl
@[simp] theorem locks_plan (s : State) (n o : Nat) (i : Instr) (a : EvArg) : (s.plan n o i a).locks = s.locks := rfl
@[simp] theorem gangClaims_plan (s : State) (n o : Nat) (i : Instr) (a : EvArg) : (s.plan n o i a).gangClaims = s.gangClaims := rfl
@[simp] theorem host_plan (s : State) (n o : Nat) (i : Instr) (a : EvArg) : (s.plan n o i a).host = s.host := rfl

/-! ## `State.note` -/

@[simp] theorem now_note (s : State) (n : Issued) : (s.note n).now = s.now := rfl
@[simp] theorem ftime_note (s : State) (n : Issued) : (s.note n).ftime = s.ftime := rfl
@[simp] theorem ftOn_note (s : State) (n : Issued) : (s.note n).ftOn = s.ftOn := rfl
@[simp] theorem turn_note (s : State) (n : Issued) : (s.note n).turn = s.turn := rfl
@[simp] theorem cur_note (s : State) (n : Issued) : (s.note n).cur = s.cur := rfl
@[simp] theorem arg_note (s : State) (n : Issued) : (s.note n).arg = s.arg := rfl
@[simp] theorem free_note (s : State) (n : Issued) : (s.note n).free = s.free := rfl
@[simp] theorem nextId_note (s : State) (n : Issued) : (s.note n).nextId = s.nextId := rfl
@[simp] theorem agenda_note (s : State) (n : Issued) : (s.note n).agenda = s.agenda := rfl
@[simp] theorem bootStep_note (s : State) (n : Issued) : (s.note n).bootStep = s.bootStep := rfl
@[simp] theorem boot_note (s : State) (n : Issued) : (s.note n).boot = s.boot := rfl
@[simp] theorem mem_note (s : State) (n : Issued) : (s.note n).mem = s.mem := rfl
@[simp] theorem memWas_note (s : State) (n : Issued) : (s.note n).memWas = s.memWas := rfl
@[simp] theorem undo_note (s : State) (n : Issued) : (s.note n).undo = s.undo := rfl
@[simp] theorem owner_note (s : State) (n : Issued) : (s.note n).owner = s.owner := rfl
@[simp] theorem binds_note (s : State) (n : Issued) : (s.note n).binds = s.binds := rfl
@[simp] theorem stlb_note (s : State) (n : Issued) : (s.note n).stlb = s.stlb := rfl
@[simp] theorem walks_note (s : State) (n : Issued) : (s.note n).walks = s.walks := rfl
@[simp] theorem counters_note (s : State) (n : Issued) : (s.note n).counters = s.counters := rfl
@[simp] theorem ctrSeen_note (s : State) (n : Issued) : (s.note n).ctrSeen = s.ctrSeen := rfl
@[simp] theorem tasks_note (s : State) (n : Issued) : (s.note n).tasks = s.tasks := rfl
@[simp] theorem spawns_note (s : State) (n : Issued) : (s.note n).spawns = s.spawns := rfl
@[simp] theorem pipes_note (s : State) (n : Issued) : (s.note n).pipes = s.pipes := rfl
@[simp] theorem windows_note (s : State) (n : Issued) : (s.note n).windows = s.windows := rfl
@[simp] theorem groups_note (s : State) (n : Issued) : (s.note n).groups = s.groups := rfl
@[simp] theorem dedup_note (s : State) (n : Issued) : (s.note n).dedup = s.dedup := rfl
@[simp] theorem ops_note (s : State) (n : Issued) : (s.note n).ops = s.ops := rfl
@[simp] theorem nextOpn_note (s : State) (n : Issued) : (s.note n).nextOpn = s.nextOpn := rfl
@[simp] theorem accRecs_note (s : State) (n : Issued) : (s.note n).accRecs = s.accRecs := rfl
@[simp] theorem posts_note (s : State) (n : Issued) : (s.note n).posts = s.posts := rfl
@[simp] theorem combine_note (s : State) (n : Issued) : (s.note n).combine = s.combine := rfl
@[simp] theorem poisoned_note (s : State) (n : Issued) : (s.note n).poisoned = s.poisoned := rfl
@[simp] theorem rejected_note (s : State) (n : Issued) : (s.note n).rejected = s.rejected := rfl
@[simp] theorem tagOps_note (s : State) (n : Issued) : (s.note n).tagOps = s.tagOps := rfl
@[simp] theorem reqQ_note (s : State) (n : Issued) : (s.note n).reqQ = s.reqQ := rfl
@[simp] theorem ctlQ_note (s : State) (n : Issued) : (s.note n).ctlQ = s.ctlQ := rfl
@[simp] theorem repQ_note (s : State) (n : Issued) : (s.note n).repQ = s.repQ := rfl
@[simp] theorem joined_note (s : State) (n : Issued) : (s.note n).joined = s.joined := rfl
@[simp] theorem farUp_note (s : State) (n : Issued) : (s.note n).farUp = s.farUp := rfl
@[simp] theorem outbox_note (s : State) (n : Issued) : (s.note n).outbox = s.outbox := rfl
@[simp] theorem collOut_note (s : State) (n : Issued) : (s.note n).collOut = s.collOut := rfl
@[simp] theorem conns_note (s : State) (n : Issued) : (s.note n).conns = s.conns := rfl
@[simp] theorem ports_note (s : State) (n : Issued) : (s.note n).ports = s.ports := rfl
@[simp] theorem colls_note (s : State) (n : Issued) : (s.note n).colls = s.colls := rfl
@[simp] theorem collNums_note (s : State) (n : Issued) : (s.note n).collNums = s.collNums := rfl
@[simp] theorem launches_note (s : State) (n : Issued) : (s.note n).launches = s.launches := rfl
@[simp] theorem grants_note (s : State) (n : Issued) : (s.note n).grants = s.grants := rfl
@[simp] theorem mxImages_note (s : State) (n : Issued) : (s.note n).mxImages = s.mxImages := rfl
@[simp] theorem demand_note (s : State) (n : Issued) : (s.note n).demand = s.demand := rfl
@[simp] theorem overAt_note (s : State) (n : Issued) : (s.note n).overAt = s.overAt := rfl
@[simp] theorem dups_note (s : State) (n : Issued) : (s.note n).dups = s.dups := rfl
@[simp] theorem anchors_note (s : State) (n : Issued) : (s.note n).anchors = s.anchors := rfl
@[simp] theorem slotImgs_note (s : State) (n : Issued) : (s.note n).slotImgs = s.slotImgs := rfl
@[simp] theorem locks_note (s : State) (n : Issued) : (s.note n).locks = s.locks := rfl
@[simp] theorem gangClaims_note (s : State) (n : Issued) : (s.note n).gangClaims = s.gangClaims := rfl
@[simp] theorem host_note (s : State) (n : Issued) : (s.note n).host = s.host := rfl

/-! ## `State.land` -/

@[simp] theorem now_land (s : State) (k : Fin 8) (n : Nat) (ws : List RWrite) : (s.land k n ws).now = s.now := rfl
@[simp] theorem ftime_land (s : State) (k : Fin 8) (n : Nat) (ws : List RWrite) : (s.land k n ws).ftime = s.ftime := rfl
@[simp] theorem ftOn_land (s : State) (k : Fin 8) (n : Nat) (ws : List RWrite) : (s.land k n ws).ftOn = s.ftOn := rfl
@[simp] theorem turn_land (s : State) (k : Fin 8) (n : Nat) (ws : List RWrite) : (s.land k n ws).turn = s.turn := rfl
@[simp] theorem cur_land (s : State) (k : Fin 8) (n : Nat) (ws : List RWrite) : (s.land k n ws).cur = s.cur := rfl
@[simp] theorem arg_land (s : State) (k : Fin 8) (n : Nat) (ws : List RWrite) : (s.land k n ws).arg = s.arg := rfl
@[simp] theorem free_land (s : State) (k : Fin 8) (n : Nat) (ws : List RWrite) : (s.land k n ws).free = s.free := rfl
@[simp] theorem nextId_land (s : State) (k : Fin 8) (n : Nat) (ws : List RWrite) : (s.land k n ws).nextId = s.nextId := rfl
@[simp] theorem agenda_land (s : State) (k : Fin 8) (n : Nat) (ws : List RWrite) : (s.land k n ws).agenda = s.agenda := rfl
@[simp] theorem bootStep_land (s : State) (k : Fin 8) (n : Nat) (ws : List RWrite) : (s.land k n ws).bootStep = s.bootStep := rfl
@[simp] theorem boot_land (s : State) (k : Fin 8) (n : Nat) (ws : List RWrite) : (s.land k n ws).boot = s.boot := rfl
@[simp] theorem mem_land (s : State) (k : Fin 8) (n : Nat) (ws : List RWrite) : (s.land k n ws).mem = s.mem := rfl
@[simp] theorem memWas_land (s : State) (k : Fin 8) (n : Nat) (ws : List RWrite) : (s.land k n ws).memWas = s.memWas := rfl
@[simp] theorem undo_land (s : State) (k : Fin 8) (n : Nat) (ws : List RWrite) : (s.land k n ws).undo = s.undo := rfl
@[simp] theorem owner_land (s : State) (k : Fin 8) (n : Nat) (ws : List RWrite) : (s.land k n ws).owner = s.owner := rfl
@[simp] theorem binds_land (s : State) (k : Fin 8) (n : Nat) (ws : List RWrite) : (s.land k n ws).binds = s.binds := rfl
@[simp] theorem stlb_land (s : State) (k : Fin 8) (n : Nat) (ws : List RWrite) : (s.land k n ws).stlb = s.stlb := rfl
@[simp] theorem walks_land (s : State) (k : Fin 8) (n : Nat) (ws : List RWrite) : (s.land k n ws).walks = s.walks := rfl
@[simp] theorem counters_land (s : State) (k : Fin 8) (n : Nat) (ws : List RWrite) : (s.land k n ws).counters = s.counters := rfl
@[simp] theorem ctrSeen_land (s : State) (k : Fin 8) (n : Nat) (ws : List RWrite) : (s.land k n ws).ctrSeen = s.ctrSeen := rfl
@[simp] theorem tasks_land (s : State) (k : Fin 8) (n : Nat) (ws : List RWrite) : (s.land k n ws).tasks = s.tasks := rfl
@[simp] theorem spawns_land (s : State) (k : Fin 8) (n : Nat) (ws : List RWrite) : (s.land k n ws).spawns = s.spawns := rfl
@[simp] theorem pipes_land (s : State) (k : Fin 8) (n : Nat) (ws : List RWrite) : (s.land k n ws).pipes = s.pipes := rfl
@[simp] theorem windows_land (s : State) (k : Fin 8) (n : Nat) (ws : List RWrite) : (s.land k n ws).windows = s.windows := rfl
@[simp] theorem groups_land (s : State) (k : Fin 8) (n : Nat) (ws : List RWrite) : (s.land k n ws).groups = s.groups := rfl
@[simp] theorem dedup_land (s : State) (k : Fin 8) (n : Nat) (ws : List RWrite) : (s.land k n ws).dedup = s.dedup := rfl
@[simp] theorem ops_land (s : State) (k : Fin 8) (n : Nat) (ws : List RWrite) : (s.land k n ws).ops = s.ops := rfl
@[simp] theorem nextOpn_land (s : State) (k : Fin 8) (n : Nat) (ws : List RWrite) : (s.land k n ws).nextOpn = s.nextOpn := rfl
@[simp] theorem accRecs_land (s : State) (k : Fin 8) (n : Nat) (ws : List RWrite) : (s.land k n ws).accRecs = s.accRecs := rfl
@[simp] theorem posts_land (s : State) (k : Fin 8) (n : Nat) (ws : List RWrite) : (s.land k n ws).posts = s.posts := rfl
@[simp] theorem combine_land (s : State) (k : Fin 8) (n : Nat) (ws : List RWrite) : (s.land k n ws).combine = s.combine := rfl
@[simp] theorem poisoned_land (s : State) (k : Fin 8) (n : Nat) (ws : List RWrite) : (s.land k n ws).poisoned = s.poisoned := rfl
@[simp] theorem rejected_land (s : State) (k : Fin 8) (n : Nat) (ws : List RWrite) : (s.land k n ws).rejected = s.rejected := rfl
@[simp] theorem tagOps_land (s : State) (k : Fin 8) (n : Nat) (ws : List RWrite) : (s.land k n ws).tagOps = s.tagOps := rfl
@[simp] theorem reqQ_land (s : State) (k : Fin 8) (n : Nat) (ws : List RWrite) : (s.land k n ws).reqQ = s.reqQ := rfl
@[simp] theorem ctlQ_land (s : State) (k : Fin 8) (n : Nat) (ws : List RWrite) : (s.land k n ws).ctlQ = s.ctlQ := rfl
@[simp] theorem repQ_land (s : State) (k : Fin 8) (n : Nat) (ws : List RWrite) : (s.land k n ws).repQ = s.repQ := rfl
@[simp] theorem joined_land (s : State) (k : Fin 8) (n : Nat) (ws : List RWrite) : (s.land k n ws).joined = s.joined := rfl
@[simp] theorem farUp_land (s : State) (k : Fin 8) (n : Nat) (ws : List RWrite) : (s.land k n ws).farUp = s.farUp := rfl
@[simp] theorem outbox_land (s : State) (k : Fin 8) (n : Nat) (ws : List RWrite) : (s.land k n ws).outbox = s.outbox := rfl
@[simp] theorem collOut_land (s : State) (k : Fin 8) (n : Nat) (ws : List RWrite) : (s.land k n ws).collOut = s.collOut := rfl
@[simp] theorem conns_land (s : State) (k : Fin 8) (n : Nat) (ws : List RWrite) : (s.land k n ws).conns = s.conns := rfl
@[simp] theorem ports_land (s : State) (k : Fin 8) (n : Nat) (ws : List RWrite) : (s.land k n ws).ports = s.ports := rfl
@[simp] theorem colls_land (s : State) (k : Fin 8) (n : Nat) (ws : List RWrite) : (s.land k n ws).colls = s.colls := rfl
@[simp] theorem collNums_land (s : State) (k : Fin 8) (n : Nat) (ws : List RWrite) : (s.land k n ws).collNums = s.collNums := rfl
@[simp] theorem launches_land (s : State) (k : Fin 8) (n : Nat) (ws : List RWrite) : (s.land k n ws).launches = s.launches := rfl
@[simp] theorem grants_land (s : State) (k : Fin 8) (n : Nat) (ws : List RWrite) : (s.land k n ws).grants = s.grants := rfl
@[simp] theorem mxImages_land (s : State) (k : Fin 8) (n : Nat) (ws : List RWrite) : (s.land k n ws).mxImages = s.mxImages := rfl
@[simp] theorem demand_land (s : State) (k : Fin 8) (n : Nat) (ws : List RWrite) : (s.land k n ws).demand = s.demand := rfl
@[simp] theorem overAt_land (s : State) (k : Fin 8) (n : Nat) (ws : List RWrite) : (s.land k n ws).overAt = s.overAt := rfl
@[simp] theorem dups_land (s : State) (k : Fin 8) (n : Nat) (ws : List RWrite) : (s.land k n ws).dups = s.dups := rfl
@[simp] theorem anchors_land (s : State) (k : Fin 8) (n : Nat) (ws : List RWrite) : (s.land k n ws).anchors = s.anchors := rfl
@[simp] theorem slotImgs_land (s : State) (k : Fin 8) (n : Nat) (ws : List RWrite) : (s.land k n ws).slotImgs = s.slotImgs := rfl
@[simp] theorem locks_land (s : State) (k : Fin 8) (n : Nat) (ws : List RWrite) : (s.land k n ws).locks = s.locks := rfl
@[simp] theorem gangClaims_land (s : State) (k : Fin 8) (n : Nat) (ws : List RWrite) : (s.land k n ws).gangClaims = s.gangClaims := rfl
@[simp] theorem host_land (s : State) (k : Fin 8) (n : Nat) (ws : List RWrite) : (s.land k n ws).host = s.host := rfl

/-! ## `Tile.setSreg` -/

@[simp] theorem setSreg_task (x : Tile) (n : Nat) (v : Word) : (x.setSreg n v).task = x.task := rfl
@[simp] theorem setSreg_run (x : Tile) (n : Nat) (v : Word) : (x.setSreg n v).run = x.run := rfl
@[simp] theorem setSreg_frozen (x : Tile) (n : Nat) (v : Word) : (x.setSreg n v).frozen = x.frozen := rfl
@[simp] theorem setSreg_throttled (x : Tile) (n : Nat) (v : Word) : (x.setSreg n v).throttled = x.throttled := rfl
@[simp] theorem setSreg_issued (x : Tile) (n : Nat) (v : Word) : (x.setSreg n v).issued = x.issued := rfl
@[simp] theorem setSreg_s (x : Tile) (n : Nat) (v : Word) : (x.setSreg n v).s = x.s := rfl
@[simp] theorem setSreg_p (x : Tile) (n : Nat) (v : Word) : (x.setSreg n v).p = x.p := rfl
@[simp] theorem setSreg_v (x : Tile) (n : Nat) (v : Word) : (x.setSreg n v).v = x.v := rfl
@[simp] theorem setSreg_q (x : Tile) (n : Nat) (v : Word) : (x.setSreg n v).q = x.q := rfl
@[simp] theorem setSreg_z (x : Tile) (n : Nat) (v : Word) : (x.setSreg n v).z = x.z := rfl
@[simp] theorem setSreg_rs (x : Tile) (n : Nat) (v : Word) : (x.setSreg n v).rs = x.rs := rfl
@[simp] theorem setSreg_tcyc (x : Tile) (n : Nat) (v : Word) : (x.setSreg n v).tcyc = x.tcyc := rfl
@[simp] theorem setSreg_fq (x : Tile) (n : Nat) (v : Word) : (x.setSreg n v).fq = x.fq := rfl
@[simp] theorem setSreg_branch (x : Tile) (n : Nat) (v : Word) : (x.setSreg n v).branch = x.branch := rfl
@[simp] theorem setSreg_rpt (x : Tile) (n : Nat) (v : Word) : (x.setSreg n v).rpt = x.rpt := rfl
@[simp] theorem setSreg_yc (x : Tile) (n : Nat) (v : Word) : (x.setSreg n v).yc = x.yc := rfl
@[simp] theorem setSreg_noBrk (x : Tile) (n : Nat) (v : Word) : (x.setSreg n v).noBrk = x.noBrk := rfl
@[simp] theorem setSreg_brkAt (x : Tile) (n : Nat) (v : Word) : (x.setSreg n v).brkAt = x.brkAt := rfl
@[simp] theorem setSreg_syncRest (x : Tile) (n : Nat) (v : Word) : (x.setSreg n v).syncRest = x.syncRest := rfl
@[simp] theorem setSreg_atYield (x : Tile) (n : Nat) (v : Word) : (x.setSreg n v).atYield = x.atYield := rfl
@[simp] theorem setSreg_rclk (x : Tile) (n : Nat) (v : Word) : (x.setSreg n v).rclk = x.rclk := rfl
@[simp] theorem setSreg_inflight (x : Tile) (n : Nat) (v : Word) : (x.setSreg n v).inflight = x.inflight := rfl
@[simp] theorem setSreg_snapshot (x : Tile) (n : Nat) (v : Word) : (x.setSreg n v).snapshot = x.snapshot := rfl
@[simp] theorem setSreg_snapRpt (x : Tile) (n : Nat) (v : Word) : (x.setSreg n v).snapRpt = x.snapRpt := rfl
@[simp] theorem setSreg_oplog (x : Tile) (n : Nat) (v : Word) : (x.setSreg n v).oplog = x.oplog := rfl
@[simp] theorem setSreg_logTraps (x : Tile) (n : Nat) (v : Word) : (x.setSreg n v).logTraps = x.logTraps := rfl
@[simp] theorem setSreg_trapDue (x : Tile) (n : Nat) (v : Word) : (x.setSreg n v).trapDue = x.trapDue := rfl
@[simp] theorem setSreg_heldX (x : Tile) (n : Nat) (v : Word) : (x.setSreg n v).heldX = x.heldX := rfl
@[simp] theorem setSreg_dueF (x : Tile) (n : Nat) (v : Word) : (x.setSreg n v).dueF = x.dueF := rfl
@[simp] theorem setSreg_heldF (x : Tile) (n : Nat) (v : Word) : (x.setSreg n v).heldF = x.heldF := rfl
@[simp] theorem setSreg_heldT (x : Tile) (n : Nat) (v : Word) : (x.setSreg n v).heldT = x.heldT := rfl
@[simp] theorem setSreg_trapFt (x : Tile) (n : Nat) (v : Word) : (x.setSreg n v).trapFt = x.trapFt := rfl
@[simp] theorem setSreg_stDue (x : Tile) (n : Nat) (v : Word) : (x.setSreg n v).stDue = x.stDue := rfl
@[simp] theorem setSreg_mxNow (x : Tile) (n : Nat) (v : Word) : (x.setSreg n v).mxNow = x.mxNow := rfl
@[simp] theorem setSreg_mDue (x : Tile) (n : Nat) (v : Word) : (x.setSreg n v).mDue = x.mDue := rfl
@[simp] theorem setSreg_gaveUp (x : Tile) (n : Nat) (v : Word) : (x.setSreg n v).gaveUp = x.gaveUp := rfl
@[simp] theorem setSreg_preempt (x : Tile) (n : Nat) (v : Word) : (x.setSreg n v).preempt = x.preempt := rfl
@[simp] theorem setSreg_ceded (x : Tile) (n : Nat) (v : Word) : (x.setSreg n v).ceded = x.ceded := rfl
@[simp] theorem setSreg_pad (x : Tile) (n : Nat) (v : Word) : (x.setSreg n v).pad = x.pad := rfl
@[simp] theorem setSreg_tags (x : Tile) (n : Nat) (v : Word) : (x.setSreg n v).tags = x.tags := rfl
@[simp] theorem setSreg_tagNew (x : Tile) (n : Nat) (v : Word) : (x.setSreg n v).tagNew = x.tagNew := rfl
@[simp] theorem setSreg_pend (x : Tile) (n : Nat) (v : Word) : (x.setSreg n v).pend = x.pend := rfl
@[simp] theorem setSreg_late (x : Tile) (n : Nat) (v : Word) : (x.setSreg n v).late = x.late := rfl
@[simp] theorem setSreg_resv (x : Tile) (n : Nat) (v : Word) : (x.setSreg n v).resv = x.resv := rfl
@[simp] theorem setSreg_l1 (x : Tile) (n : Nat) (v : Word) : (x.setSreg n v).l1 = x.l1 := rfl
@[simp] theorem setSreg_plru (x : Tile) (n : Nat) (v : Word) : (x.setSreg n v).plru = x.plru := rfl
@[simp] theorem setSreg_fills (x : Tile) (n : Nat) (v : Word) : (x.setSreg n v).fills = x.fills := rfl
@[simp] theorem setSreg_acqAt (x : Tile) (n : Nat) (v : Word) : (x.setSreg n v).acqAt = x.acqAt := rfl
@[simp] theorem setSreg_utlb (x : Tile) (n : Nat) (v : Word) : (x.setSreg n v).utlb = x.utlb := rfl
@[simp] theorem setSreg_fbuf (x : Tile) (n : Nat) (v : Word) : (x.setSreg n v).fbuf = x.fbuf := rfl
@[simp] theorem setSreg_handles (x : Tile) (n : Nat) (v : Word) : (x.setSreg n v).handles = x.handles := rfl
@[simp] theorem setSreg_hseen (x : Tile) (n : Nat) (v : Word) : (x.setSreg n v).hseen = x.hseen := rfl
@[simp] theorem setSreg_ce (x : Tile) (n : Nat) (v : Word) : (x.setSreg n v).ce = x.ce := rfl
@[simp] theorem setSreg_copies (x : Tile) (n : Nat) (v : Word) : (x.setSreg n v).copies = x.copies := rfl
@[simp] theorem setSreg_mclk (x : Tile) (n : Nat) (v : Word) : (x.setSreg n v).mclk = x.mclk := rfl
@[simp] theorem setSreg_mheld (x : Tile) (n : Nat) (v : Word) : (x.setSreg n v).mheld = x.mheld := rfl
@[simp] theorem setSreg_mq (x : Tile) (n : Nat) (v : Word) : (x.setSreg n v).mq = x.mq := rfl
@[simp] theorem setSreg_w (x : Tile) (n : Nat) (v : Word) : (x.setSreg n v).w = x.w := rfl
@[simp] theorem setSreg_mxAt (x : Tile) (n : Nat) (v : Word) : (x.setSreg n v).mxAt = x.mxAt := rfl
@[simp] theorem setSreg_mxBusy (x : Tile) (n : Nat) (v : Word) : (x.setSreg n v).mxBusy = x.mxBusy := rfl
@[simp] theorem setSreg_susp (x : Tile) (n : Nat) (v : Word) : (x.setSreg n v).susp = x.susp := rfl
@[simp] theorem setSreg_claim (x : Tile) (n : Nat) (v : Word) : (x.setSreg n v).claim = x.claim := rfl

/-! ## `Tile.setVec` -/

@[simp] theorem setVec_task (x : Tile) (n : Nat) (v : Reg 32) : (x.setVec n v).task = x.task := rfl
@[simp] theorem setVec_run (x : Tile) (n : Nat) (v : Reg 32) : (x.setVec n v).run = x.run := rfl
@[simp] theorem setVec_frozen (x : Tile) (n : Nat) (v : Reg 32) : (x.setVec n v).frozen = x.frozen := rfl
@[simp] theorem setVec_throttled (x : Tile) (n : Nat) (v : Reg 32) : (x.setVec n v).throttled = x.throttled := rfl
@[simp] theorem setVec_issued (x : Tile) (n : Nat) (v : Reg 32) : (x.setVec n v).issued = x.issued := rfl
@[simp] theorem setVec_s (x : Tile) (n : Nat) (v : Reg 32) : (x.setVec n v).s = x.s := rfl
@[simp] theorem setVec_p (x : Tile) (n : Nat) (v : Reg 32) : (x.setVec n v).p = x.p := rfl
@[simp] theorem setVec_q (x : Tile) (n : Nat) (v : Reg 32) : (x.setVec n v).q = x.q := rfl
@[simp] theorem setVec_z (x : Tile) (n : Nat) (v : Reg 32) : (x.setVec n v).z = x.z := rfl
@[simp] theorem setVec_rs (x : Tile) (n : Nat) (v : Reg 32) : (x.setVec n v).rs = x.rs := rfl
@[simp] theorem setVec_sr (x : Tile) (n : Nat) (v : Reg 32) : (x.setVec n v).sr = x.sr := rfl
@[simp] theorem setVec_tcyc (x : Tile) (n : Nat) (v : Reg 32) : (x.setVec n v).tcyc = x.tcyc := rfl
@[simp] theorem setVec_fq (x : Tile) (n : Nat) (v : Reg 32) : (x.setVec n v).fq = x.fq := rfl
@[simp] theorem setVec_branch (x : Tile) (n : Nat) (v : Reg 32) : (x.setVec n v).branch = x.branch := rfl
@[simp] theorem setVec_rpt (x : Tile) (n : Nat) (v : Reg 32) : (x.setVec n v).rpt = x.rpt := rfl
@[simp] theorem setVec_yc (x : Tile) (n : Nat) (v : Reg 32) : (x.setVec n v).yc = x.yc := rfl
@[simp] theorem setVec_noBrk (x : Tile) (n : Nat) (v : Reg 32) : (x.setVec n v).noBrk = x.noBrk := rfl
@[simp] theorem setVec_brkAt (x : Tile) (n : Nat) (v : Reg 32) : (x.setVec n v).brkAt = x.brkAt := rfl
@[simp] theorem setVec_syncRest (x : Tile) (n : Nat) (v : Reg 32) : (x.setVec n v).syncRest = x.syncRest := rfl
@[simp] theorem setVec_atYield (x : Tile) (n : Nat) (v : Reg 32) : (x.setVec n v).atYield = x.atYield := rfl
@[simp] theorem setVec_rclk (x : Tile) (n : Nat) (v : Reg 32) : (x.setVec n v).rclk = x.rclk := rfl
@[simp] theorem setVec_inflight (x : Tile) (n : Nat) (v : Reg 32) : (x.setVec n v).inflight = x.inflight := rfl
@[simp] theorem setVec_snapshot (x : Tile) (n : Nat) (v : Reg 32) : (x.setVec n v).snapshot = x.snapshot := rfl
@[simp] theorem setVec_snapRpt (x : Tile) (n : Nat) (v : Reg 32) : (x.setVec n v).snapRpt = x.snapRpt := rfl
@[simp] theorem setVec_oplog (x : Tile) (n : Nat) (v : Reg 32) : (x.setVec n v).oplog = x.oplog := rfl
@[simp] theorem setVec_logTraps (x : Tile) (n : Nat) (v : Reg 32) : (x.setVec n v).logTraps = x.logTraps := rfl
@[simp] theorem setVec_trapDue (x : Tile) (n : Nat) (v : Reg 32) : (x.setVec n v).trapDue = x.trapDue := rfl
@[simp] theorem setVec_heldX (x : Tile) (n : Nat) (v : Reg 32) : (x.setVec n v).heldX = x.heldX := rfl
@[simp] theorem setVec_dueF (x : Tile) (n : Nat) (v : Reg 32) : (x.setVec n v).dueF = x.dueF := rfl
@[simp] theorem setVec_heldF (x : Tile) (n : Nat) (v : Reg 32) : (x.setVec n v).heldF = x.heldF := rfl
@[simp] theorem setVec_heldT (x : Tile) (n : Nat) (v : Reg 32) : (x.setVec n v).heldT = x.heldT := rfl
@[simp] theorem setVec_trapFt (x : Tile) (n : Nat) (v : Reg 32) : (x.setVec n v).trapFt = x.trapFt := rfl
@[simp] theorem setVec_stDue (x : Tile) (n : Nat) (v : Reg 32) : (x.setVec n v).stDue = x.stDue := rfl
@[simp] theorem setVec_mxNow (x : Tile) (n : Nat) (v : Reg 32) : (x.setVec n v).mxNow = x.mxNow := rfl
@[simp] theorem setVec_mDue (x : Tile) (n : Nat) (v : Reg 32) : (x.setVec n v).mDue = x.mDue := rfl
@[simp] theorem setVec_gaveUp (x : Tile) (n : Nat) (v : Reg 32) : (x.setVec n v).gaveUp = x.gaveUp := rfl
@[simp] theorem setVec_preempt (x : Tile) (n : Nat) (v : Reg 32) : (x.setVec n v).preempt = x.preempt := rfl
@[simp] theorem setVec_ceded (x : Tile) (n : Nat) (v : Reg 32) : (x.setVec n v).ceded = x.ceded := rfl
@[simp] theorem setVec_pad (x : Tile) (n : Nat) (v : Reg 32) : (x.setVec n v).pad = x.pad := rfl
@[simp] theorem setVec_tags (x : Tile) (n : Nat) (v : Reg 32) : (x.setVec n v).tags = x.tags := rfl
@[simp] theorem setVec_tagNew (x : Tile) (n : Nat) (v : Reg 32) : (x.setVec n v).tagNew = x.tagNew := rfl
@[simp] theorem setVec_pend (x : Tile) (n : Nat) (v : Reg 32) : (x.setVec n v).pend = x.pend := rfl
@[simp] theorem setVec_late (x : Tile) (n : Nat) (v : Reg 32) : (x.setVec n v).late = x.late := rfl
@[simp] theorem setVec_resv (x : Tile) (n : Nat) (v : Reg 32) : (x.setVec n v).resv = x.resv := rfl
@[simp] theorem setVec_l1 (x : Tile) (n : Nat) (v : Reg 32) : (x.setVec n v).l1 = x.l1 := rfl
@[simp] theorem setVec_plru (x : Tile) (n : Nat) (v : Reg 32) : (x.setVec n v).plru = x.plru := rfl
@[simp] theorem setVec_fills (x : Tile) (n : Nat) (v : Reg 32) : (x.setVec n v).fills = x.fills := rfl
@[simp] theorem setVec_acqAt (x : Tile) (n : Nat) (v : Reg 32) : (x.setVec n v).acqAt = x.acqAt := rfl
@[simp] theorem setVec_utlb (x : Tile) (n : Nat) (v : Reg 32) : (x.setVec n v).utlb = x.utlb := rfl
@[simp] theorem setVec_fbuf (x : Tile) (n : Nat) (v : Reg 32) : (x.setVec n v).fbuf = x.fbuf := rfl
@[simp] theorem setVec_handles (x : Tile) (n : Nat) (v : Reg 32) : (x.setVec n v).handles = x.handles := rfl
@[simp] theorem setVec_hseen (x : Tile) (n : Nat) (v : Reg 32) : (x.setVec n v).hseen = x.hseen := rfl
@[simp] theorem setVec_ce (x : Tile) (n : Nat) (v : Reg 32) : (x.setVec n v).ce = x.ce := rfl
@[simp] theorem setVec_copies (x : Tile) (n : Nat) (v : Reg 32) : (x.setVec n v).copies = x.copies := rfl
@[simp] theorem setVec_mclk (x : Tile) (n : Nat) (v : Reg 32) : (x.setVec n v).mclk = x.mclk := rfl
@[simp] theorem setVec_mheld (x : Tile) (n : Nat) (v : Reg 32) : (x.setVec n v).mheld = x.mheld := rfl
@[simp] theorem setVec_mq (x : Tile) (n : Nat) (v : Reg 32) : (x.setVec n v).mq = x.mq := rfl
@[simp] theorem setVec_w (x : Tile) (n : Nat) (v : Reg 32) : (x.setVec n v).w = x.w := rfl
@[simp] theorem setVec_mxAt (x : Tile) (n : Nat) (v : Reg 32) : (x.setVec n v).mxAt = x.mxAt := rfl
@[simp] theorem setVec_mxBusy (x : Tile) (n : Nat) (v : Reg 32) : (x.setVec n v).mxBusy = x.mxBusy := rfl
@[simp] theorem setVec_susp (x : Tile) (n : Nat) (v : Reg 32) : (x.setVec n v).susp = x.susp := rfl
@[simp] theorem setVec_claim (x : Tile) (n : Nat) (v : Reg 32) : (x.setVec n v).claim = x.claim := rfl

/-! ## `Tile.setLatch` -/

@[simp] theorem setLatch_task (x : Tile) (n : Nat) (v : Reg 32) : (x.setLatch n v).task = x.task := rfl
@[simp] theorem setLatch_run (x : Tile) (n : Nat) (v : Reg 32) : (x.setLatch n v).run = x.run := rfl
@[simp] theorem setLatch_frozen (x : Tile) (n : Nat) (v : Reg 32) : (x.setLatch n v).frozen = x.frozen := rfl
@[simp] theorem setLatch_throttled (x : Tile) (n : Nat) (v : Reg 32) : (x.setLatch n v).throttled = x.throttled := rfl
@[simp] theorem setLatch_issued (x : Tile) (n : Nat) (v : Reg 32) : (x.setLatch n v).issued = x.issued := rfl
@[simp] theorem setLatch_s (x : Tile) (n : Nat) (v : Reg 32) : (x.setLatch n v).s = x.s := rfl
@[simp] theorem setLatch_p (x : Tile) (n : Nat) (v : Reg 32) : (x.setLatch n v).p = x.p := rfl
@[simp] theorem setLatch_v (x : Tile) (n : Nat) (v : Reg 32) : (x.setLatch n v).v = x.v := rfl
@[simp] theorem setLatch_z (x : Tile) (n : Nat) (v : Reg 32) : (x.setLatch n v).z = x.z := rfl
@[simp] theorem setLatch_rs (x : Tile) (n : Nat) (v : Reg 32) : (x.setLatch n v).rs = x.rs := rfl
@[simp] theorem setLatch_sr (x : Tile) (n : Nat) (v : Reg 32) : (x.setLatch n v).sr = x.sr := rfl
@[simp] theorem setLatch_tcyc (x : Tile) (n : Nat) (v : Reg 32) : (x.setLatch n v).tcyc = x.tcyc := rfl
@[simp] theorem setLatch_fq (x : Tile) (n : Nat) (v : Reg 32) : (x.setLatch n v).fq = x.fq := rfl
@[simp] theorem setLatch_branch (x : Tile) (n : Nat) (v : Reg 32) : (x.setLatch n v).branch = x.branch := rfl
@[simp] theorem setLatch_rpt (x : Tile) (n : Nat) (v : Reg 32) : (x.setLatch n v).rpt = x.rpt := rfl
@[simp] theorem setLatch_yc (x : Tile) (n : Nat) (v : Reg 32) : (x.setLatch n v).yc = x.yc := rfl
@[simp] theorem setLatch_noBrk (x : Tile) (n : Nat) (v : Reg 32) : (x.setLatch n v).noBrk = x.noBrk := rfl
@[simp] theorem setLatch_brkAt (x : Tile) (n : Nat) (v : Reg 32) : (x.setLatch n v).brkAt = x.brkAt := rfl
@[simp] theorem setLatch_syncRest (x : Tile) (n : Nat) (v : Reg 32) : (x.setLatch n v).syncRest = x.syncRest := rfl
@[simp] theorem setLatch_atYield (x : Tile) (n : Nat) (v : Reg 32) : (x.setLatch n v).atYield = x.atYield := rfl
@[simp] theorem setLatch_rclk (x : Tile) (n : Nat) (v : Reg 32) : (x.setLatch n v).rclk = x.rclk := rfl
@[simp] theorem setLatch_inflight (x : Tile) (n : Nat) (v : Reg 32) : (x.setLatch n v).inflight = x.inflight := rfl
@[simp] theorem setLatch_snapshot (x : Tile) (n : Nat) (v : Reg 32) : (x.setLatch n v).snapshot = x.snapshot := rfl
@[simp] theorem setLatch_snapRpt (x : Tile) (n : Nat) (v : Reg 32) : (x.setLatch n v).snapRpt = x.snapRpt := rfl
@[simp] theorem setLatch_oplog (x : Tile) (n : Nat) (v : Reg 32) : (x.setLatch n v).oplog = x.oplog := rfl
@[simp] theorem setLatch_logTraps (x : Tile) (n : Nat) (v : Reg 32) : (x.setLatch n v).logTraps = x.logTraps := rfl
@[simp] theorem setLatch_trapDue (x : Tile) (n : Nat) (v : Reg 32) : (x.setLatch n v).trapDue = x.trapDue := rfl
@[simp] theorem setLatch_heldX (x : Tile) (n : Nat) (v : Reg 32) : (x.setLatch n v).heldX = x.heldX := rfl
@[simp] theorem setLatch_dueF (x : Tile) (n : Nat) (v : Reg 32) : (x.setLatch n v).dueF = x.dueF := rfl
@[simp] theorem setLatch_heldF (x : Tile) (n : Nat) (v : Reg 32) : (x.setLatch n v).heldF = x.heldF := rfl
@[simp] theorem setLatch_heldT (x : Tile) (n : Nat) (v : Reg 32) : (x.setLatch n v).heldT = x.heldT := rfl
@[simp] theorem setLatch_trapFt (x : Tile) (n : Nat) (v : Reg 32) : (x.setLatch n v).trapFt = x.trapFt := rfl
@[simp] theorem setLatch_stDue (x : Tile) (n : Nat) (v : Reg 32) : (x.setLatch n v).stDue = x.stDue := rfl
@[simp] theorem setLatch_mxNow (x : Tile) (n : Nat) (v : Reg 32) : (x.setLatch n v).mxNow = x.mxNow := rfl
@[simp] theorem setLatch_mDue (x : Tile) (n : Nat) (v : Reg 32) : (x.setLatch n v).mDue = x.mDue := rfl
@[simp] theorem setLatch_gaveUp (x : Tile) (n : Nat) (v : Reg 32) : (x.setLatch n v).gaveUp = x.gaveUp := rfl
@[simp] theorem setLatch_preempt (x : Tile) (n : Nat) (v : Reg 32) : (x.setLatch n v).preempt = x.preempt := rfl
@[simp] theorem setLatch_ceded (x : Tile) (n : Nat) (v : Reg 32) : (x.setLatch n v).ceded = x.ceded := rfl
@[simp] theorem setLatch_pad (x : Tile) (n : Nat) (v : Reg 32) : (x.setLatch n v).pad = x.pad := rfl
@[simp] theorem setLatch_tags (x : Tile) (n : Nat) (v : Reg 32) : (x.setLatch n v).tags = x.tags := rfl
@[simp] theorem setLatch_tagNew (x : Tile) (n : Nat) (v : Reg 32) : (x.setLatch n v).tagNew = x.tagNew := rfl
@[simp] theorem setLatch_pend (x : Tile) (n : Nat) (v : Reg 32) : (x.setLatch n v).pend = x.pend := rfl
@[simp] theorem setLatch_late (x : Tile) (n : Nat) (v : Reg 32) : (x.setLatch n v).late = x.late := rfl
@[simp] theorem setLatch_resv (x : Tile) (n : Nat) (v : Reg 32) : (x.setLatch n v).resv = x.resv := rfl
@[simp] theorem setLatch_l1 (x : Tile) (n : Nat) (v : Reg 32) : (x.setLatch n v).l1 = x.l1 := rfl
@[simp] theorem setLatch_plru (x : Tile) (n : Nat) (v : Reg 32) : (x.setLatch n v).plru = x.plru := rfl
@[simp] theorem setLatch_fills (x : Tile) (n : Nat) (v : Reg 32) : (x.setLatch n v).fills = x.fills := rfl
@[simp] theorem setLatch_acqAt (x : Tile) (n : Nat) (v : Reg 32) : (x.setLatch n v).acqAt = x.acqAt := rfl
@[simp] theorem setLatch_utlb (x : Tile) (n : Nat) (v : Reg 32) : (x.setLatch n v).utlb = x.utlb := rfl
@[simp] theorem setLatch_fbuf (x : Tile) (n : Nat) (v : Reg 32) : (x.setLatch n v).fbuf = x.fbuf := rfl
@[simp] theorem setLatch_handles (x : Tile) (n : Nat) (v : Reg 32) : (x.setLatch n v).handles = x.handles := rfl
@[simp] theorem setLatch_hseen (x : Tile) (n : Nat) (v : Reg 32) : (x.setLatch n v).hseen = x.hseen := rfl
@[simp] theorem setLatch_ce (x : Tile) (n : Nat) (v : Reg 32) : (x.setLatch n v).ce = x.ce := rfl
@[simp] theorem setLatch_copies (x : Tile) (n : Nat) (v : Reg 32) : (x.setLatch n v).copies = x.copies := rfl
@[simp] theorem setLatch_mclk (x : Tile) (n : Nat) (v : Reg 32) : (x.setLatch n v).mclk = x.mclk := rfl
@[simp] theorem setLatch_mheld (x : Tile) (n : Nat) (v : Reg 32) : (x.setLatch n v).mheld = x.mheld := rfl
@[simp] theorem setLatch_mq (x : Tile) (n : Nat) (v : Reg 32) : (x.setLatch n v).mq = x.mq := rfl
@[simp] theorem setLatch_w (x : Tile) (n : Nat) (v : Reg 32) : (x.setLatch n v).w = x.w := rfl
@[simp] theorem setLatch_mxAt (x : Tile) (n : Nat) (v : Reg 32) : (x.setLatch n v).mxAt = x.mxAt := rfl
@[simp] theorem setLatch_mxBusy (x : Tile) (n : Nat) (v : Reg 32) : (x.setLatch n v).mxBusy = x.mxBusy := rfl
@[simp] theorem setLatch_susp (x : Tile) (n : Nat) (v : Reg 32) : (x.setLatch n v).susp = x.susp := rfl
@[simp] theorem setLatch_claim (x : Tile) (n : Nat) (v : Reg 32) : (x.setLatch n v).claim = x.claim := rfl

/-! ## `Tile.setAcc` -/

@[simp] theorem setAcc_task (x : Tile) (n : Nat) (v : Reg 64) : (x.setAcc n v).task = x.task := rfl
@[simp] theorem setAcc_run (x : Tile) (n : Nat) (v : Reg 64) : (x.setAcc n v).run = x.run := rfl
@[simp] theorem setAcc_frozen (x : Tile) (n : Nat) (v : Reg 64) : (x.setAcc n v).frozen = x.frozen := rfl
@[simp] theorem setAcc_throttled (x : Tile) (n : Nat) (v : Reg 64) : (x.setAcc n v).throttled = x.throttled := rfl
@[simp] theorem setAcc_issued (x : Tile) (n : Nat) (v : Reg 64) : (x.setAcc n v).issued = x.issued := rfl
@[simp] theorem setAcc_s (x : Tile) (n : Nat) (v : Reg 64) : (x.setAcc n v).s = x.s := rfl
@[simp] theorem setAcc_p (x : Tile) (n : Nat) (v : Reg 64) : (x.setAcc n v).p = x.p := rfl
@[simp] theorem setAcc_v (x : Tile) (n : Nat) (v : Reg 64) : (x.setAcc n v).v = x.v := rfl
@[simp] theorem setAcc_q (x : Tile) (n : Nat) (v : Reg 64) : (x.setAcc n v).q = x.q := rfl
@[simp] theorem setAcc_rs (x : Tile) (n : Nat) (v : Reg 64) : (x.setAcc n v).rs = x.rs := rfl
@[simp] theorem setAcc_sr (x : Tile) (n : Nat) (v : Reg 64) : (x.setAcc n v).sr = x.sr := rfl
@[simp] theorem setAcc_tcyc (x : Tile) (n : Nat) (v : Reg 64) : (x.setAcc n v).tcyc = x.tcyc := rfl
@[simp] theorem setAcc_fq (x : Tile) (n : Nat) (v : Reg 64) : (x.setAcc n v).fq = x.fq := rfl
@[simp] theorem setAcc_branch (x : Tile) (n : Nat) (v : Reg 64) : (x.setAcc n v).branch = x.branch := rfl
@[simp] theorem setAcc_rpt (x : Tile) (n : Nat) (v : Reg 64) : (x.setAcc n v).rpt = x.rpt := rfl
@[simp] theorem setAcc_yc (x : Tile) (n : Nat) (v : Reg 64) : (x.setAcc n v).yc = x.yc := rfl
@[simp] theorem setAcc_noBrk (x : Tile) (n : Nat) (v : Reg 64) : (x.setAcc n v).noBrk = x.noBrk := rfl
@[simp] theorem setAcc_brkAt (x : Tile) (n : Nat) (v : Reg 64) : (x.setAcc n v).brkAt = x.brkAt := rfl
@[simp] theorem setAcc_syncRest (x : Tile) (n : Nat) (v : Reg 64) : (x.setAcc n v).syncRest = x.syncRest := rfl
@[simp] theorem setAcc_atYield (x : Tile) (n : Nat) (v : Reg 64) : (x.setAcc n v).atYield = x.atYield := rfl
@[simp] theorem setAcc_rclk (x : Tile) (n : Nat) (v : Reg 64) : (x.setAcc n v).rclk = x.rclk := rfl
@[simp] theorem setAcc_inflight (x : Tile) (n : Nat) (v : Reg 64) : (x.setAcc n v).inflight = x.inflight := rfl
@[simp] theorem setAcc_snapshot (x : Tile) (n : Nat) (v : Reg 64) : (x.setAcc n v).snapshot = x.snapshot := rfl
@[simp] theorem setAcc_snapRpt (x : Tile) (n : Nat) (v : Reg 64) : (x.setAcc n v).snapRpt = x.snapRpt := rfl
@[simp] theorem setAcc_oplog (x : Tile) (n : Nat) (v : Reg 64) : (x.setAcc n v).oplog = x.oplog := rfl
@[simp] theorem setAcc_logTraps (x : Tile) (n : Nat) (v : Reg 64) : (x.setAcc n v).logTraps = x.logTraps := rfl
@[simp] theorem setAcc_trapDue (x : Tile) (n : Nat) (v : Reg 64) : (x.setAcc n v).trapDue = x.trapDue := rfl
@[simp] theorem setAcc_heldX (x : Tile) (n : Nat) (v : Reg 64) : (x.setAcc n v).heldX = x.heldX := rfl
@[simp] theorem setAcc_dueF (x : Tile) (n : Nat) (v : Reg 64) : (x.setAcc n v).dueF = x.dueF := rfl
@[simp] theorem setAcc_heldF (x : Tile) (n : Nat) (v : Reg 64) : (x.setAcc n v).heldF = x.heldF := rfl
@[simp] theorem setAcc_heldT (x : Tile) (n : Nat) (v : Reg 64) : (x.setAcc n v).heldT = x.heldT := rfl
@[simp] theorem setAcc_trapFt (x : Tile) (n : Nat) (v : Reg 64) : (x.setAcc n v).trapFt = x.trapFt := rfl
@[simp] theorem setAcc_stDue (x : Tile) (n : Nat) (v : Reg 64) : (x.setAcc n v).stDue = x.stDue := rfl
@[simp] theorem setAcc_mxNow (x : Tile) (n : Nat) (v : Reg 64) : (x.setAcc n v).mxNow = x.mxNow := rfl
@[simp] theorem setAcc_mDue (x : Tile) (n : Nat) (v : Reg 64) : (x.setAcc n v).mDue = x.mDue := rfl
@[simp] theorem setAcc_gaveUp (x : Tile) (n : Nat) (v : Reg 64) : (x.setAcc n v).gaveUp = x.gaveUp := rfl
@[simp] theorem setAcc_preempt (x : Tile) (n : Nat) (v : Reg 64) : (x.setAcc n v).preempt = x.preempt := rfl
@[simp] theorem setAcc_ceded (x : Tile) (n : Nat) (v : Reg 64) : (x.setAcc n v).ceded = x.ceded := rfl
@[simp] theorem setAcc_pad (x : Tile) (n : Nat) (v : Reg 64) : (x.setAcc n v).pad = x.pad := rfl
@[simp] theorem setAcc_tags (x : Tile) (n : Nat) (v : Reg 64) : (x.setAcc n v).tags = x.tags := rfl
@[simp] theorem setAcc_tagNew (x : Tile) (n : Nat) (v : Reg 64) : (x.setAcc n v).tagNew = x.tagNew := rfl
@[simp] theorem setAcc_pend (x : Tile) (n : Nat) (v : Reg 64) : (x.setAcc n v).pend = x.pend := rfl
@[simp] theorem setAcc_late (x : Tile) (n : Nat) (v : Reg 64) : (x.setAcc n v).late = x.late := rfl
@[simp] theorem setAcc_resv (x : Tile) (n : Nat) (v : Reg 64) : (x.setAcc n v).resv = x.resv := rfl
@[simp] theorem setAcc_l1 (x : Tile) (n : Nat) (v : Reg 64) : (x.setAcc n v).l1 = x.l1 := rfl
@[simp] theorem setAcc_plru (x : Tile) (n : Nat) (v : Reg 64) : (x.setAcc n v).plru = x.plru := rfl
@[simp] theorem setAcc_fills (x : Tile) (n : Nat) (v : Reg 64) : (x.setAcc n v).fills = x.fills := rfl
@[simp] theorem setAcc_acqAt (x : Tile) (n : Nat) (v : Reg 64) : (x.setAcc n v).acqAt = x.acqAt := rfl
@[simp] theorem setAcc_utlb (x : Tile) (n : Nat) (v : Reg 64) : (x.setAcc n v).utlb = x.utlb := rfl
@[simp] theorem setAcc_fbuf (x : Tile) (n : Nat) (v : Reg 64) : (x.setAcc n v).fbuf = x.fbuf := rfl
@[simp] theorem setAcc_handles (x : Tile) (n : Nat) (v : Reg 64) : (x.setAcc n v).handles = x.handles := rfl
@[simp] theorem setAcc_hseen (x : Tile) (n : Nat) (v : Reg 64) : (x.setAcc n v).hseen = x.hseen := rfl
@[simp] theorem setAcc_ce (x : Tile) (n : Nat) (v : Reg 64) : (x.setAcc n v).ce = x.ce := rfl
@[simp] theorem setAcc_copies (x : Tile) (n : Nat) (v : Reg 64) : (x.setAcc n v).copies = x.copies := rfl
@[simp] theorem setAcc_mclk (x : Tile) (n : Nat) (v : Reg 64) : (x.setAcc n v).mclk = x.mclk := rfl
@[simp] theorem setAcc_mheld (x : Tile) (n : Nat) (v : Reg 64) : (x.setAcc n v).mheld = x.mheld := rfl
@[simp] theorem setAcc_mq (x : Tile) (n : Nat) (v : Reg 64) : (x.setAcc n v).mq = x.mq := rfl
@[simp] theorem setAcc_w (x : Tile) (n : Nat) (v : Reg 64) : (x.setAcc n v).w = x.w := rfl
@[simp] theorem setAcc_mxAt (x : Tile) (n : Nat) (v : Reg 64) : (x.setAcc n v).mxAt = x.mxAt := rfl
@[simp] theorem setAcc_mxBusy (x : Tile) (n : Nat) (v : Reg 64) : (x.setAcc n v).mxBusy = x.mxBusy := rfl
@[simp] theorem setAcc_susp (x : Tile) (n : Nat) (v : Reg 64) : (x.setAcc n v).susp = x.susp := rfl
@[simp] theorem setAcc_claim (x : Tile) (n : Nat) (v : Reg 64) : (x.setAcc n v).claim = x.claim := rfl

/-! ## `Tile.addLanding` -/

@[simp] theorem addLanding_task (x : Tile) (l : Landing) : (x.addLanding l).task = x.task := rfl
@[simp] theorem addLanding_run (x : Tile) (l : Landing) : (x.addLanding l).run = x.run := rfl
@[simp] theorem addLanding_frozen (x : Tile) (l : Landing) : (x.addLanding l).frozen = x.frozen := rfl
@[simp] theorem addLanding_throttled (x : Tile) (l : Landing) : (x.addLanding l).throttled = x.throttled := rfl
@[simp] theorem addLanding_issued (x : Tile) (l : Landing) : (x.addLanding l).issued = x.issued := rfl
@[simp] theorem addLanding_s (x : Tile) (l : Landing) : (x.addLanding l).s = x.s := rfl
@[simp] theorem addLanding_p (x : Tile) (l : Landing) : (x.addLanding l).p = x.p := rfl
@[simp] theorem addLanding_v (x : Tile) (l : Landing) : (x.addLanding l).v = x.v := rfl
@[simp] theorem addLanding_q (x : Tile) (l : Landing) : (x.addLanding l).q = x.q := rfl
@[simp] theorem addLanding_z (x : Tile) (l : Landing) : (x.addLanding l).z = x.z := rfl
@[simp] theorem addLanding_rs (x : Tile) (l : Landing) : (x.addLanding l).rs = x.rs := rfl
@[simp] theorem addLanding_sr (x : Tile) (l : Landing) : (x.addLanding l).sr = x.sr := rfl
@[simp] theorem addLanding_tcyc (x : Tile) (l : Landing) : (x.addLanding l).tcyc = x.tcyc := rfl
@[simp] theorem addLanding_fq (x : Tile) (l : Landing) : (x.addLanding l).fq = x.fq := rfl
@[simp] theorem addLanding_branch (x : Tile) (l : Landing) : (x.addLanding l).branch = x.branch := rfl
@[simp] theorem addLanding_rpt (x : Tile) (l : Landing) : (x.addLanding l).rpt = x.rpt := rfl
@[simp] theorem addLanding_yc (x : Tile) (l : Landing) : (x.addLanding l).yc = x.yc := rfl
@[simp] theorem addLanding_noBrk (x : Tile) (l : Landing) : (x.addLanding l).noBrk = x.noBrk := rfl
@[simp] theorem addLanding_brkAt (x : Tile) (l : Landing) : (x.addLanding l).brkAt = x.brkAt := rfl
@[simp] theorem addLanding_syncRest (x : Tile) (l : Landing) : (x.addLanding l).syncRest = x.syncRest := rfl
@[simp] theorem addLanding_atYield (x : Tile) (l : Landing) : (x.addLanding l).atYield = x.atYield := rfl
@[simp] theorem addLanding_rclk (x : Tile) (l : Landing) : (x.addLanding l).rclk = x.rclk := rfl
@[simp] theorem addLanding_snapshot (x : Tile) (l : Landing) : (x.addLanding l).snapshot = x.snapshot := rfl
@[simp] theorem addLanding_snapRpt (x : Tile) (l : Landing) : (x.addLanding l).snapRpt = x.snapRpt := rfl
@[simp] theorem addLanding_oplog (x : Tile) (l : Landing) : (x.addLanding l).oplog = x.oplog := rfl
@[simp] theorem addLanding_logTraps (x : Tile) (l : Landing) : (x.addLanding l).logTraps = x.logTraps := rfl
@[simp] theorem addLanding_trapDue (x : Tile) (l : Landing) : (x.addLanding l).trapDue = x.trapDue := rfl
@[simp] theorem addLanding_heldX (x : Tile) (l : Landing) : (x.addLanding l).heldX = x.heldX := rfl
@[simp] theorem addLanding_dueF (x : Tile) (l : Landing) : (x.addLanding l).dueF = x.dueF := rfl
@[simp] theorem addLanding_heldF (x : Tile) (l : Landing) : (x.addLanding l).heldF = x.heldF := rfl
@[simp] theorem addLanding_heldT (x : Tile) (l : Landing) : (x.addLanding l).heldT = x.heldT := rfl
@[simp] theorem addLanding_trapFt (x : Tile) (l : Landing) : (x.addLanding l).trapFt = x.trapFt := rfl
@[simp] theorem addLanding_stDue (x : Tile) (l : Landing) : (x.addLanding l).stDue = x.stDue := rfl
@[simp] theorem addLanding_mxNow (x : Tile) (l : Landing) : (x.addLanding l).mxNow = x.mxNow := rfl
@[simp] theorem addLanding_mDue (x : Tile) (l : Landing) : (x.addLanding l).mDue = x.mDue := rfl
@[simp] theorem addLanding_gaveUp (x : Tile) (l : Landing) : (x.addLanding l).gaveUp = x.gaveUp := rfl
@[simp] theorem addLanding_preempt (x : Tile) (l : Landing) : (x.addLanding l).preempt = x.preempt := rfl
@[simp] theorem addLanding_ceded (x : Tile) (l : Landing) : (x.addLanding l).ceded = x.ceded := rfl
@[simp] theorem addLanding_pad (x : Tile) (l : Landing) : (x.addLanding l).pad = x.pad := rfl
@[simp] theorem addLanding_tags (x : Tile) (l : Landing) : (x.addLanding l).tags = x.tags := rfl
@[simp] theorem addLanding_tagNew (x : Tile) (l : Landing) : (x.addLanding l).tagNew = x.tagNew := rfl
@[simp] theorem addLanding_pend (x : Tile) (l : Landing) : (x.addLanding l).pend = x.pend := rfl
@[simp] theorem addLanding_late (x : Tile) (l : Landing) : (x.addLanding l).late = x.late := rfl
@[simp] theorem addLanding_resv (x : Tile) (l : Landing) : (x.addLanding l).resv = x.resv := rfl
@[simp] theorem addLanding_l1 (x : Tile) (l : Landing) : (x.addLanding l).l1 = x.l1 := rfl
@[simp] theorem addLanding_plru (x : Tile) (l : Landing) : (x.addLanding l).plru = x.plru := rfl
@[simp] theorem addLanding_fills (x : Tile) (l : Landing) : (x.addLanding l).fills = x.fills := rfl
@[simp] theorem addLanding_acqAt (x : Tile) (l : Landing) : (x.addLanding l).acqAt = x.acqAt := rfl
@[simp] theorem addLanding_utlb (x : Tile) (l : Landing) : (x.addLanding l).utlb = x.utlb := rfl
@[simp] theorem addLanding_fbuf (x : Tile) (l : Landing) : (x.addLanding l).fbuf = x.fbuf := rfl
@[simp] theorem addLanding_handles (x : Tile) (l : Landing) : (x.addLanding l).handles = x.handles := rfl
@[simp] theorem addLanding_hseen (x : Tile) (l : Landing) : (x.addLanding l).hseen = x.hseen := rfl
@[simp] theorem addLanding_ce (x : Tile) (l : Landing) : (x.addLanding l).ce = x.ce := rfl
@[simp] theorem addLanding_copies (x : Tile) (l : Landing) : (x.addLanding l).copies = x.copies := rfl
@[simp] theorem addLanding_mclk (x : Tile) (l : Landing) : (x.addLanding l).mclk = x.mclk := rfl
@[simp] theorem addLanding_mheld (x : Tile) (l : Landing) : (x.addLanding l).mheld = x.mheld := rfl
@[simp] theorem addLanding_mq (x : Tile) (l : Landing) : (x.addLanding l).mq = x.mq := rfl
@[simp] theorem addLanding_w (x : Tile) (l : Landing) : (x.addLanding l).w = x.w := rfl
@[simp] theorem addLanding_mxAt (x : Tile) (l : Landing) : (x.addLanding l).mxAt = x.mxAt := rfl
@[simp] theorem addLanding_mxBusy (x : Tile) (l : Landing) : (x.addLanding l).mxBusy = x.mxBusy := rfl
@[simp] theorem addLanding_susp (x : Tile) (l : Landing) : (x.addLanding l).susp = x.susp := rfl
@[simp] theorem addLanding_claim (x : Tile) (l : Landing) : (x.addLanding l).claim = x.claim := rfl

@[simp] theorem addLanding_inflight (x : Tile) (l : Landing) : (x.addLanding l).inflight = x.inflight ++ [l] := rfl

end Sys2Proof.Machine
end

