-- ==== Sys2Proof/Laws/Issue.lean ====
section
/-! SUPPORT. What issuing one slot can do: it raises a fault, does nothing, freezes, or acts; and it always answers a next state. -/

namespace Sys2Proof.Machine

@[simp] theorem pickFault_nil : pickFault [] = none := rfl

theorem pickFault_none_iff (l : List Flt) : pickFault l = none ↔ l = [] := by
  cases l with
  | nil => simp
  | cons f l =>
    simp only [pickFault]
    cases pickFault l with
    | none => simp
    | some g => by_cases h : g.1 < f.1 <;> simp [h]

theorem pickFault_mem (l : List Flt) (f : Flt) (h : pickFault l = some f) : f ∈ l := by
  induction l generalizing f with
  | nil => cases h
  | cons a l ih =>
    simp only [pickFault] at h
    split at h
    · cases h; simp
    · rename_i g hg
      split at h
      · cases h; exact List.mem_cons_of_mem _ (ih _ hg)
      · cases h; simp

/-- The chosen fault has the lowest rank. -/
theorem pickFault_le (l : List Flt) (f : Flt) (h : pickFault l = some f) : ∀ g ∈ l, f.1 ≤ g.1 := by
  induction l generalizing f with
  | nil => cases h
  | cons a l ih =>
    intro g hg
    simp only [pickFault] at h
    split at h
    · rename_i hn
      have hl := (pickFault_none_iff l).mp hn
      subst hl
      cases h
      simp at hg
      simp [hg]
    · rename_i k hk
      have := ih k hk
      split at h
      · rename_i hlt
        cases h
        rcases List.mem_cons.mp hg with rfl | hg
        · omega
        · exact this g hg
      · rename_i hge
        cases h
        rcases List.mem_cons.mp hg with rfl | hg
        · exact Nat.le_refl _
        · have := this g hg
          omega

/-- An instruction without encoding conditions whose condition holds, with no fault and no wait, acts. -/
theorem issueSlot_acts (s : State) (i : Instr) (dyn : List EncErr) (faults : List Flt) (act : State)
    (he : EncErr.first (staticErrs i ++ dyn) = none) (hf : faults = []) :
    s.issueSlot i dyn true faults none act = .next (act.note .acted) := by
  simp [State.issueSlot, State.issueFix, he, hf, State.acted]

/-- An instruction whose condition is false does nothing, whatever its operands hold (R124). -/
theorem issueSlot_idle (s : State) (i : Instr) (dyn : List EncErr) (faults : List Flt) (wait : Option (Wait × State)) (act : State)
    (he : EncErr.first (staticErrs i ++ dyn) = none) :
    s.issueSlot i dyn false faults wait act = .next (s.note .acted) := by
  simp [State.issueSlot, State.issueFix, he, State.acted]

/-- An encoding condition is reported before anything else (R131, R413). -/
theorem issueSlot_encoding (s : State) (i : Instr) (dyn : List EncErr) (cond : Bool) (faults : List Flt) (wait : Option (Wait × State))
    (act : State) (e : EncErr) (he : EncErr.first (staticErrs i ++ dyn) = some e) :
    s.issueSlot i dyn cond faults wait act = .next (s.raise (s.tile.encTrap e)) := by
  simp [State.issueSlot, State.issueFix, he, State.raised]

/-- Of the faults of an instruction whose condition holds, the one of lowest rank is raised. -/
theorem issueSlot_faults (s : State) (i : Instr) (dyn : List EncErr) (faults : List Flt) (wait : Option (Wait × State)) (act : State)
    (f : Flt) (he : EncErr.first (staticErrs i ++ dyn) = none) (hf : pickFault faults = some f) :
    s.issueSlot i dyn true faults wait act = .next (s.raise f) := by
  simp [State.issueSlot, State.issueFix, he, hf, State.raised]

/-- Everything that issuing one slot can do. -/
theorem issueSlot_cases (s t : State) (i : Instr) (dyn : List EncErr) (cond : Bool) (faults : List Flt) (wait : Option (Wait × State))
    (act : State) (h : s.issueSlot i dyn cond faults wait act = .next t) :
    (∃ e, EncErr.first (staticErrs i ++ dyn) = some e ∧ t = s.raise (s.tile.encTrap e)) ∨
    (EncErr.first (staticErrs i ++ dyn) = none ∧ cond = false ∧ t = s.note .acted) ∨
    (EncErr.first (staticErrs i ++ dyn) = none ∧ cond = true ∧ ∃ f, pickFault faults = some f ∧ t = s.raise f) ∨
    (EncErr.first (staticErrs i ++ dyn) = none ∧ cond = true ∧ faults = [] ∧ ∃ w s', wait = some (w, s') ∧ t = s'.freeze w) ∨
    (EncErr.first (staticErrs i ++ dyn) = none ∧ cond = true ∧ faults = [] ∧ wait = none ∧ t = act.note .acted) := by
  unfold State.issueSlot State.issueFix at h
  split at h
  · rename_i e he
    cases h
    exact .inl ⟨e, he, rfl⟩
  · rename_i he
    split at h
    · rename_i hc
      split at h
      · rename_i f hf
        cases h
        exact .inr (.inr (.inl ⟨he, hc, f, hf, rfl⟩))
      · rename_i hf
        have hf := (pickFault_none_iff faults).mp hf
        split at h
        · cases h
          exact .inr (.inr (.inr (.inl ⟨he, hc, hf, _, _, rfl, rfl⟩)))
        · cases h
          exact .inr (.inr (.inr (.inr ⟨he, hc, hf, rfl, rfl⟩)))
    · rename_i hc
      cases h
      exact .inr (.inl ⟨he, by simpa using hc, rfl⟩)

/-- Issuing one slot answers a next state, whatever it does. -/
theorem issueFix_next (s : State) (i : Instr) (dyn : List EncErr) (cond : Bool) (faults : List Flt) (fix : Flt → State)
    (wait : Option (Wait × State)) (act : State) : ∃ t, s.issueFix i dyn cond faults fix wait act = .next t := by
  unfold State.issueFix
  split
  · exact ⟨_, rfl⟩
  · split
    · split
      · exact ⟨_, rfl⟩
      · split
        · exact ⟨_, rfl⟩
        · exact ⟨_, rfl⟩
    · exact ⟨_, rfl⟩

end Sys2Proof.Machine
end

