-- ==== Sys2Proof/Laws/SMap.lean ====
section
/-! SUPPORT. Finite maps: reading after a write, and the canonical form that every write keeps. -/

namespace Sys2Proof

/-- The canonical form of a map with default `d`: keys strictly rising, no entry equal to the default. -/
abbrev SMap.Wf {α : Type} (d : α) (m : SMap α) : Prop := m.Pairwise (fun a b => a.1 < b.1) ∧ ∀ c ∈ m, c.2 ≠ d

theorem SMap.get_absent {α : Type} (d : α) (k : Nat) (m : SMap α) (h : ∀ e ∈ m, e.1 ≠ k) : SMap.get d k m = d := by
  induction m with
  | nil => rfl
  | cons e m ih =>
    have h1 := h e (by simp)
    rw [SMap.get, if_neg h1, ih (fun x hx => h x (by simp [hx]))]

theorem SMap.get_ins_same {α : Type} (d : α) (k : Nat) (v : α) (m : SMap α) (h : ∀ e ∈ m, e.1 ≠ k) :
    SMap.get d k (SMap.ins k v m) = v := by
  induction m with
  | nil => simp [SMap.ins, SMap.get]
  | cons e m ih =>
    have h1 := h e (by simp)
    unfold SMap.ins
    split
    · simp [SMap.get]
    · rw [SMap.get, if_neg h1, ih (fun x hx => h x (by simp [hx]))]

theorem SMap.get_ins_other {α : Type} (d : α) (k j : Nat) (v : α) (m : SMap α) (h : j ≠ k) :
    SMap.get d j (SMap.ins k v m) = SMap.get d j m := by
  induction m with
  | nil => simp [SMap.ins, SMap.get, h.symm]
  | cons e m ih =>
    unfold SMap.ins
    split
    · simp [SMap.get, h.symm]
    · simp only [SMap.get, ih]

theorem SMap.get_del_other {α : Type} (d : α) (k j : Nat) (m : SMap α) (h : j ≠ k) :
    SMap.get d j (SMap.del k m) = SMap.get d j m := by
  induction m with
  | nil => rfl
  | cons e m ih =>
    unfold SMap.del at ih ⊢
    by_cases he : e.1 = k
    · have hj : ¬ e.1 = j := by omega
      rw [List.filter_cons_of_neg (by simpa using he), ih, SMap.get, if_neg hj]
    · rw [List.filter_cons_of_pos (by simpa using he), SMap.get, SMap.get, ih]

theorem SMap.del_absent {α : Type} (k : Nat) (m : SMap α) : ∀ e ∈ SMap.del k m, e.1 ≠ k := by
  intro e he
  simpa using (List.mem_filter.mp he).2

/-- Reading the key just set gives the value. -/
theorem SMap.get_set_same {α : Type} [DecidableEq α] (d : α) (k : Nat) (v : α) (m : SMap α) :
    SMap.get d k (SMap.set d k v m) = v := by
  unfold SMap.set
  split
  · rename_i h
    rw [SMap.get_absent d k _ (SMap.del_absent k m), h]
  · exact SMap.get_ins_same d k v _ (SMap.del_absent k m)

/-- Setting a key leaves every other key. -/
theorem SMap.get_set_other {α : Type} [DecidableEq α] (d : α) (k j : Nat) (v : α) (m : SMap α) (h : j ≠ k) :
    SMap.get d j (SMap.set d k v m) = SMap.get d j m := by
  unfold SMap.set
  split
  · exact SMap.get_del_other d k j m h
  · rw [SMap.get_ins_other d k j v _ h, SMap.get_del_other d k j m h]

/-- Reading after a write, at any key. -/
theorem SMap.get_set {α : Type} [DecidableEq α] (d : α) (k j : Nat) (v : α) (m : SMap α) :
    SMap.get d j (SMap.set d k v m) = if j = k then v else SMap.get d j m := by
  split
  · rename_i h
    rw [h, SMap.get_set_same]
  · rename_i h
    exact SMap.get_set_other d k j v m h

theorem SMap.mem_ins {α : Type} (k : Nat) (v : α) (m : SMap α) : ∀ e, e ∈ SMap.ins k v m ↔ e = (k, v) ∨ e ∈ m := by
  induction m with
  | nil => simp [SMap.ins]
  | cons a m ih =>
    intro e
    unfold SMap.ins
    split
    · simp
    · simp only [List.mem_cons, ih]
      tauto

theorem SMap.ins_rising {α : Type} (k : Nat) (v : α) (m : SMap α) (h : m.Pairwise (fun a b => a.1 < b.1))
    (hk : ∀ e ∈ m, e.1 ≠ k) : (SMap.ins k v m).Pairwise (fun a b => a.1 < b.1) := by
  induction m with
  | nil => simp [SMap.ins]
  | cons a m ih =>
    obtain ⟨h1, h2⟩ := List.pairwise_cons.mp h
    unfold SMap.ins
    split
    · rename_i hlt
      refine List.pairwise_cons.mpr ⟨fun e he => ?_, h⟩
      rcases List.mem_cons.mp he with rfl | he
      · exact hlt
      · exact lt_trans hlt (h1 e he)
    · rename_i hge
      have ha := hk a (by simp)
      refine List.pairwise_cons.mpr ⟨fun e he => ?_, ih h2 (fun e he => hk e (by simp [he]))⟩
      rcases (SMap.mem_ins k v m e).mp he with rfl | he
      · show a.1 < k
        omega
      · exact h1 e he

/-- A write keeps the canonical form. -/
theorem SMap.set_wf {α : Type} [DecidableEq α] (d : α) (k : Nat) (v : α) (m : SMap α) (h : SMap.Wf d m) :
    SMap.Wf d (SMap.set d k v m) := by
  have hd : (SMap.del k m).Pairwise (fun a b => a.1 < b.1) := h.1.sublist List.filter_sublist
  have hm : ∀ e ∈ SMap.del k m, e.2 ≠ d := fun e he => h.2 e (List.mem_of_mem_filter he)
  unfold SMap.set
  split
  · exact ⟨hd, hm⟩
  · rename_i hv
    refine ⟨SMap.ins_rising k v _ hd (SMap.del_absent k m), fun e he => ?_⟩
    rcases (SMap.mem_ins k v _ e).mp he with rfl | he
    · exact hv
    · exact hm e he

end Sys2Proof
end

