-- ==== Sys2Proof/Laws/Store.lean ====
section
/-! SUPPORT. The byte stores: reading after a write, and the canonical form that every memory operation keeps. -/

namespace Sys2Proof.Machine

theorem mem_cellsOf {a n v : Nat} {c : Host.Cell} (h : c ∈ cellsOf a n v) : a ≤ c.1 ∧ c.1 < a + n ∧ c.2 ≠ 0 := by
  simp only [cellsOf, List.mem_filterMap, List.mem_range] at h
  obtain ⟨i, hi, h⟩ := h
  split at h
  · cases h
  · rename_i hb
    cases h
    refine ⟨by simp, by simpa using hi, fun h0 => hb ?_⟩
    have h1 := congrArg BitVec.toNat h0
    have h2 : bits v (8 * i) 8 < 256 := by unfold bits; omega
    simpa [Nat.mod_eq_of_lt h2] using h1

theorem cellsOf_rising (a n v : Nat) : (cellsOf a n v).Pairwise (fun x y => x.1 < y.1) := by
  unfold cellsOf
  rw [List.pairwise_filterMap]
  refine List.pairwise_lt_range.imp ?_
  intro i j hij b hb b' hb'
  dsimp only at hb hb'
  split at hb
  · cases hb
  split at hb'
  · cases hb'
  cases hb
  cases hb'
  simpa using hij

/-- A write of bytes keeps the canonical form. -/
theorem writeCells_wf (m : List Host.Cell) (a n v : Nat) (h : CellsWf m) : CellsWf (writeCells m a n v) := by
  obtain ⟨hr, hz⟩ := h
  unfold writeCells
  constructor
  · refine List.pairwise_append.mpr ⟨List.pairwise_append.mpr ⟨hr.sublist List.filter_sublist, cellsOf_rising a n v, ?_⟩,
      hr.sublist List.filter_sublist, ?_⟩
    · intro x hx y hy
      have h1 : x.1 < a := by simpa using (List.mem_filter.mp hx).2
      have h2 := (mem_cellsOf hy).1
      omega
    · intro x hx y hy
      have h2 : a + n ≤ y.1 := by simpa using (List.mem_filter.mp hy).2
      rcases List.mem_append.mp hx with hx | hx
      · have h1 : x.1 < a := by simpa using (List.mem_filter.mp hx).2
        omega
      · have h1 := (mem_cellsOf hx).2.1
        omega
  · intro c hc
    rcases List.mem_append.mp hc with hc | hc
    · rcases List.mem_append.mp hc with hc | hc
      · exact hz c (List.mem_of_mem_filter hc)
      · exact (mem_cellsOf hc).2.2
    · exact hz c (List.mem_of_mem_filter hc)

/-- A granule set keeps `Memory.wf`. -/
theorem setGran_wf (m : Store) (g : Nat) (x : Gran) (h : Memory.wf m) : Memory.wf (m.setGran g x) :=
  ⟨writeCells_wf _ _ _ _ h.1, SMap.set_wf _ _ _ _ h.2⟩

/-- A granule write through the merging lane keeps `Memory.wf`. -/
theorem write_wf (m : Store) (w : GWrite) (h : Memory.wf m) : Memory.wf (m.write w) := by
  unfold Store.write
  split
  · exact h
  · exact setGran_wf _ _ _ h

/-- A list of granule writes keeps `Memory.wf`. -/
theorem writes_wf (ws : List GWrite) (m : Store) (h : Memory.wf m) : Memory.wf (m.writes ws) := by
  unfold Store.writes
  induction ws generalizing m with
  | nil => exact h
  | cons w ws ih => exact ih _ (write_wf m w h)

theorem empty_wf : Memory.wf Store.empty := by decide

/-! ## Reading after a write -/

theorem readCells_filter (m : List Host.Cell) (a n : Nat) :
    readCells m a n = (m.filter fun c => decide (a ≤ c.1 ∧ c.1 < a + n)).foldl (fun x c => x ||| (c.2.toNat <<< (8 * (c.1 - a)))) 0 := by
  unfold readCells
  rw [List.foldl_filter]
  simp

/-- Bytes outside a write read as before. -/
theorem readCells_other (m : List Host.Cell) (a n v b k : Nat) (h : b + k ≤ a ∨ a + n ≤ b) :
    readCells (writeCells m a n v) b k = readCells m b k := by
  rw [readCells_filter, readCells_filter]
  congr 1
  unfold writeCells
  rw [List.filter_append, List.filter_append, List.filter_filter, List.filter_filter]
  have hc : (cellsOf a n v).filter (fun c => decide (b ≤ c.1 ∧ c.1 < b + k)) = [] := by
    rw [List.filter_eq_nil_iff]
    intro c hc
    have := mem_cellsOf hc
    simp
    omega
  rw [hc]
  rcases h with h | h
  · have e1 : m.filter (fun c => decide (b ≤ c.1 ∧ c.1 < b + k) && decide (a + n ≤ c.1)) = [] := by
      rw [List.filter_eq_nil_iff]
      intro c _
      simp
      omega
    rw [e1, List.append_nil, List.append_nil]
    refine List.filter_congr fun c _ => ?_
    simp
    omega
  · have e1 : m.filter (fun c => decide (b ≤ c.1 ∧ c.1 < b + k) && decide (c.1 < a)) = [] := by
      rw [List.filter_eq_nil_iff]
      intro c _
      simp
      omega
    rw [e1, List.nil_append, List.nil_append]
    refine List.filter_congr fun c _ => ?_
    simp
    omega

theorem fold_cellsOf (a v n : Nat) :
    (cellsOf a n v).foldl (fun x c => x ||| (c.2.toNat <<< (8 * (c.1 - a)))) 0 = v % 2 ^ (8 * n) := by
  induction n with
  | zero => simp [cellsOf, Nat.mod_one]
  | succ n ih =>
    unfold cellsOf at ih ⊢
    rw [List.range_succ, List.filterMap_append, List.foldl_append, ih]
    have hb : bits v (8 * n) 8 < 256 := by unfold bits; omega
    have key : v % 2 ^ (8 * n) ||| bits v (8 * n) 8 <<< (8 * n) = v % 2 ^ (8 * (n + 1)) := by
      apply Nat.eq_of_testBit_eq
      intro i
      unfold bits
      simp only [Nat.testBit_or, Nat.testBit_mod_two_pow, Nat.testBit_shiftLeft, Nat.testBit_shiftRight]
      by_cases h1 : i < 8 * n
      · have h2 : i < 8 * (n + 1) := by omega
        simp [h1, h2]
      · by_cases h2 : i < 8 * (n + 1)
        · have h3 : i - 8 * n < 8 := by omega
          have h4 : 8 * n + (i - 8 * n) = i := by omega
          have h5 : 8 * n ≤ i := by omega
          simp [h1, h2, h3, h4, h5]
        · have h3 : ¬ i - 8 * n < 8 := by omega
          simp [h1, h2, h3]
    by_cases h0 : bits v (8 * n) 8 = 0
    · simp only [List.filterMap_cons, h0, if_true, List.filterMap_nil, List.foldl_nil]
      rw [← key, h0]
      simp
    · simp only [List.filterMap_cons, h0, if_false, List.filterMap_nil, List.foldl_cons, List.foldl_nil]
      rw [← key]
      simp [Nat.mod_eq_of_lt hb]

/-- A write reads back. -/
theorem readCells_same (m : List Host.Cell) (a n v : Nat) : readCells (writeCells m a n v) a n = v % 2 ^ (8 * n) := by
  rw [readCells_filter, ← fold_cellsOf a v n]
  congr 1
  unfold writeCells
  rw [List.filter_append, List.filter_append, List.filter_filter, List.filter_filter]
  have e1 : m.filter (fun c => decide (a ≤ c.1 ∧ c.1 < a + n) && decide (c.1 < a)) = [] := by
    rw [List.filter_eq_nil_iff]
    intro c _
    simp
    omega
  have e2 : m.filter (fun c => decide (a ≤ c.1 ∧ c.1 < a + n) && decide (a + n ≤ c.1)) = [] := by
    rw [List.filter_eq_nil_iff]
    intro c _
    simp
  rw [e1, e2, List.nil_append, List.append_nil, List.filter_eq_self]
  intro c hc
  have := mem_cellsOf hc
  simpa using ⟨this.1, this.2.1⟩

/-- A granule that has been set reads back, with its rind. -/
@[simp] theorem gran_setGran_same (m : Store) (g : Nat) (x : Gran) : (m.setGran g x).gran g = x := by
  obtain ⟨d, r⟩ := x
  unfold Store.gran Store.setGran
  rw [readCells_same, SMap.get_set_same]
  congr 1
  apply BitVec.eq_of_toNat_eq
  have h : d.toNat < 18446744073709551616 := d.isLt
  simpa using h

/-- Other granules are unchanged. -/
theorem gran_setGran_other (m : Store) (g k : Nat) (x : Gran) (h : k ≠ g) : (m.setGran g x).gran k = m.gran k := by
  unfold Store.gran Store.setGran
  rw [readCells_other _ _ _ _ _ _ (by omega), SMap.get_set_other _ _ _ _ _ h]

/-- What a granule write does to every granule. -/
theorem gran_write (m : Store) (w : GWrite) (k : Nat) :
    (m.write w).gran k = if k = w.g ∧ w.mask ≠ 0 then mergeGran (m.gran w.g) w else m.gran k := by
  unfold Store.write
  split
  · rename_i h
    simp [h]
  · rename_i h
    by_cases hk : k = w.g
    · subst hk
      rw [gran_setGran_same, if_pos ⟨rfl, h⟩]
    · rw [gran_setGran_other _ _ _ _ hk]
      simp [hk]

/-- Bytes outside a granule that is set read as before. -/
theorem byte_setGran_other (m : Store) (g a : Nat) (x : Gran) (h : a / 8 ≠ g) : (m.setGran g x).byte a = m.byte a := by
  unfold Store.byte Store.setGran
  rw [readCells_other _ _ _ _ _ _ (by omega)]

/-- Granules that no write of a list touches are unchanged. -/
theorem gran_writes_other (ws : List GWrite) (m : Store) (k : Nat) (h : ∀ w ∈ ws, w.g ≠ k) : (m.writes ws).gran k = m.gran k := by
  unfold Store.writes
  induction ws generalizing m with
  | nil => rfl
  | cons w ws ih =>
    rw [List.foldl_cons, ih _ (fun x hx => h x (by simp [hx])), gran_write]
    have := h w (by simp)
    rw [if_neg]
    omega

/-- Bytes in granules that no write of a list touches are unchanged. -/
theorem byte_writes_other (ws : List GWrite) (m : Store) (a : Nat) (h : ∀ w ∈ ws, w.g ≠ a / 8) : (m.writes ws).byte a = m.byte a := by
  unfold Store.writes
  induction ws generalizing m with
  | nil => rfl
  | cons w ws ih =>
    rw [List.foldl_cons, ih _ (fun x hx => h x (by simp [hx]))]
    have := h w (by simp)
    unfold Store.write
    split
    · rfl
    · exact byte_setGran_other _ _ _ _ (by omega)

end Sys2Proof.Machine
end

