-- ==== Sys2Proof/Laws/Memory.lean ====
section
/-! SUPPORT. The canonical form of every store of a state (`State.MemOk`): each shared operation that writes memory keeps it, and so does
every update that leaves the stores alone. -/

namespace Sys2Proof.Machine

/-- A state with the same stores. -/
theorem memOk_congr {s t : State} (hm : t.mem = s.mem) (ht : t.tiles = s.tiles) (hk : t.tasks = s.tasks) (h : s.MemOk) : t.MemOk := by
  refine ⟨hm ▸ h.1, fun u => ?_, ?_⟩
  · have : t.tileAt u = s.tileAt u := by simp [State.tileAt, ht]
    rw [this]
    exact h.2.1 u
  · have : t.taskList = s.taskList := by simp [State.taskList, hk]
    rw [this]
    exact h.2.2

/-! ## Updates that reach no store -/

theorem memOk_schedule {s : State} (n o : Nat) (e : Ev) (h : s.MemOk) : (s.schedule n o e).MemOk := memOk_congr rfl rfl rfl h

theorem memOk_plan {s : State} (n o : Nat) (i : Instr) (a : EvArg) (h : s.MemOk) : (s.plan n o i a).MemOk := memOk_congr rfl rfl rfl h

theorem memOk_event {s : State} (c i k d : Nat) (h : s.MemOk) : (s.event c i k d).MemOk := memOk_congr rfl rfl rfl h

theorem memOk_newId {s : State} (h : s.MemOk) : s.newId.2.MemOk := memOk_congr rfl rfl rfl h

theorem memOk_drawNat {s : State} (h : s.MemOk) : s.drawNat.2.MemOk := memOk_congr rfl rfl rfl h

theorem memOk_drawBit {s : State} (h : s.MemOk) : s.drawBit.2.MemOk := memOk_congr rfl rfl rfl h

theorem memOk_drawWord {s : State} (h : s.MemOk) : s.drawWord.2.MemOk := memOk_congr rfl rfl rfl h

/-- A fold keeps the form when each of its steps does. -/
theorem memOk_foldl {α : Type} (f : State → α → State) (l : List α) {s : State} (hf : ∀ s, s.MemOk → ∀ a ∈ l, (f s a).MemOk)
    (h : s.MemOk) : (l.foldl f s).MemOk := by
  induction l generalizing s with
  | nil => exact h
  | cons a l ih => exact ih (fun s hs b hb => hf s hs b (List.mem_cons_of_mem _ hb)) (hf s h a List.mem_cons_self)

theorem memOk_rindEvents {s : State} (c i p : Nat) (gs : List Nat) (h : s.MemOk) : (s.rindEvents c i p gs).MemOk :=
  memOk_foldl _ gs (fun _ hs _ _ => memOk_event _ _ _ _ hs) h

/-! ## Tiles -/

theorem memOk_setTile {s : State} (t : Tid) (x : Tile) (hx : Memory.wf x.pad) (h : s.MemOk) : (s.setTile t x).MemOk := by
  refine ⟨h.1, fun u => ?_, h.2.2⟩
  rw [tileAt_setTile]
  split
  · exact hx
  · exact h.2.1 u

theorem memOk_modTile {s : State} (t : Tid) (f : Tile → Tile) (hf : Memory.wf (s.tileAt t).pad → Memory.wf (f (s.tileAt t)).pad)
    (h : s.MemOk) : (s.modTile t f).MemOk := memOk_setTile t _ (hf (h.2.1 t)) h

/-- An update of a tile that leaves its scratchpad. -/
theorem memOk_modTile_pad {s : State} (t : Tid) (f : Tile → Tile) (hf : (f (s.tileAt t)).pad = (s.tileAt t).pad) (h : s.MemOk) :
    (s.modTile t f).MemOk := memOk_modTile t f (fun hw => hf.symm ▸ hw) h

theorem memOk_onTile_pad {s : State} (f : Tile → Tile) (hf : (f s.tile).pad = s.tile.pad) (h : s.MemOk) : (s.onTile f).MemOk :=
  memOk_modTile_pad s.cur f hf h

/-- Granule writes that perform at a scratchpad. -/
theorem memOk_padPut {s : State} (t : Tid) (ws : List GWrite) (h : s.MemOk) : (s.padPut t ws).MemOk :=
  memOk_rindEvents _ _ _ _ (memOk_modTile t (fun x => { x with pad := x.pad.writes ws }) (fun hw => writes_wf ws _ hw) h)

/-! ## The task table -/

theorem SMap.mem_del {α : Type} (k : Nat) (m : SMap α) (e : Nat × α) (h : e ∈ SMap.del k m) : e ∈ m := List.mem_of_mem_filter h

/-- An entry of a map after a write is the one written, or was there before. -/
theorem SMap.mem_set {α : Type} [DecidableEq α] (d : α) (k : Nat) (v : α) (m : SMap α) (e : Nat × α) (h : e ∈ SMap.set d k v m) :
    e = (k, v) ∨ e ∈ m := by
  unfold SMap.set at h
  split at h
  · exact .inr (SMap.mem_del k m e h)
  · rcases (SMap.mem_ins k v _ e).mp h with h | h
    · exact .inl h
    · exact .inr (SMap.mem_del k m e h)

/-- The shadow tiles of an entry are in canonical form. -/
def TaskEnt.ShadowsOk (e : TaskEnt) : Prop := ∀ h ∈ e.shadows, Memory.wf h.store

theorem shadowsOk_of_mem {s : State} (h : s.MemOk) {e : Nat × TaskEnt} (he : e ∈ s.taskList) : e.2.ShadowsOk := h.2.2 e he

theorem mem_taskList {s : State} {i : Nat} {e : TaskEnt} (h : s.task i = some e) : ∃ k, (k, e) ∈ s.taskList := by
  have : ∀ m : SMap (Option TaskEnt), SMap.get none i m = some e → ∃ k, (k, some e) ∈ m := by
    intro m
    induction m with
    | nil => intro hm; cases hm
    | cons p m ih =>
      intro hm
      unfold SMap.get at hm
      split at hm
      · exact ⟨p.1, hm ▸ List.mem_cons_self⟩
      · obtain ⟨k, hk⟩ := ih hm
        exact ⟨k, List.mem_cons_of_mem _ hk⟩
  obtain ⟨k, hk⟩ := this s.tasks h
  exact ⟨k, List.mem_filterMap.mpr ⟨(k, some e), hk, rfl⟩⟩

theorem shadowsOk_of_task {s : State} (h : s.MemOk) {i : Nat} {e : TaskEnt} (he : s.task i = some e) : e.ShadowsOk := by
  obtain ⟨k, hk⟩ := mem_taskList he
  exact shadowsOk_of_mem h hk

theorem shadowsOk_of_taskOf {s : State} (h : s.MemOk) {t : Tid} {i : Nat} {e : TaskEnt} (he : s.taskOf t = some (i, e)) : e.ShadowsOk := by
  unfold State.taskOf at he
  split at he
  · cases he
  · rename_i j _
    cases hg : s.tasks.get none j with
    | none => rw [hg] at he; cases he
    | some q =>
      rw [hg] at he
      cases he
      exact shadowsOk_of_task h hg

theorem memOk_setTask {s : State} (i : Nat) (e : Option TaskEnt) (he : ∀ q, e = some q → q.ShadowsOk) (h : s.MemOk) :
    (s.setTask i e).MemOk := by
  refine ⟨h.1, h.2.1, fun p hp => ?_⟩
  obtain ⟨q, hq, hqp⟩ := List.mem_filterMap.mp hp
  rcases SMap.mem_set none i e s.tasks q hq with rfl | hm
  · cases e with
    | none => cases hqp
    | some v => cases hqp; exact he v rfl
  · exact h.2.2 p (List.mem_filterMap.mpr ⟨q, hm, hqp⟩)

/-- An update of an entry that leaves its shadow tiles. -/
theorem memOk_modTask {s : State} (i : Nat) (f : TaskEnt → TaskEnt) (hf : ∀ e, (f e).shadows = e.shadows) (h : s.MemOk) :
    (s.modTask i f).MemOk := by
  unfold State.modTask
  split
  · exact h
  · rename_i e he
    refine memOk_setTask i _ (fun q hq => ?_) h
    cases hq
    intro x hx
    exact shadowsOk_of_task h he x (hf e ▸ hx)

/-! ## Basin memory -/

theorem keepOld_mem (s : State) (w : GWrite) :
    (s.keepOld w).mem = s.mem ∧ (s.keepOld w).tiles = s.tiles ∧ (s.keepOld w).tasks = s.tasks := by
  unfold State.keepOld
  generalize s.binds.filter (·.cached) = l
  induction l generalizing s with
  | nil => exact ⟨rfl, rfl, rfl⟩
  | cons b l ih =>
    simp only [List.foldl_cons]
    split
    · exact ih _
    · split
      · exact ih s
      · exact ih _

theorem memOk_keepWas {s : State} (g : Nat) (h : s.MemOk) : (s.keepWas g).MemOk := by
  unfold State.keepWas
  split
  · exact h
  · exact h

theorem memOk_openWrite {s : State} (w : GWrite) (h : s.MemOk) : (s.openWrite w).MemOk := by
  have hk := keepOld_mem s w
  have h0 : ((s.keepOld w).keepWas w.g).MemOk := memOk_keepWas _ (memOk_congr hk.1 hk.2.1 hk.2.2 h)
  have hw : ({ (s.keepOld w).keepWas w.g with mem := ((s.keepOld w).keepWas w.g).mem.write w } : State).MemOk :=
    ⟨write_wf _ _ h0.1, h0.2.1, h0.2.2⟩
  unfold State.openWrite
  simp only
  split
  · exact memOk_event _ _ _ _ hw
  · exact hw

theorem memOk_shadowWrite {s : State} (v : Option Tid) (w : GWrite) (m : BitVec 8) (h : s.MemOk) : (s.shadowWrite v w m).MemOk := by
  unfold State.shadowWrite
  split
  · exact h
  · split
    · exact h
    · rename_i i e he
      have h1 : (s.setTask i (some { e with shadows := e.shadows.map fun h => h.write w m })).MemOk := by
        refine memOk_setTask i _ (fun q hq => ?_) h
        cases hq
        intro x hx
        obtain ⟨y, hy, rfl⟩ := List.mem_map.mp hx
        exact write_wf _ _ (shadowsOk_of_taskOf h he y hy)
      simp only
      split
      · exact memOk_event _ _ _ _ h1
      · exact h1

/-- A write that performs at the L2, on the tensor's memory or on a shadow tile. -/
theorem memOk_memWrite {s : State} (v : Option Tid) (w : GWrite) (h : s.MemOk) : (s.memWrite v w).MemOk := by
  have h1 : ∀ m, (if m = 0 then s else s.shadowWrite v w m).MemOk := by
    intro m
    split
    · exact h
    · exact memOk_shadowWrite v w m h
  unfold State.memWrite
  simp only
  split
  · exact h1 _
  · exact memOk_openWrite _ (h1 _)

theorem memOk_memWrites {s : State} (v : Option Tid) (ws : List GWrite) (h : s.MemOk) : (s.memWrites v ws).MemOk :=
  memOk_foldl _ ws (fun _ hs w _ => memOk_memWrite v w hs) h

/-- A shadow tile at its task's start. -/
theorem makeShadow_wf (s : State) (r : BitVec 1536) (d : Binding) (c : List Nat) : Memory.wf (s.makeShadow r d c).store := by
  unfold State.makeShadow
  simp only
  split
  · exact empty_wf
  · generalize ((d.tileBytes c).map (· / 8)).eraseDups = l
    suffices h : ∀ (st : Store), Memory.wf st → Memory.wf (l.foldl (fun (st : Store) g =>
        st.write { g := g, d := (s.memGran none g).d, r := (s.memGran none g).r, bad := (s.memGran none g).bad,
                   mask := BitVec.ofNat 8 (((List.range 8).filter fun i => (d.tileBytes c).contains (8 * g + i)).map (2 ^ ·)).sum }) st) from
      h _ empty_wf
    induction l with
    | nil => exact fun st hst => hst
    | cons g l ih => exact fun st hst => ih _ (write_wf _ _ hst)

theorem shadowsOk_makeShadows (s : State) (e : TaskEnt) : ∀ h ∈ s.makeShadows e, Memory.wf h.store := by
  intro h hh
  unfold State.makeShadows at hh
  obtain ⟨k, _, hk⟩ := List.mem_flatMap.mp hh
  simp only at hk
  split at hk
  · obtain ⟨c, _, rfl⟩ := List.mem_map.mp hk
    exact makeShadow_wf _ _ _ _
  · cases hk

end Sys2Proof.Machine
end

