-- ==== Sys2Proof/Laws/Operand.lean ====
section
/-! SUPPORT. Good operands raise nothing, and a well-formed instruction has no encoding condition. -/

namespace Sys2Proof.Machine

theorem firstBad_clean {n : Nat} (v : Reg n) (need : Nat → Bool) (h : Clean v) : v.firstBad need = none := by
  simp only [Reg.firstBad, Option.map_eq_none_iff, List.find?_eq_none, List.mem_range, Bool.and_eq_true, not_and]
  intro j hj _
  simp [h j hj]

theorem consume_clean {n : Nat} (x : Tile) (slot opnd : Nat) (v : Reg n) (need : Nat → Bool) (h : Clean v) :
    x.consume slot opnd v need = [] := by
  simp [Tile.consume, firstBad_clean v need h]

theorem consumeS_good (x : Tile) (slot opnd : Nat) (n : BitVec 6) (h : x.GoodS n) : x.consumeS slot opnd n.toNat = [] :=
  consume_clean _ _ _ _ _ h

theorem consumeS_clean (x : Tile) (slot opnd n : Nat) (h : Clean (x.scalar n)) : x.consumeS slot opnd n = [] :=
  consume_clean _ _ _ _ _ h

theorem consumeP_good (x : Tile) (opnd n : Nat) (h : x.GoodP n) : x.consumeP opnd n = [] := consume_clean _ _ _ _ _ h

theorem vConsume_good (x : Tile) (slot opnd w : Nat) (n : BitVec 9) (act : List Bool) (h : x.GoodV n) :
    x.vConsume slot opnd n.toNat w act = [] := by
  unfold Tile.GoodV at h
  unfold Tile.vConsume
  split
  · rename_i hn
    rw [if_pos hn] at h
    exact consume_clean _ _ _ _ _ h
  · rename_i hn
    rw [if_neg hn] at h
    split
    · exact consumeS_clean _ _ _ _ h
    · rfl

theorem staticErrs_wf (i : Instr) (h : i.wf = true) : staticErrs i = [] := by
  simp only [Instr.wf, Bool.and_eq_true, List.isEmpty_iff] at h
  simp [staticErrs, h.1, h.2]

/-- A well-formed instruction that the mode admits, whose condition holds, and which has neither a fault nor a wait, acts. -/
theorem issueSlot_wf (s : State) (i : Instr) (cond : Bool) (faults : List Flt) (act : State) (hw : i.wf = true) (hc : cond = true)
    (hf : faults = []) : s.issueSlot i [] cond faults none act = .next (act.note .acted) := by
  subst hc
  exact issueSlot_acts s i [] faults act (by simp [staticErrs_wf i hw, EncErr.first]) hf

/-- The same with conditions on the mode. -/
theorem issueSlot_wf_dyn (s : State) (i : Instr) (dyn : List EncErr) (cond : Bool) (faults : List Flt) (act : State) (hw : i.wf = true)
    (hd : dyn = []) (hc : cond = true) (hf : faults = []) : s.issueSlot i dyn cond faults none act = .next (act.note .acted) := by
  subst hd
  exact issueSlot_wf s i cond faults act hw hc hf

/-- A false condition, whatever else. -/
theorem issueFix_idle (s : State) (i : Instr) (dyn : List EncErr) (cond : Bool) (faults : List Flt) (fix : Flt → State)
    (wait : Option (Wait × State)) (act : State) (hw : i.wf = true) (hd : dyn = []) (hc : cond = false) :
    s.issueFix i dyn cond faults fix wait act = .next (s.note .acted) := by
  subst hd hc
  simp [State.issueFix, staticErrs_wf i hw, EncErr.first, State.acted]

/-- No fault and no wait, whatever the state in which a fault would be raised. -/
theorem issueFix_wf (s : State) (i : Instr) (dyn : List EncErr) (cond : Bool) (faults : List Flt) (fix : Flt → State) (wait : Option (Wait × State))
    (act : State) (hw : i.wf = true) (hd : dyn = []) (hc : cond = true) (hf : faults = []) (hn : wait = none) :
    s.issueFix i dyn cond faults fix wait act = .next (act.note .acted) := by
  subst hd hc hf hn
  simp [State.issueFix, staticErrs_wf i hw, EncErr.first, State.acted]

end Sys2Proof.Machine
end

