-- ==== Sys2Proof/Laws/PerInstr.lean ====
section
/-! SUPPORT. The family `Encoding`: what the word of each instruction is, one lemma per constructor. -/

namespace Sys2Proof.Laws.Encoding

/-- The word of `i` fits its slot, and the slot's instruction, found by the opcode in the word, is `i` with its fields; the word of
a NOP is 0, and an event has none. -/
def Statement (i : Instr) : Prop :=
  ∀ k w, encode i = some (k, w) →
    k < 8 ∧ w < 2 ^ slotWidth k ∧ ((w = 0 ∧ ∃ p, i = .nop p) ∨ (bits w 0 (opWidth k) ≠ 0 ∧ slotInstr k w = some i))

theorem of_none (i : Instr) (h : encode i = none) : Statement i := by
  intro k w h'
  rw [h] at h'
  cases h'

theorem of_s (i : Instr) (op : Nat) (f : SF) (h : encode i = some (0, SF.word op f)) (ho : op < 2 ^ 8) (h0 : op ≠ 0)
    (hi : opS op f = some i) : Statement i := by
  intro k w h'
  rw [h] at h'
  cases h'
  exact ⟨by omega, SF.word_lt op f ho, .inr ⟨by rw [opWidth, SF.op_word op f ho]; exact h0,
    by rw [slotInstr, SF.op_word op f ho, SF.ofNat_word op f ho]; exact hi⟩⟩

theorem of_v (i : Instr) (op : Nat) (f : VF) (h : encode i = some (if f.v1 then 2 else 1, VF.word op f)) (ho : op < 2 ^ 10) (h0 : op ≠ 0)
    (hi : opV op f = some i) : Statement i := by
  intro k w h'
  rw [h] at h'
  have hw := VF.ofNat_word op f ho
  cases hv : f.v1 <;> simp only [hv] at h' hw <;> cases h'
  · exact ⟨by decide, VF.word_lt op f ho, .inr ⟨by change bits _ 0 10 ≠ 0; rw [VF.op_word op f ho]; exact h0,
      by change opV (bits _ 0 10) (VF.ofNat false _) = _; rw [VF.op_word op f ho, hw]; exact hi⟩⟩
  · exact ⟨by decide, VF.word_lt op f ho, .inr ⟨by change bits _ 0 10 ≠ 0; rw [VF.op_word op f ho]; exact h0,
      by change opV (bits _ 0 10) (VF.ofNat true _) = _; rw [VF.op_word op f ho, hw]; exact hi⟩⟩

theorem of_m (i : Instr) (op : Nat) (f : MF) (h : encode i = some (3, MF.word op f)) (ho : op < 2 ^ 6) (h0 : op ≠ 0)
    (hi : opM op f = some i) : Statement i := by
  intro k w h'
  rw [h] at h'
  cases h'
  exact ⟨by omega, MF.word_lt op f ho, .inr ⟨by rw [opWidth, MF.op_word op f ho]; exact h0; all_goals omega,
    by rw [slotInstr, MF.op_word op f ho, MF.ofNat_word op f ho]; exact hi⟩⟩

theorem of_l (i : Instr) (op : Nat) (f : LF) (h : encode i = some (4, LF.word op f)) (ho : op < 2 ^ 6) (h0 : op ≠ 0)
    (hi : opL op f = some i) : Statement i := by
  intro k w h'
  rw [h] at h'
  cases h'
  exact ⟨by omega, LF.word_lt op f ho, .inr ⟨by rw [opWidth, LF.op_word op f ho]; exact h0; all_goals omega,
    by rw [slotInstr, LF.op_word op f ho, LF.ofNat_word op f ho]; exact hi⟩⟩

theorem of_t (i : Instr) (op : Nat) (f : TF) (h : encode i = some (5, TF.word op f)) (ho : op < 2 ^ 6) (h0 : op ≠ 0)
    (hi : opT op f = some i) : Statement i := by
  intro k w h'
  rw [h] at h'
  cases h'
  exact ⟨by omega, TF.word_lt op f ho, .inr ⟨by rw [opWidth, TF.op_word op f ho]; exact h0; all_goals omega,
    by rw [slotInstr, TF.op_word op f ho, TF.ofNat_word op f ho]; exact hi⟩⟩

theorem of_c (i : Instr) (op : Nat) (f : CF) (h : encode i = some (6, CF.word op f)) (ho : op < 2 ^ 7) (h0 : op ≠ 0)
    (hi : opC op f = some i) : Statement i := by
  intro k w h'
  rw [h] at h'
  cases h'
  exact ⟨by omega, CF.word_lt op f ho, .inr ⟨by rw [opWidth, CF.op_word op f ho]; exact h0,
    by rw [slotInstr, CF.op_word op f ho, CF.ofNat_word op f ho]; exact hi⟩⟩

theorem of_y (i : Instr) (op : Nat) (f : YF) (h : encode i = some (7, YF.word op f)) (ho : op < 2 ^ 6) (h0 : op ≠ 0)
    (hi : opY op f = some i) : Statement i := by
  intro k w h'
  rw [h] at h'
  cases h'
  exact ⟨by omega, YF.word_lt op f ho, .inr ⟨by rw [opWidth, YF.op_word op f ho]; exact h0; all_goals omega,
    by rw [slotInstr, YF.op_word op f ho, YF.ofNat_word op f ho]; exact hi⟩⟩

theorem nop (p : Fin 8) : Statement (.nop p) := by
  intro k w h
  cases h
  exact ⟨p.isLt, by positivity, .inl ⟨rfl, p, rfl⟩⟩
theorem add (f : SF) : Statement (.add f) := of_s _ 0x01 f rfl (by decide) (by decide) rfl
theorem sub (f : SF) : Statement (.sub f) := of_s _ 0x02 f rfl (by decide) (by decide) rfl
theorem mul (f : SF) : Statement (.mul f) := of_s _ 0x03 f rfl (by decide) (by decide) rfl
theorem mulhi (f : SF) : Statement (.mulhi f) := of_s _ 0x04 f rfl (by decide) (by decide) rfl
theorem mulhn (f : SF) : Statement (.mulhn f) := of_s _ 0x05 f rfl (by decide) (by decide) rfl
theorem divi (f : SF) : Statement (.divi f) := of_s _ 0x06 f rfl (by decide) (by decide) rfl
theorem divn (f : SF) : Statement (.divn f) := of_s _ 0x07 f rfl (by decide) (by decide) rfl
theorem remi (f : SF) : Statement (.remi f) := of_s _ 0x08 f rfl (by decide) (by decide) rfl
theorem remn (f : SF) : Statement (.remn f) := of_s _ 0x09 f rfl (by decide) (by decide) rfl
theorem and (f : SF) : Statement (.and f) := of_s _ 0x0A f rfl (by decide) (by decide) rfl
theorem or (f : SF) : Statement (.or f) := of_s _ 0x0B f rfl (by decide) (by decide) rfl
theorem xor (f : SF) : Statement (.xor f) := of_s _ 0x0C f rfl (by decide) (by decide) rfl
theorem andn (f : SF) : Statement (.andn f) := of_s _ 0x0D f rfl (by decide) (by decide) rfl
theorem shl (f : SF) : Statement (.shl f) := of_s _ 0x0E f rfl (by decide) (by decide) rfl
theorem shr (f : SF) : Statement (.shr f) := of_s _ 0x0F f rfl (by decide) (by decide) rfl
theorem sra (f : SF) : Statement (.sra f) := of_s _ 0x10 f rfl (by decide) (by decide) rfl
theorem rol (f : SF) : Statement (.rol f) := of_s _ 0x11 f rfl (by decide) (by decide) rfl
theorem mini (f : SF) : Statement (.mini f) := of_s _ 0x12 f rfl (by decide) (by decide) rfl
theorem maxi (f : SF) : Statement (.maxi f) := of_s _ 0x13 f rfl (by decide) (by decide) rfl
theorem minn (f : SF) : Statement (.minn f) := of_s _ 0x14 f rfl (by decide) (by decide) rfl
theorem maxn (f : SF) : Statement (.maxn f) := of_s _ 0x15 f rfl (by decide) (by decide) rfl
theorem adds (f : SF) : Statement (.adds f) := of_s _ 0x16 f rfl (by decide) (by decide) rfl
theorem subs (f : SF) : Statement (.subs f) := of_s _ 0x17 f rfl (by decide) (by decide) rfl
theorem bfx (f : SF) : Statement (.bfx f) := of_s _ 0x18 f rfl (by decide) (by decide) rfl
theorem bfi (f : SF) : Statement (.bfi f) := of_s _ 0x19 f rfl (by decide) (by decide) rfl
theorem cmp (f : SF) : Statement (.cmp f) := of_s _ 0x1A f rfl (by decide) (by decide) rfl
theorem sel (f : SF) : Statement (.sel f) := of_s _ 0x1B f rfl (by decide) (by decide) rfl
theorem addImmediate (f : SF) : Statement (.addImmediate f) := of_s _ 0x81 f rfl (by decide) (by decide) rfl
theorem subImmediate (f : SF) : Statement (.subImmediate f) := of_s _ 0x82 f rfl (by decide) (by decide) rfl
theorem mulImmediate (f : SF) : Statement (.mulImmediate f) := of_s _ 0x83 f rfl (by decide) (by decide) rfl
theorem mulhiImmediate (f : SF) : Statement (.mulhiImmediate f) := of_s _ 0x84 f rfl (by decide) (by decide) rfl
theorem mulhnImmediate (f : SF) : Statement (.mulhnImmediate f) := of_s _ 0x85 f rfl (by decide) (by decide) rfl
theorem diviImmediate (f : SF) : Statement (.diviImmediate f) := of_s _ 0x86 f rfl (by decide) (by decide) rfl
theorem divnImmediate (f : SF) : Statement (.divnImmediate f) := of_s _ 0x87 f rfl (by decide) (by decide) rfl
theorem remiImmediate (f : SF) : Statement (.remiImmediate f) := of_s _ 0x88 f rfl (by decide) (by decide) rfl
theorem remnImmediate (f : SF) : Statement (.remnImmediate f) := of_s _ 0x89 f rfl (by decide) (by decide) rfl
theorem andImmediate (f : SF) : Statement (.andImmediate f) := of_s _ 0x8A f rfl (by decide) (by decide) rfl
theorem orImmediate (f : SF) : Statement (.orImmediate f) := of_s _ 0x8B f rfl (by decide) (by decide) rfl
theorem xorImmediate (f : SF) : Statement (.xorImmediate f) := of_s _ 0x8C f rfl (by decide) (by decide) rfl
theorem andnImmediate (f : SF) : Statement (.andnImmediate f) := of_s _ 0x8D f rfl (by decide) (by decide) rfl
theorem shlImmediate (f : SF) : Statement (.shlImmediate f) := of_s _ 0x8E f rfl (by decide) (by decide) rfl
theorem shrImmediate (f : SF) : Statement (.shrImmediate f) := of_s _ 0x8F f rfl (by decide) (by decide) rfl
theorem sraImmediate (f : SF) : Statement (.sraImmediate f) := of_s _ 0x90 f rfl (by decide) (by decide) rfl
theorem rolImmediate (f : SF) : Statement (.rolImmediate f) := of_s _ 0x91 f rfl (by decide) (by decide) rfl
theorem miniImmediate (f : SF) : Statement (.miniImmediate f) := of_s _ 0x92 f rfl (by decide) (by decide) rfl
theorem maxiImmediate (f : SF) : Statement (.maxiImmediate f) := of_s _ 0x93 f rfl (by decide) (by decide) rfl
theorem minnImmediate (f : SF) : Statement (.minnImmediate f) := of_s _ 0x94 f rfl (by decide) (by decide) rfl
theorem maxnImmediate (f : SF) : Statement (.maxnImmediate f) := of_s _ 0x95 f rfl (by decide) (by decide) rfl
theorem addsImmediate (f : SF) : Statement (.addsImmediate f) := of_s _ 0x96 f rfl (by decide) (by decide) rfl
theorem subsImmediate (f : SF) : Statement (.subsImmediate f) := of_s _ 0x97 f rfl (by decide) (by decide) rfl
theorem bfxImmediate (f : SF) : Statement (.bfxImmediate f) := of_s _ 0x98 f rfl (by decide) (by decide) rfl
theorem bfiImmediate (f : SF) : Statement (.bfiImmediate f) := of_s _ 0x99 f rfl (by decide) (by decide) rfl
theorem cmpImmediate (f : SF) : Statement (.cmpImmediate f) := of_s _ 0x9A f rfl (by decide) (by decide) rfl
theorem selImmediate (f : SF) : Statement (.selImmediate f) := of_s _ 0x9B f rfl (by decide) (by decide) rfl
theorem movi (f : SF) : Statement (.movi f) := of_s _ 0x20 f rfl (by decide) (by decide) rfl
theorem movhi (f : SF) : Statement (.movhi f) := of_s _ 0x21 f rfl (by decide) (by decide) rfl
theorem clz (f : SF) : Statement (.clz f) := of_s _ 0x22 f rfl (by decide) (by decide) rfl
theorem ctz (f : SF) : Statement (.ctz f) := of_s _ 0x23 f rfl (by decide) (by decide) rfl
theorem popc (f : SF) : Statement (.popc f) := of_s _ 0x24 f rfl (by decide) (by decide) rfl
theorem brev (f : SF) : Statement (.brev f) := of_s _ 0x25 f rfl (by decide) (by decide) rfl
theorem sext (f : SF) : Statement (.sext f) := of_s _ 0x26 f rfl (by decide) (by decide) rfl
theorem pand (f : SF) : Statement (.pand f) := of_s _ 0x28 f rfl (by decide) (by decide) rfl
theorem por (f : SF) : Statement (.por f) := of_s _ 0x29 f rfl (by decide) (by decide) rfl
theorem pxor (f : SF) : Statement (.pxor f) := of_s _ 0x2A f rfl (by decide) (by decide) rfl
theorem pandn (f : SF) : Statement (.pandn f) := of_s _ 0x2B f rfl (by decide) (by decide) rfl
theorem pnot (f : SF) : Statement (.pnot f) := of_s _ 0x2C f rfl (by decide) (by decide) rfl
theorem pcnt (f : SF) : Statement (.pcnt f) := of_s _ 0x2D f rfl (by decide) (by decide) rfl
theorem pfirst (f : SF) : Statement (.pfirst f) := of_s _ 0x2E f rfl (by decide) (by decide) rfl
theorem plast (f : SF) : Statement (.plast f) := of_s _ 0x2F f rfl (by decide) (by decide) rfl
theorem pfrom (f : SF) : Statement (.pfrom f) := of_s _ 0x30 f rfl (by decide) (by decide) rfl
theorem plen (f : SF) : Statement (.plen f) := of_s _ 0x31 f rfl (by decide) (by decide) rfl
theorem ptos (f : SF) : Statement (.ptos f) := of_s _ 0x32 f rfl (by decide) (by decide) rfl
theorem mfsr (f : SF) : Statement (.mfsr f) := of_s _ 0x38 f rfl (by decide) (by decide) rfl
theorem mtsr (f : SF) : Statement (.mtsr f) := of_s _ 0x39 f rfl (by decide) (by decide) rfl
theorem rinj (f : SF) : Statement (.rinj f) := of_s _ 0x3B f rfl (by decide) (by decide) rfl
theorem vadd (f : VF) : Statement (.vadd f) := of_v _ 0x001 f rfl (by decide) (by decide) rfl
theorem vsub (f : VF) : Statement (.vsub f) := of_v _ 0x002 f rfl (by decide) (by decide) rfl
theorem vmul (f : VF) : Statement (.vmul f) := of_v _ 0x003 f rfl (by decide) (by decide) rfl
theorem vfma (f : VF) : Statement (.vfma f) := of_v _ 0x004 f rfl (by decide) (by decide) rfl
theorem vfms (f : VF) : Statement (.vfms f) := of_v _ 0x005 f rfl (by decide) (by decide) rfl
theorem vfnma (f : VF) : Statement (.vfnma f) := of_v _ 0x006 f rfl (by decide) (by decide) rfl
theorem vmin (f : VF) : Statement (.vmin f) := of_v _ 0x007 f rfl (by decide) (by decide) rfl
theorem vmax (f : VF) : Statement (.vmax f) := of_v _ 0x008 f rfl (by decide) (by decide) rfl
theorem vminn (f : VF) : Statement (.vminn f) := of_v _ 0x009 f rfl (by decide) (by decide) rfl
theorem vmaxn (f : VF) : Statement (.vmaxn f) := of_v _ 0x00A f rfl (by decide) (by decide) rfl
theorem vabs (f : VF) : Statement (.vabs f) := of_v _ 0x00B f rfl (by decide) (by decide) rfl
theorem vneg (f : VF) : Statement (.vneg f) := of_v _ 0x00C f rfl (by decide) (by decide) rfl
theorem vabd (f : VF) : Statement (.vabd f) := of_v _ 0x00D f rfl (by decide) (by decide) rfl
theorem vadds (f : VF) : Statement (.vadds f) := of_v _ 0x00E f rfl (by decide) (by decide) rfl
theorem vsubs (f : VF) : Statement (.vsubs f) := of_v _ 0x00F f rfl (by decide) (by decide) rfl
theorem vmulh (f : VF) : Statement (.vmulh f) := of_v _ 0x010 f rfl (by decide) (by decide) rfl
theorem vdot4 (f : VF) : Statement (.vdot4 f) := of_v _ 0x011 f rfl (by decide) (by decide) rfl
theorem vavg (f : VF) : Statement (.vavg f) := of_v _ 0x012 f rfl (by decide) (by decide) rfl
theorem vclamp (f : VF) : Statement (.vclamp f) := of_v _ 0x013 f rfl (by decide) (by decide) rfl
theorem vand (f : VF) : Statement (.vand f) := of_v _ 0x020 f rfl (by decide) (by decide) rfl
theorem vor (f : VF) : Statement (.vor f) := of_v _ 0x021 f rfl (by decide) (by decide) rfl
theorem vxor (f : VF) : Statement (.vxor f) := of_v _ 0x022 f rfl (by decide) (by decide) rfl
theorem vandn (f : VF) : Statement (.vandn f) := of_v _ 0x023 f rfl (by decide) (by decide) rfl
theorem vnot (f : VF) : Statement (.vnot f) := of_v _ 0x024 f rfl (by decide) (by decide) rfl
theorem vshl (f : VF) : Statement (.vshl f) := of_v _ 0x025 f rfl (by decide) (by decide) rfl
theorem vshr (f : VF) : Statement (.vshr f) := of_v _ 0x026 f rfl (by decide) (by decide) rfl
theorem vsra (f : VF) : Statement (.vsra f) := of_v _ 0x027 f rfl (by decide) (by decide) rfl
theorem vrol (f : VF) : Statement (.vrol f) := of_v _ 0x028 f rfl (by decide) (by decide) rfl
theorem vpopc (f : VF) : Statement (.vpopc f) := of_v _ 0x029 f rfl (by decide) (by decide) rfl
theorem vclz (f : VF) : Statement (.vclz f) := of_v _ 0x02A f rfl (by decide) (by decide) rfl
theorem vcmp (f : VF) : Statement (.vcmp f) := of_v _ 0x030 f rfl (by decide) (by decide) rfl
theorem vclass (f : VF) : Statement (.vclass f) := of_v _ 0x031 f rfl (by decide) (by decide) rfl
theorem vsel (f : VF) : Statement (.vsel f) := of_v _ 0x032 f rfl (by decide) (by decide) rfl
theorem vmov (f : VF) : Statement (.vmov f) := of_v _ 0x040 f rfl (by decide) (by decide) rfl
theorem vmovi (f : VF) : Statement (.vmovi f) := of_v _ 0x041 f rfl (by decide) (by decide) rfl
theorem vext (f : VF) : Statement (.vext f) := of_v _ 0x042 f rfl (by decide) (by decide) rfl
theorem vins (f : VF) : Statement (.vins f) := of_v _ 0x043 f rfl (by decide) (by decide) rfl
theorem vcvt (f : VF) : Statement (.vcvt f) := of_v _ 0x044 f rfl (by decide) (by decide) rfl
theorem vqnt (f : VF) : Statement (.vqnt f) := of_v _ 0x045 f rfl (by decide) (by decide) rfl
theorem vdqnt (f : VF) : Statement (.vdqnt f) := of_v _ 0x046 f rfl (by decide) (by decide) rfl
theorem vpack (f : VF) : Statement (.vpack f) := of_v _ 0x047 f rfl (by decide) (by decide) rfl
theorem vunpk (f : VF) : Statement (.vunpk f) := of_v _ 0x048 f rfl (by decide) (by decide) rfl
theorem vperm (f : VF) : Statement (.vperm f) := of_v _ 0x050 f rfl (by decide) (by decide) rfl
theorem vshuf (f : VF) : Statement (.vshuf f) := of_v _ 0x051 f rfl (by decide) (by decide) rfl
theorem vslide (f : VF) : Statement (.vslide f) := of_v _ 0x052 f rfl (by decide) (by decide) rfl
theorem vbcast (f : VF) : Statement (.vbcast f) := of_v _ 0x053 f rfl (by decide) (by decide) rfl
theorem vcomp (f : VF) : Statement (.vcomp f) := of_v _ 0x054 f rfl (by decide) (by decide) rfl
theorem vexpd (f : VF) : Statement (.vexpd f) := of_v _ 0x055 f rfl (by decide) (by decide) rfl
theorem vred (f : VF) : Statement (.vred f) := of_v _ 0x060 f rfl (by decide) (by decide) rfl
theorem vscan (f : VF) : Statement (.vscan f) := of_v _ 0x061 f rfl (by decide) (by decide) rfl
theorem vsegscan (f : VF) : Statement (.vsegscan f) := of_v _ 0x062 f rfl (by decide) (by decide) rfl
theorem vrec (f : VF) : Statement (.vrec f) := of_v _ 0x063 f rfl (by decide) (by decide) rfl
theorem vmacw (f : VF) : Statement (.vmacw f) := of_v _ 0x070 f rfl (by decide) (by decide) rfl
theorem zmovn (f : VF) : Statement (.zmovn f) := of_v _ 0x071 f rfl (by decide) (by decide) rfl
theorem zmovw (f : VF) : Statement (.zmovw f) := of_v _ 0x072 f rfl (by decide) (by decide) rfl
theorem vrcp (f : VF) : Statement (.vrcp f) := of_v _ 0x080 f rfl (by decide) (by decide) rfl
theorem vrsq (f : VF) : Statement (.vrsq f) := of_v _ 0x081 f rfl (by decide) (by decide) rfl
theorem vsqrt (f : VF) : Statement (.vsqrt f) := of_v _ 0x082 f rfl (by decide) (by decide) rfl
theorem vdiv (f : VF) : Statement (.vdiv f) := of_v _ 0x083 f rfl (by decide) (by decide) rfl
theorem vexp2 (f : VF) : Statement (.vexp2 f) := of_v _ 0x084 f rfl (by decide) (by decide) rfl
theorem vlog2 (f : VF) : Statement (.vlog2 f) := of_v _ 0x085 f rfl (by decide) (by decide) rfl
theorem vexp (f : VF) : Statement (.vexp f) := of_v _ 0x086 f rfl (by decide) (by decide) rfl
theorem vtanh (f : VF) : Statement (.vtanh f) := of_v _ 0x087 f rfl (by decide) (by decide) rfl
theorem vsigm (f : VF) : Statement (.vsigm f) := of_v _ 0x088 f rfl (by decide) (by decide) rfl
theorem vsint (f : VF) : Statement (.vsint f) := of_v _ 0x089 f rfl (by decide) (by decide) rfl
theorem vcost (f : VF) : Statement (.vcost f) := of_v _ 0x08A f rfl (by decide) (by decide) rfl
theorem vrchk (f : VF) : Statement (.vrchk f) := of_v _ 0x090 f rfl (by decide) (by decide) rfl
theorem mldb (f : MF) : Statement (.mldb f) := of_m _ 0x01 f rfl (by decide) (by decide) rfl
theorem mldbt (f : MF) : Statement (.mldbt f) := of_m _ 0x0D f rfl (by decide) (by decide) rfl
theorem mma (f : MF) : Statement (.mma f) := of_m _ 0x02 f rfl (by decide) (by decide) rfl
theorem mmaz (f : MF) : Statement (.mmaz f) := of_m _ 0x03 f rfl (by decide) (by decide) rfl
theorem mmac (f : MF) : Statement (.mmac f) := of_m _ 0x04 f rfl (by decide) (by decide) rfl
theorem mzero (f : MF) : Statement (.mzero f) := of_m _ 0x05 f rfl (by decide) (by decide) rfl
theorem mzset (f : MF) : Statement (.mzset f) := of_m _ 0x06 f rfl (by decide) (by decide) rfl
theorem mrowsum (f : MF) : Statement (.mrowsum f) := of_m _ 0x07 f rfl (by decide) (by decide) rfl
theorem mzpc (f : MF) : Statement (.mzpc f) := of_m _ 0x08 f rfl (by decide) (by decide) rfl
theorem mdrain (f : MF) : Statement (.mdrain f) := of_m _ 0x09 f rfl (by decide) (by decide) rfl
theorem mzld (f : MF) : Statement (.mzld f) := of_m _ 0x0A f rfl (by decide) (by decide) rfl
theorem mxsave (f : MF) : Statement (.mxsave f) := of_m _ 0x0B f rfl (by decide) (by decide) rfl
theorem mxrest (f : MF) : Statement (.mxrest f) := of_m _ 0x0C f rfl (by decide) (by decide) rfl
theorem vld (f : LF) : Statement (.vld f) := of_l _ 0x01 f rfl (by decide) (by decide) rfl
theorem vlds (f : LF) : Statement (.vlds f) := of_l _ 0x02 f rfl (by decide) (by decide) rfl
theorem vldg (f : LF) : Statement (.vldg f) := of_l _ 0x03 f rfl (by decide) (by decide) rfl
theorem vldb (f : LF) : Statement (.vldb f) := of_l _ 0x04 f rfl (by decide) (by decide) rfl
theorem lds (f : LF) : Statement (.lds f) := of_l _ 0x05 f rfl (by decide) (by decide) rfl
theorem gld (f : LF) : Statement (.gld f) := of_l _ 0x06 f rfl (by decide) (by decide) rfl
theorem gldv (f : LF) : Statement (.gldv f) := of_l _ 0x07 f rfl (by decide) (by decide) rfl
theorem pld (f : LF) : Statement (.pld f) := of_l _ 0x08 f rfl (by decide) (by decide) rfl
theorem ppop (f : LF) : Statement (.ppop f) := of_l _ 0x09 f rfl (by decide) (by decide) rfl
theorem ldtag (f : LF) : Statement (.ldtag f) := of_l _ 0x0A f rfl (by decide) (by decide) rfl
theorem gpref (f : LF) : Statement (.gpref f) := of_l _ 0x0B f rfl (by decide) (by decide) rfl
theorem vst (f : TF) : Statement (.vst f) := of_t _ 0x01 f rfl (by decide) (by decide) rfl
theorem vsts (f : TF) : Statement (.vsts f) := of_t _ 0x02 f rfl (by decide) (by decide) rfl
theorem vstx (f : TF) : Statement (.vstx f) := of_t _ 0x03 f rfl (by decide) (by decide) rfl
theorem sts (f : TF) : Statement (.sts f) := of_t _ 0x04 f rfl (by decide) (by decide) rfl
theorem gst (f : TF) : Statement (.gst f) := of_t _ 0x05 f rfl (by decide) (by decide) rfl
theorem gstv (f : TF) : Statement (.gstv f) := of_t _ 0x06 f rfl (by decide) (by decide) rfl
theorem pst (f : TF) : Statement (.pst f) := of_t _ 0x07 f rfl (by decide) (by decide) rfl
theorem aadd (f : TF) : Statement (.aadd f) := of_t _ 0x08 f rfl (by decide) (by decide) rfl
theorem aaddf (f : TF) : Statement (.aaddf f) := of_t _ 0x09 f rfl (by decide) (by decide) rfl
theorem amin (f : TF) : Statement (.amin f) := of_t _ 0x0A f rfl (by decide) (by decide) rfl
theorem amax (f : TF) : Statement (.amax f) := of_t _ 0x0B f rfl (by decide) (by decide) rfl
theorem aand (f : TF) : Statement (.aand f) := of_t _ 0x0C f rfl (by decide) (by decide) rfl
theorem aor (f : TF) : Statement (.aor f) := of_t _ 0x0D f rfl (by decide) (by decide) rfl
theorem axor (f : TF) : Statement (.axor f) := of_t _ 0x0E f rfl (by decide) (by decide) rfl
theorem aswp (f : TF) : Statement (.aswp f) := of_t _ 0x0F f rfl (by decide) (by decide) rfl
theorem acas (f : TF) : Statement (.acas f) := of_t _ 0x10 f rfl (by decide) (by decide) rfl
theorem ppush (f : TF) : Statement (.ppush f) := of_t _ 0x11 f rfl (by decide) (by decide) rfl
theorem peos (f : TF) : Statement (.peos f) := of_t _ 0x12 f rfl (by decide) (by decide) rfl
theorem sttag (f : TF) : Statement (.sttag f) := of_t _ 0x13 f rfl (by decide) (by decide) rfl
theorem gflush (f : TF) : Statement (.gflush f) := of_t _ 0x14 f rfl (by decide) (by decide) rfl
theorem cloop (f : CF) : Statement (.cloop f) := of_c _ 0x01 f rfl (by decide) (by decide) rfl
theorem cbase (f : CF) : Statement (.cbase f) := of_c _ 0x02 f rfl (by decide) (by decide) rfl
theorem cgo (f : CF) : Statement (.cgo f) := of_c _ 0x03 f rfl (by decide) (by decide) rfl
theorem cstop (f : CF) : Statement (.cstop f) := of_c _ 0x04 f rfl (by decide) (by decide) rfl
theorem cquery (f : CF) : Statement (.cquery f) := of_c _ 0x05 f rfl (by decide) (by decide) rfl
theorem tbind (f : CF) : Statement (.tbind f) := of_c _ 0x08 f rfl (by decide) (by decide) rfl
theorem tunbind (f : CF) : Statement (.tunbind f) := of_c _ 0x09 f rfl (by decide) (by decide) rfl
theorem tflush (f : CF) : Statement (.tflush f) := of_c _ 0x0A f rfl (by decide) (by decide) rfl
theorem wcreate (f : CF) : Statement (.wcreate f) := of_c _ 0x10 f rfl (by decide) (by decide) rfl
theorem wfree (f : CF) : Statement (.wfree f) := of_c _ 0x11 f rfl (by decide) (by decide) rfl
theorem wfence (f : CF) : Statement (.wfence f) := of_c _ 0x12 f rfl (by decide) (by decide) rfl
theorem wpost (f : CF) : Statement (.wpost f) := of_c _ 0x13 f rfl (by decide) (by decide) rfl
theorem wstart (f : CF) : Statement (.wstart f) := of_c _ 0x14 f rfl (by decide) (by decide) rfl
theorem wcompl (f : CF) : Statement (.wcompl f) := of_c _ 0x15 f rfl (by decide) (by decide) rfl
theorem wdone (f : CF) : Statement (.wdone f) := of_c _ 0x16 f rfl (by decide) (by decide) rfl
theorem wlock (f : CF) : Statement (.wlock f) := of_c _ 0x17 f rfl (by decide) (by decide) rfl
theorem wunlock (f : CF) : Statement (.wunlock f) := of_c _ 0x18 f rfl (by decide) (by decide) rfl
theorem wput (f : CF) : Statement (.wput f) := of_c _ 0x19 f rfl (by decide) (by decide) rfl
theorem wget (f : CF) : Statement (.wget f) := of_c _ 0x1A f rfl (by decide) (by decide) rfl
theorem wacc (f : CF) : Statement (.wacc f) := of_c _ 0x1B f rfl (by decide) (by decide) rfl
theorem wamo (f : CF) : Statement (.wamo f) := of_c _ 0x1C f rfl (by decide) (by decide) rfl
theorem wflush (f : CF) : Statement (.wflush f) := of_c _ 0x1D f rfl (by decide) (by decide) rfl
theorem wtest (f : CF) : Statement (.wtest f) := of_c _ 0x1E f rfl (by decide) (by decide) rfl
theorem hinit (f : CF) : Statement (.hinit f) := of_c _ 0x20 f rfl (by decide) (by decide) rfl
theorem htest (f : CF) : Statement (.htest f) := of_c _ 0x21 f rfl (by decide) (by decide) rfl
theorem hread (f : CF) : Statement (.hread f) := of_c _ 0x22 f rfl (by decide) (by decide) rfl
theorem coll (f : CF) : Statement (.coll f) := of_c _ 0x28 f rfl (by decide) (by decide) rfl
theorem cinc (f : CF) : Statement (.cinc f) := of_c _ 0x29 f rfl (by decide) (by decide) rfl
theorem cread (f : CF) : Statement (.cread f) := of_c _ 0x2A f rfl (by decide) (by decide) rfl
theorem cset (f : CF) : Statement (.cset f) := of_c _ 0x2B f rfl (by decide) (by decide) rfl
theorem tspawn (f : CF) : Statement (.tspawn f) := of_c _ 0x30 f rfl (by decide) (by decide) rfl
theorem pbind (f : CF) : Statement (.pbind f) := of_c _ 0x31 f rfl (by decide) (by decide) rfl
theorem teffect (f : CF) : Statement (.teffect f) := of_c _ 0x32 f rfl (by decide) (by decide) rfl
theorem caskdup (f : CF) : Statement (.caskdup f) := of_c _ 0x38 f rfl (by decide) (by decide) rfl
theorem caskdisc (f : CF) : Statement (.caskdisc f) := of_c _ 0x39 f rfl (by decide) (by decide) rfl
theorem caskq (f : CF) : Statement (.caskq f) := of_c _ 0x3A f rfl (by decide) (by decide) rfl
theorem br (f : YF) : Statement (.br f) := of_y _ 0x01 f rfl (by decide) (by decide) rfl
theorem brp (f : YF) : Statement (.brp f) := of_y _ 0x02 f rfl (by decide) (by decide) rfl
theorem brs (f : YF) : Statement (.brs f) := of_y _ 0x03 f rfl (by decide) (by decide) rfl
theorem jr (f : YF) : Statement (.jr f) := of_y _ 0x04 f rfl (by decide) (by decide) rfl
theorem call (f : YF) : Statement (.call f) := of_y _ 0x05 f rfl (by decide) (by decide) rfl
theorem callr (f : YF) : Statement (.callr f) := of_y _ 0x06 f rfl (by decide) (by decide) rfl
theorem ret (f : YF) : Statement (.ret f) := of_y _ 0x07 f rfl (by decide) (by decide) rfl
theorem loop (f : YF) : Statement (.loop f) := of_y _ 0x08 f rfl (by decide) (by decide) rfl
theorem loopi (f : YF) : Statement (.loopi f) := of_y _ 0x09 f rfl (by decide) (by decide) rfl
theorem sync (f : YF) : Statement (.sync f) := of_y _ 0x0A f rfl (by decide) (by decide) rfl
theorem waitc (f : YF) : Statement (.waitc f) := of_y _ 0x0B f rfl (by decide) (by decide) rfl
theorem waith (f : YF) : Statement (.waith f) := of_y _ 0x0C f rfl (by decide) (by decide) rfl
theorem fence (f : YF) : Statement (.fence f) := of_y _ 0x0D f rfl (by decide) (by decide) rfl
theorem yield (f : YF) : Statement (.yield f) := of_y _ 0x0E f rfl (by decide) (by decide) rfl
theorem susp (f : YF) : Statement (.susp f) := of_y _ 0x0F f rfl (by decide) (by decide) rfl
theorem suspg (f : YF) : Statement (.suspg f) := of_y _ 0x10 f rfl (by decide) (by decide) rfl
theorem rsm (f : YF) : Statement (.rsm f) := of_y _ 0x11 f rfl (by decide) (by decide) rfl
theorem trap (f : YF) : Statement (.trap f) := of_y _ 0x12 f rfl (by decide) (by decide) rfl
theorem eret (f : YF) : Statement (.eret f) := of_y _ 0x13 f rfl (by decide) (by decide) rfl
theorem halt (f : YF) : Statement (.halt f) := of_y _ 0x14 f rfl (by decide) (by decide) rfl
theorem bkpt (f : YF) : Statement (.bkpt f) := of_y _ 0x15 f rfl (by decide) (by decide) rfl
theorem tileCycle : Statement .tileCycle := of_none _ rfl
theorem freezeEnd : Statement .freezeEnd := of_none _ rfl
theorem l1Fill : Statement .l1Fill := of_none _ rfl
theorem ownershipGrant : Statement .ownershipGrant := of_none _ rfl
theorem revocation : Statement .revocation := of_none _ rfl
theorem globalAtomicReturn : Statement .globalAtomicReturn := of_none _ rfl
theorem translationWalkEnd : Statement .translationWalkEnd := of_none _ rfl
theorem fetchLineArrival : Statement .fetchLineArrival := of_none _ rfl
theorem copyEmission : Statement .copyEmission := of_none _ rfl
theorem lateRowWrite : Statement .lateRowWrite := of_none _ rfl
theorem writeQueueRowWrite : Statement .writeQueueRowWrite := of_none _ rfl
theorem delayedSourceRead : Statement .delayedSourceRead := of_none _ rfl
theorem putRequest : Statement .putRequest := of_none _ rfl
theorem getRequest : Statement .getRequest := of_none _ rfl
theorem accumulateRequest : Statement .accumulateRequest := of_none _ rfl
theorem taggedAccumulate : Statement .taggedAccumulate := of_none _ rfl
theorem atomicRequest : Statement .atomicRequest := of_none _ rfl
theorem futureFill : Statement .futureFill := of_none _ rfl
theorem remoteApply : Statement .remoteApply := of_none _ rfl
theorem getData : Statement .getData := of_none _ rfl
theorem atomicOldValue : Statement .atomicOldValue := of_none _ rfl
theorem notices : Statement .notices := of_none _ rfl
theorem acknowledgementOnly : Statement .acknowledgementOnly := of_none _ rfl
theorem post : Statement .post := of_none _ rfl
theorem completion : Statement .completion := of_none _ rfl
theorem fenceArrival : Statement .fenceArrival := of_none _ rfl
theorem fenceDone : Statement .fenceDone := of_none _ rfl
theorem lockRequest : Statement .lockRequest := of_none _ rfl
theorem grant : Statement .grant := of_none _ rfl
theorem release : Statement .release := of_none _ rfl
theorem completionNoticeSend : Statement .completionNoticeSend := of_none _ rfl
theorem fenceArrivalSend : Statement .fenceArrivalSend := of_none _ rfl
theorem releaseSend : Statement .releaseSend := of_none _ rfl
theorem chamberQueueTimeout : Statement .chamberQueueTimeout := of_none _ rfl
theorem windowEntryFreed : Statement .windowEntryFreed := of_none _ rfl
theorem fabricSlot : Statement .fabricSlot := of_none _ rfl
theorem standingFlitArrival : Statement .standingFlitArrival := of_none _ rfl
theorem scheduledFlitArrival : Statement .scheduledFlitArrival := of_none _ rfl
theorem syncResult : Statement .syncResult := of_none _ rfl
theorem epoch : Statement .epoch := of_none _ rfl
theorem referenceLockLoss : Statement .referenceLockLoss := of_none _ rfl
theorem laneLock : Statement .laneLock := of_none _ rfl
theorem trainingTimeout : Statement .trainingTimeout := of_none _ rfl
theorem alignment : Statement .alignment := of_none _ rfl
theorem keyExchange : Statement .keyExchange := of_none _ rfl
theorem tableActivation : Statement .tableActivation := of_none _ rfl
theorem laneLockLoss : Statement .laneLockLoss := of_none _ rfl
theorem linkFailureTimeout : Statement .linkFailureTimeout := of_none _ rfl
theorem rekeyStart : Statement .rekeyStart := of_none _ rfl
theorem rekeyCommit : Statement .rekeyCommit := of_none _ rfl
theorem launchNotice : Statement .launchNotice := of_none _ rfl
theorem reservationRequest : Statement .reservationRequest := of_none _ rfl
theorem reservationGrant : Statement .reservationGrant := of_none _ rfl
theorem go : Statement .go := of_none _ rfl
theorem chunkStaging : Statement .chunkStaging := of_none _ rfl
theorem streamStaging : Statement .streamStaging := of_none _ rfl
theorem towpathPartial : Statement .towpathPartial := of_none _ rfl
theorem rootSlotCopy : Statement .rootSlotCopy := of_none _ rfl
theorem taskReady : Statement .taskReady := of_none _ rfl
theorem taskStart : Statement .taskStart := of_none _ rfl
theorem preemption : Statement .preemption := of_none _ rfl
theorem reachJobStart : Statement .reachJobStart := of_none _ rfl
theorem partNotReady : Statement .partNotReady := of_none _ rfl
theorem taskRetire : Statement .taskRetire := of_none _ rfl
theorem redirectSwitch : Statement .redirectSwitch := of_none _ rfl
theorem syncArrival : Statement .syncArrival := of_none _ rfl
theorem syncRestart : Statement .syncRestart := of_none _ rfl
theorem classMEvent : Statement .classMEvent := of_none _ rfl
theorem powerMeasurement : Statement .powerMeasurement := of_none _ rfl
theorem throttleEnd : Statement .throttleEnd := of_none _ rfl
theorem emergencyPowerStop : Statement .emergencyPowerStop := of_none _ rfl
theorem suspensionDrainEnd : Statement .suspensionDrainEnd := of_none _ rfl
theorem caskWritten : Statement .caskWritten := of_none _ rfl
theorem caskNoticeLanding : Statement .caskNoticeLanding := of_none _ rfl
theorem rsmClaim : Statement .rsmClaim := of_none _ rfl
theorem restoreComplete : Statement .restoreComplete := of_none _ rfl
theorem caskdupCopyDone : Statement .caskdupCopyDone := of_none _ rfl
theorem powerUp : Statement .powerUp := of_none _ rfl
theorem attestation : Statement .attestation := of_none _ rfl
theorem apertureRead : Statement .apertureRead := of_none _ rfl
theorem apertureWrite : Statement .apertureWrite := of_none _ rfl
theorem rootrec : Statement .rootrec := of_none _ rfl
theorem rootarm : Statement .rootarm := of_none _ rfl
theorem rpool : Statement .rpool := of_none _ rfl
theorem eqbase : Statement .eqbase := of_none _ rfl
theorem eqsize : Statement .eqsize := of_none _ rfl
theorem rjstart : Statement .rjstart := of_none _ rfl
theorem rjctlArm : Statement .rjctlArm := of_none _ rfl
theorem rjctlDisarm : Statement .rjctlDisarm := of_none _ rfl
theorem hostRegisterWrite : Statement .hostRegisterWrite := of_none _ rfl
theorem invalidatePage : Statement .invalidatePage := of_none _ rfl
theorem invalidateDomain : Statement .invalidateDomain := of_none _ rfl
theorem invalidateAll : Statement .invalidateAll := of_none _ rfl
theorem debugStop : Statement .debugStop := of_none _ rfl
theorem debugResume : Statement .debugResume := of_none _ rfl
theorem readState : Statement .readState := of_none _ rfl
theorem writeState : Statement .writeState := of_none _ rfl
theorem freeFailedTask : Statement .freeFailedTask := of_none _ rfl
theorem linkBringUp : Statement .linkBringUp := of_none _ rfl
theorem loadShadowDepartureTable : Statement .loadShadowDepartureTable := of_none _ rfl
theorem setCounter : Statement .setCounter := of_none _ rfl
theorem readCounter : Statement .readCounter := of_none _ rfl
theorem endReachJob : Statement .endReachJob := of_none _ rfl
theorem hostCommandDone : Statement .hostCommandDone := of_none _ rfl
theorem cmdOtherCode : Statement .cmdOtherCode := of_none _ rfl

end Sys2Proof.Laws.Encoding
end

