-- ==== Sys2Proof/Laws/Scalar.lean ====
section
/-! SUPPORT. The model's scalar functions on numbers are the functions on words that the claims name. -/

namespace Sys2Proof.Machine

open Sys2Proof.Claims

theorem sv_lt (x : Tile) (n : Nat) : x.sv n < 2 ^ 64 := (x.scalar n).d.isLt

theorem sv_eq_word (x : Tile) (n : BitVec 6) : x.sv n.toNat = (x.word n).toNat := by
  rw [Tile.word, BitVec.toNat_ofNat, Nat.mod_eq_of_lt (sv_lt x n.toNat)]

theorem sext_toNat {w : Nat} (hw : 0 < w) (a : BitVec w) : sext w a.toNat = a.toInt := by
  have h := a.isLt
  rw [BitVec.toInt_eq_toNat_cond, sext, Nat.mod_eq_of_lt h]
  have h2 : 2 ^ w = 2 * 2 ^ (w - 1) := by
    obtain ⟨k, rfl⟩ : ∃ k, w = k + 1 := ⟨w - 1, by omega⟩
    simp [Nat.pow_succ, Nat.mul_comm]
  have h3 : (w = 0) = False := by simp; omega
  have h4 : ((2 : Int) ^ w) = ((2 ^ w : Nat) : Int) := by push_cast; rfl
  simp only [h3, if_false, h4]
  split <;> split <;> omega

theorem s64_toNat (a : Word) : s64 a.toNat = a.toInt := sext_toNat (by decide) a

theorem wrapI_ofInt (w : Nat) (x : Int) : wrapI w x = (BitVec.ofInt w x).toNat := by
  rw [wrapI, BitVec.toNat_ofInt]
  norm_cast

theorem imm64_eq (f : SF) : imm64 f = (Claims.imm f).toNat := by
  rw [imm64, sext_toNat (by decide), wrapI_ofInt, Claims.imm, BitVec.signExtend]

theorem opAdd_eq (a b : Word) : opAdd a.toNat b.toNat = (a + b).toNat := by rw [opAdd, BitVec.toNat_add]

theorem opSub_eq (a b : Word) : opSub a.toNat b.toNat = (a - b).toNat := by
  rw [opSub, BitVec.toNat_sub]
  congr 1
  omega

theorem opMul_eq (a b : Word) : opMul a.toNat b.toNat = (a * b).toNat := by rw [opMul, BitVec.toNat_mul]

theorem opMulhi_eq (a b : Word) : opMulhi a.toNat b.toNat = (mulHiS a b).toNat := by
  have h : ((a.signExtend 128 * b.signExtend 128 : BitVec 128).toNat : Int) = a.toInt * b.toInt % 2 ^ 128 := by
    rw [BitVec.signExtend, BitVec.signExtend, ← BitVec.ofInt_mul, BitVec.toNat_ofInt]
    omega
  rw [opMulhi, s64_toNat, s64_toNat, mulHiS, wrapI, BitVec.truncate, BitVec.toNat_setWidth, BitVec.toNat_ushiftRight,
    Nat.shiftRight_eq_div_pow]
  omega

theorem opMulhn_eq (a b : Word) : opMulhn a.toNat b.toNat = (mulHiU a b).toNat := by
  have ha := a.isLt
  have hb := b.isLt
  have h : a.toNat * b.toNat < 2 ^ 64 * 2 ^ 64 := Nat.mul_lt_mul'' ha hb
  have ha' : a.toNat % 2 ^ 128 = a.toNat := Nat.mod_eq_of_lt (by omega)
  have hb' : b.toNat % 2 ^ 128 = b.toNat := Nat.mod_eq_of_lt (by omega)
  simp only [opMulhn, mulHiU, BitVec.truncate, BitVec.zeroExtend, BitVec.toNat_setWidth, BitVec.toNat_ushiftRight, BitVec.toNat_mul,
    Nat.shiftRight_eq_div_pow, ha', hb']
  omega

theorem opDivi_eq (a b : Word) : opDivi a.toNat b.toNat = (quotS a b).toNat := by
  rw [opDivi, quotS, s64_toNat, s64_toNat, wrapI_ofInt]
  by_cases h : b = 0
  · subst h; simp
  · have : b.toNat ≠ 0 := fun e => h (BitVec.eq_of_toNat_eq e)
    rw [if_neg this, if_neg h]
    congr 1
    apply BitVec.eq_of_toInt_eq
    rw [BitVec.toInt_sdiv, BitVec.toInt_ofInt]

theorem opDivn_eq (a b : Word) : opDivn a.toNat b.toNat = (quotU a b).toNat := by
  rw [opDivn, quotU]
  by_cases h : b = 0
  · subst h; simp
  · have : b.toNat ≠ 0 := fun e => h (BitVec.eq_of_toNat_eq e)
    rw [if_neg this, if_neg h, BitVec.toNat_udiv]

theorem opRemi_eq (a b : Word) : opRemi a.toNat b.toNat = (remS a b).toNat := by
  rw [opRemi, remS, s64_toNat, s64_toNat, wrapI_ofInt]
  by_cases h : b = 0
  · subst h; simp
  · have : b.toNat ≠ 0 := fun e => h (BitVec.eq_of_toNat_eq e)
    rw [if_neg this, if_neg h]
    rw [← BitVec.toInt_srem, BitVec.ofInt_toInt]

theorem opRemn_eq (a b : Word) : opRemn a.toNat b.toNat = (remU a b).toNat := by
  rw [opRemn, remU]
  by_cases h : b = 0
  · subst h; simp
  · have : b.toNat ≠ 0 := fun e => h (BitVec.eq_of_toNat_eq e)
    rw [if_neg this, if_neg h, BitVec.toNat_umod]

theorem opAnd_eq (a b : Word) : opAnd a.toNat b.toNat = (a &&& b).toNat := by rw [opAnd, BitVec.toNat_and]

theorem opOr_eq (a b : Word) : opOr a.toNat b.toNat = (a ||| b).toNat := by rw [opOr, BitVec.toNat_or]

theorem opXor_eq (a b : Word) : opXor a.toNat b.toNat = (a ^^^ b).toNat := by rw [opXor, BitVec.toNat_xor]

theorem opAndn_eq (w : Nat) (a b : BitVec w) : opAndn w a.toNat b.toNat = (a &&& ~~~b).toNat := by
  rw [opAndn, BitVec.toNat_and, Nat.mod_eq_of_lt b.isLt]
  congr 1
  rw [← BitVec.toNat_allOnes, ← BitVec.toNat_xor, BitVec.xor_allOnes]

theorem opShl_eq (a b : Word) : opShl a.toNat b.toNat = (a <<< b).toNat := by
  rw [opShl, BitVec.shiftLeft_eq', BitVec.toNat_shiftLeft]
  split
  · rename_i h
    symm
    obtain ⟨k, hk⟩ := Nat.exists_eq_add_of_le h
    rw [hk, Nat.shiftLeft_eq, Nat.pow_add, ← Nat.mul_assoc, Nat.mul_right_comm]
    exact Nat.mul_mod_left _ _
  · rfl

theorem opShr_eq (a b : Word) : opShr a.toNat b.toNat = (a >>> b).toNat := by
  rw [opShr, BitVec.ushiftRight_eq', BitVec.toNat_ushiftRight]
  split
  · rename_i h
    symm
    rw [Nat.shiftRight_eq_div_pow]
    apply Nat.div_eq_of_lt
    exact lt_of_lt_of_le a.isLt (Nat.pow_le_pow_right (by decide) h)
  · rfl

theorem opSra_eq (a b : Word) : opSra a.toNat b.toNat = (a.sshiftRight b.toNat).toNat := by
  rw [opSra, s64_toNat, wrapI_ofInt, ← BitVec.ofInt_toInt (x := a.sshiftRight b.toNat), BitVec.toInt_sshiftRight, Int.shiftRight_eq_div_pow]
  have hl : -2 ^ 63 ≤ a.toInt := BitVec.le_toInt a
  have hu : a.toInt < 2 ^ 63 := BitVec.toInt_lt
  by_cases h : b.toNat ≤ 64
  · rw [Nat.min_eq_left h]; norm_cast
  · have h64 : (64 : Nat) ≤ b.toNat := by omega
    rw [Nat.min_eq_right h64]
    have hp : (2 : Int) ^ 64 ≤ 2 ^ b.toNat := by exact_mod_cast Nat.pow_le_pow_right (by decide : 0 < 2) h64
    congr 2
    push_cast
    by_cases hs : a.toInt < 0
    · have h1 : a.toInt / 2 ^ 64 = -1 := by omega
      have h2 : a.toInt / (2 : Int) ^ b.toNat = -1 := by
        rw [Int.ediv_eq_iff_of_pos (by positivity)]
        constructor <;> omega
      exact h1.trans h2.symm
    · rw [Int.ediv_eq_zero_of_lt (by omega) (by omega), Int.ediv_eq_zero_of_lt (by omega) (by omega)]

theorem opRol_eq (a b : Word) : opRol a.toNat b.toNat = (a.rotateLeft (b.toNat % 64)).toNat := by
  rw [opRol, rolW, BitVec.toNat_rotateLeft]
  simp only [Nat.mod_mod]
  rw [Nat.or_mod_two_pow]
  congr 1
  apply Nat.mod_eq_of_lt
  exact lt_of_le_of_lt (Nat.shiftRight_le _ _) a.isLt

theorem opMini_eq (a b : Word) : opMini a.toNat b.toNat = (if a.slt b then a else b).toNat := by
  rw [opMini, s64_toNat, s64_toNat, BitVec.slt]
  by_cases h : a.toInt < b.toInt
  · simp [h, le_of_lt h]
  · by_cases h2 : a.toInt = b.toInt
    · have : a = b := BitVec.eq_of_toInt_eq h2
      subst this; simp
    · have : ¬ a.toInt ≤ b.toInt := by omega
      simp [h, this]

theorem opMaxi_eq (a b : Word) : opMaxi a.toNat b.toNat = (if a.slt b then b else a).toNat := by
  rw [opMaxi, s64_toNat, s64_toNat, BitVec.slt]
  by_cases h : a.toInt < b.toInt
  · simp [h, le_of_lt h]
  · by_cases h2 : a.toInt = b.toInt
    · have : a = b := BitVec.eq_of_toInt_eq h2
      subst this; simp
    · have : ¬ a.toInt ≤ b.toInt := by omega
      simp [h, this]

theorem opMinn_eq (a b : Word) : opMinn a.toNat b.toNat = (if a.ult b then a else b).toNat := by
  rw [opMinn, BitVec.ult]
  by_cases h : a.toNat < b.toNat
  · simp [h, le_of_lt h]
  · simp [h, Nat.le_of_not_lt h]

theorem opMaxn_eq (a b : Word) : opMaxn a.toNat b.toNat = (if a.ult b then b else a).toNat := by
  rw [opMaxn, BitVec.ult]
  by_cases h : a.toNat < b.toNat
  · simp [h, le_of_lt h]
  · simp [h, Nat.le_of_not_lt h]

theorem bfPos_eq (b : Word) : bfPos b.toNat = fieldPos b := by
  simp [bfPos, fieldPos, bits]

theorem bfLen_eq (b : Word) : bfLen b.toNat = fieldLen b := by
  rw [bfLen, fieldLen, bfPos_eq, BitVec.extractLsb'_toNat, bits]

theorem lowOnes_toNat (n : Nat) (h : n ≤ 64) : (lowOnes n).toNat = 2 ^ n - 1 := by
  rw [lowOnes, BitVec.toNat_sub, BitVec.toNat_shiftLeft, Nat.shiftLeft_eq]
  rcases Nat.lt_or_eq_of_le h with h | rfl
  · have h1 : 2 ^ n < 2 ^ 64 := Nat.pow_lt_pow_right (by decide) h
    have h2 : 0 < 2 ^ n := by positivity
    have h3 : (1 : Word).toNat = 1 := rfl
    rw [h3]
    omega
  · decide

theorem fieldLen_le (b : Word) : fieldLen b + fieldPos b ≤ 64 := by
  have : fieldPos b < 64 := (b.extractLsb' 0 6).isLt
  unfold fieldLen
  omega

theorem opBfx_eq (a b : Word) : opBfx a.toNat b.toNat = (fieldOf a b).toNat := by
  have h := fieldLen_le b
  rw [opBfx, fieldOf, bfPos_eq, bfLen_eq, BitVec.toNat_and, lowOnes_toNat _ (by omega), BitVec.toNat_ushiftRight,
    Nat.and_two_pow_sub_one_eq_mod, bits]

theorem opBfi_eq (d a b : Word) : opBfi d.toNat a.toNat b.toNat = (fieldInto d a b).toNat := by
  have h := fieldLen_le b
  have hm : (lowOnes (fieldLen b) <<< fieldPos b).toNat = (2 ^ fieldLen b - 1) <<< fieldPos b := by
    rw [BitVec.toNat_shiftLeft, lowOnes_toNat _ (by omega), Nat.mod_eq_of_lt]
    rw [Nat.shiftLeft_eq, Nat.sub_mul, ← Nat.pow_add]
    have h1 : 2 ^ (fieldLen b + fieldPos b) ≤ 2 ^ 64 := Nat.pow_le_pow_right (by decide) h
    have h2 : 0 < 2 ^ fieldPos b := by positivity
    omega
  rw [opBfi, fieldInto, bfPos_eq, bfLen_eq, BitVec.toNat_or, BitVec.toNat_and, BitVec.toNat_and, ← hm]
  congr 1
  · rw [← BitVec.toNat_allOnes, ← BitVec.toNat_xor, BitVec.xor_allOnes]
  · rw [hm, BitVec.toNat_shiftLeft]
    apply Nat.eq_of_testBit_eq
    intro i
    simp only [bits, Nat.testBit_shiftLeft, Nat.testBit_and, Nat.testBit_mod_two_pow, Nat.testBit_shiftRight,
      Nat.testBit_two_pow_sub_one]
    by_cases hi : fieldPos b ≤ i
    · simp only [hi, decide_true, Bool.true_and, Nat.zero_add]
      by_cases hl : i - fieldPos b < fieldLen b
      · have : i < 64 := by omega
        simp [hl, this]
      · simp [hl]
    · simp [hi]

theorem clip_eq (x : Int) (h1 : -(2 ^ 64) ≤ x) (h2 : x < 2 ^ 64) : satI64 x = (clip (BitVec.ofInt 65 x)).toNat := by
  have hx : (BitVec.ofInt 65 x).toInt = x := by
    rw [BitVec.toInt_ofInt]
    apply Int.bmod_eq_of_le <;> omega
  have hmin : (BitVec.signExtend 65 (BitVec.intMin 64)).toInt = -(2 ^ 63) := by decide
  have hmax : (BitVec.signExtend 65 (BitVec.intMax 64)).toInt = 2 ^ 63 - 1 := by decide
  simp only [satI64, clip, BitVec.slt, hx, hmin, hmax, decide_eq_true_eq]
  by_cases hl : x < -(2 ^ 63)
  · rw [if_pos hl, Int.min_eq_left (by omega), Int.max_eq_left (by omega)]; decide
  · rw [if_neg hl]
    by_cases hu : 2 ^ 63 - 1 < x
    · rw [if_pos hu, Int.min_eq_right (by omega)]; decide
    · rw [if_neg hu, Int.min_eq_left (by omega), Int.max_eq_right (by omega), wrapI, BitVec.truncate, BitVec.toNat_setWidth,
        BitVec.toNat_ofInt]
      omega

theorem opAdds_eq (a b : Word) : opAdds a.toNat b.toNat = (addSat a b).toNat := by
  have h1 := BitVec.le_toInt a
  have h2 := BitVec.le_toInt b
  have h3 : a.toInt < 2 ^ 63 := BitVec.toInt_lt
  have h4 : b.toInt < 2 ^ 63 := BitVec.toInt_lt
  rw [opAdds, s64_toNat, s64_toNat, clip_eq _ (by omega) (by omega), addSat, BitVec.ofInt_add]
  rfl

theorem opSubs_eq (a b : Word) : opSubs a.toNat b.toNat = (subSat a b).toNat := by
  have h1 := BitVec.le_toInt a
  have h2 := BitVec.le_toInt b
  have h3 : a.toInt < 2 ^ 63 := BitVec.toInt_lt
  have h4 : b.toInt < 2 ^ 63 := BitVec.toInt_lt
  have h : BitVec.ofInt 65 (a.toInt - b.toInt) = a.signExtend 65 - b.signExtend 65 := by
    rw [Int.sub_eq_add_neg, BitVec.ofInt_add, BitVec.ofInt_neg, ← BitVec.sub_eq_add_neg]
    rfl
  rw [opSubs, s64_toNat, s64_toNat, clip_eq _ (by omega) (by omega), subSat, h]

theorem opCmp_eq (cc : BitVec 5) (a b : Word) (h : cc.toNat ≤ 9) : opCmp cc.toNat a.toNat b.toNat = holds cc a b := by
  have hn : (a.toNat == b.toNat) = (a == b) := by
    by_cases h : a = b
    · subst h; simp
    · have : a.toNat ≠ b.toNat := fun e => h (BitVec.eq_of_toNat_eq e)
      simp [h, this]
  generalize hk : cc.toNat = k at h
  simp only [opCmp, holds, s64_toNat, hk]
  interval_cases k <;>
    simp only [hn, bne, BitVec.slt, BitVec.sle, BitVec.ult, BitVec.ule, ge_iff_le, gt_iff_lt]

theorem opSext_eq (k : BitVec 6) (a : Word) : opSext k.toNat a.toNat = ((a <<< (63 - k.toNat)).sshiftRight (63 - k.toNat)).toNat := by
  have hk : k.toNat < 64 := k.isLt
  have ha := a.isLt
  rw [opSext, wrapI_ofInt, ← BitVec.ofInt_toInt (x := (a <<< (63 - k.toNat)).sshiftRight (63 - k.toNat)), BitVec.toInt_sshiftRight,
    BitVec.toInt_eq_toNat_cond, BitVec.toNat_shiftLeft, Int.shiftRight_eq_div_pow, Nat.shiftLeft_eq]
  congr 2
  generalize a.toNat = n at *
  generalize k.toNat = j at *
  interval_cases j <;> simp only [sext] <;> omega

theorem foldl_or_testBit (p : Nat → Bool) (g : Nat → Nat) (n x j : Nat) :
    ((List.range n).foldl (fun x i => if p i then x ||| (1 <<< g i) else x) x).testBit j =
      (x.testBit j || (List.range n).any fun i => p i && g i == j) := by
  induction n with
  | zero => simp
  | succ n ih =>
    rw [List.range_succ, List.foldl_append, List.any_append, List.foldl_cons, List.foldl_nil]
    by_cases h : p n
    · rw [if_pos h, Nat.testBit_or, ih, Nat.one_shiftLeft, Nat.testBit_two_pow]
      simp [h, Bool.or_assoc, BEq.beq]
    · rw [if_neg h, ih]
      simp [h]

theorem opBrev_eq (a : Word) : opBrev a.toNat = a.reverse.toNat := by
  apply Nat.eq_of_testBit_eq
  intro j
  rw [opBrev, foldl_or_testBit, Nat.zero_testBit, Bool.false_or, ← BitVec.getLsbD, BitVec.getLsbD_reverse, BitVec.getMsbD]
  by_cases hj : j < 64
  · simp only [hj, decide_true, Bool.true_and]
    rw [Bool.eq_iff_iff]
    simp only [List.any_eq_true, List.mem_range, Bool.and_eq_true, beq_iff_eq, bit]
    constructor
    · rintro ⟨i, hi, h, rfl⟩
      rw [BitVec.getLsbD]
      convert h using 1
      congr 1
      omega
    · intro h
      refine ⟨63 - j, by omega, ?_, by omega⟩
      rw [BitVec.getLsbD] at h
      convert h using 1
  · simp only [hj, decide_false, Bool.false_and]
    rw [List.any_eq_false]
    intro i hi
    simp only [Bool.and_eq_true, beq_iff_eq, not_and]
    omega

theorem countBits_eq {w : Nat} (a : BitVec w) (n : Nat) : ((List.range n).filter fun i => bit a.toNat i).length = a.cpopNatRec n 0 := by
  induction n with
  | zero => rfl
  | succ n ih =>
    rw [List.range_succ, List.filter_append, List.length_append, ih, BitVec.cpopNatRec_succ, BitVec.cpopNatRec_eq (acc := 0 + _)]
    cases h : a.getLsbD n <;> simp [bit, BitVec.getLsbD] at h ⊢ <;> simp [h]

theorem opPopc_eq {w : Nat} (a : BitVec w) : opPopc w a.toNat = a.cpop.toNat := by
  rw [opPopc, BitVec.toNat_cpop, countBits_eq]

theorem topBit_clz (a : Word) (n : Nat) (h : n < 64) :
    (match topBit (n + 1) a.toNat with | none => 64 | some i => 63 - i) = (a.clzAuxRec n).toNat := by
  induction n with
  | zero =>
    rw [BitVec.clzAuxRec_zero]
    cases hb : a.getLsbD 0 <;> simp [topBit, bit, List.range_succ, BitVec.getLsbD] at hb ⊢ <;> simp [hb]
  | succ n ih =>
    have ih := ih (by omega)
    rw [BitVec.clzAuxRec_succ]
    cases hb : a.getLsbD (n + 1)
    · have : bit a.toNat (n + 1) = false := hb
      simpa [topBit, List.range_succ (n := n + 1), this] using ih
    · have : bit a.toNat (n + 1) = true := hb
      simp [topBit, List.range_succ (n := n + 1), this]
      omega

theorem opClz_eq (a : Word) : opClz 64 a.toNat = a.clz.toNat := by
  exact (topBit_clz a 63 (by decide)).trans (by rw [BitVec.clz])

theorem opCtz_eq (a : Word) : opCtz a.toNat = a.ctz.toNat := by
  have hr : (List.range 64).reverse = (List.range 64).map fun i => 63 - i := by decide
  have hb : ∀ i ∈ List.range 64, bit a.reverse.toNat (63 - i) = bit a.toNat i := by
    intro i hi
    have hi := List.mem_range.mp hi
    change a.reverse.getLsbD (63 - i) = a.getLsbD i
    rw [BitVec.getLsbD_reverse, BitVec.getMsbD]
    have h1 : 63 - i < 64 := by omega
    have h2 : 64 - 1 - (63 - i) = i := by omega
    simp [h1, h2]
  have hf : (List.range 64).find? ((fun i => bit a.reverse.toNat i) ∘ fun i => 63 - i) = (List.range 64).find? fun i => bit a.toNat i :=
    List.find?_congr fun i hi => hb i hi
  rw [BitVec.ctz, ← opClz_eq, opClz, opCtz, topBit, lowBit, hr, List.find?_map, hf]
  cases h : (List.range 64).find? fun i => bit a.toNat i with
  | none => rfl
  | some i =>
    have := List.mem_range.mp (List.mem_of_find?_eq_some h)
    simp
    omega

end Sys2Proof.Machine
end

