-- ==== Sys2Proof/Laws/Vector.lean ====
section
/-! SUPPORT. Vector operands, masks and results as functions of the element's number. -/

namespace Sys2Proof.Machine

open Sys2Proof.Claims Sys2Proof.Check

theorem vElems_length (x : Tile) (n w : Nat) : (x.vElems n w).length = 2048 / w := by
  unfold Tile.vElems elems bcast
  split <;> simp

theorem vElems_eq (x : Tile) (n : BitVec 9) (w : Nat) : x.vElems n.toNat w = (List.range (2048 / w)).map (el x n w) := by
  apply List.ext_getElem
  · simp [vElems_length]
  · intro i h1 h2
    simp [el, List.getD_eq_getElem?_getD, List.getElem?_eq_getElem h1]

theorem vActive_eq (x : Tile) (f : VF) (w : Nat) : x.vActive f w = (List.range (2048 / w)).map (active x f w) := rfl

theorem zipWith_range {α β γ : Type} (n : Nat) (k : α → β → γ) (g : Nat → α) (h : Nat → β) :
    List.zipWith k ((List.range n).map g) ((List.range n).map h) = (List.range n).map fun i => k (g i) (h i) := by
  rw [List.zipWith_map, List.zipWith_self]

theorem vOut_eq (x : Tile) (f : VF) (w : Nat) (g : Nat → Nat) :
    vOut (x.vActive f w) f.z ((List.range (2048 / w)).map g) = masked x f w g := by
  rw [vActive_eq, vOut, zipWith_range, masked]

theorem vFlags_eq (x : Tile) (f : VF) (w : Nat) (g : Nat → Res) :
    vFlags (x.vActive f w) ((List.range (2048 / w)).map g) = (List.range (2048 / w)).map fun i => if active x f w i then (g i).2 else 0 := by
  rw [vActive_eq, vFlags, zipWith_range]

/-- An element-wise instruction whose sources are good. -/
theorem vElementwise_lands (s : State) (i : Instr) (f : VF) (lat : Nat) (srcs : List (Nat × Nat)) (g : Nat → Res) (hw : i.wf = true)
    (hs : ∀ o ∈ srcs, ∃ n : BitVec 9, o.2 = n.toNat ∧ s.tile.GoodV n) :
    s.vElementwise i f lat srcs ((List.range (2048 / vw f)).map g) = .next (vLands s f (vw f) lat f.type.toNat g) := by
  refine (issueSlot_wf _ _ _ _ _ hw rfl ?_).trans ?_
  · rw [List.flatMap_eq_nil_iff]
    intro o ho
    obtain ⟨n, hn, hg⟩ := hs o ho
    rw [hn]
    exact vConsume_good _ _ _ _ _ _ hg
  · rw [vLands, List.map_map]
    change Host.Outcome.next ((s.vLandF f lat f.type.toNat (vWrite f (vw f) (vOut (s.tile.vActive f (vw f)) f.z ((List.range (2048 / vw f)).map fun i => (g i).1))) (vFlags (s.tile.vActive f (vw f)) ((List.range (2048 / vw f)).map g))).note Issued.acted) = _
    rw [vOut_eq, vFlags_eq]

theorem vOp1_lands (s : State) (i : Instr) (f : VF) (lat : Nat) (g : Nat → Res) (hw : i.wf = true) (ha : s.tile.GoodV f.a) :
    s.vOp1 i f lat g = .next (vLands s f (vw f) lat f.type.toNat fun i => g (el s.tile f.a (vw f) i)) := by
  rw [State.vOp1]
  change s.vElementwise i f lat [(0, f.a.toNat)] ((s.tile.vElems f.a.toNat (vw f)).map g) = _
  rw [vElems_eq, List.map_map]
  exact vElementwise_lands s i f lat _ _ hw (by simp; exact ⟨f.a, rfl, ha⟩)

theorem vOp2_lands (s : State) (i : Instr) (f : VF) (lat : Nat) (g : Nat → Nat → Res) (hw : i.wf = true) (ha : s.tile.GoodV f.a)
    (hb : s.tile.GoodV f.b) :
    s.vOp2 i f lat g = .next (vLands s f (vw f) lat f.type.toNat fun i => g (el s.tile f.a (vw f) i) (el s.tile f.b (vw f) i)) := by
  change s.vElementwise i f lat [(0, f.a.toNat), (1, f.b.toNat)]
    (List.zipWith g (s.tile.vElems f.a.toNat (vw f)) (s.tile.vElems f.b.toNat (vw f))) = _
  rw [vElems_eq, vElems_eq, zipWith_range]
  refine vElementwise_lands s i f lat _ _ hw ?_
  simp only [List.mem_cons, List.not_mem_nil, or_false, forall_eq_or_imp, forall_eq]
  exact ⟨⟨f.a, rfl, ha⟩, ⟨f.b, rfl, hb⟩⟩

theorem vOp3_lands (s : State) (i : Instr) (f : VF) (lat : Nat) (g : Nat → Nat → Nat → Res) (hw : i.wf = true) (ha : s.tile.GoodV f.a)
    (hb : s.tile.GoodV f.b) (hc : s.tile.GoodV f.c) :
    s.vOp3 i f lat g = .next (vLands s f (vw f) lat f.type.toNat fun i =>
      g (el s.tile f.a (vw f) i) (el s.tile f.b (vw f) i) (el s.tile f.c (vw f) i)) := by
  change s.vElementwise i f lat [(0, f.a.toNat), (1, f.b.toNat), (2, f.c.toNat)]
    (List.zipWith (fun h c => h c) (List.zipWith g (s.tile.vElems f.a.toNat (vw f)) (s.tile.vElems f.b.toNat (vw f)))
      (s.tile.vElems f.c.toNat (vw f))) = _
  rw [vElems_eq, vElems_eq, vElems_eq, zipWith_range, zipWith_range]
  refine vElementwise_lands s i f lat _ _ hw ?_
  simp only [List.mem_cons, List.not_mem_nil, or_false, forall_eq_or_imp, forall_eq]
  exact ⟨⟨f.a, rfl, ha⟩, ⟨f.b, rfl, hb⟩, ⟨f.c, rfl, hc⟩⟩

/-- An element of a source is less than two to its width. -/
theorem el_lt (x : Tile) (n : BitVec 9) (w i : Nat) : el x n w i < 2 ^ w := by
  have hp : 0 < 2 ^ w := by positivity
  have h : ∀ e ∈ x.vElems n.toNat w, e < 2 ^ w := by
    intro e he
    unfold Tile.vElems at he
    split at he
    · simp only [elems, List.mem_map, bits] at he
      obtain ⟨_, _, rfl⟩ := he
      exact Nat.mod_lt _ hp
    · simp only [bcast, List.mem_replicate] at he
      rw [he.2]
      exact Nat.mod_lt _ hp
  rw [el, List.getD_eq_getElem?_getD]
  rcases Nat.lt_or_ge i (x.vElems n.toNat w).length with hi | hi
  · rw [List.getElem?_eq_getElem hi]
    exact h _ (List.getElem_mem hi)
  · rw [List.getElem?_eq_none hi]
    exact hp

end Sys2Proof.Machine
end

