-- ==== Sys2Proof/Tests/Slice0.lean ====
section
/-! SUPPORT. Tests: terms that the encoding checks refuse, words of the spec, single steps, and a witness for the hypotheses of every
statement that has some. -/

namespace Sys2Proof.Tests

open Sys2Proof Sys2Proof.Machine Sys2Proof.Claims Sys2Proof.Check

set_option maxRecDepth 100000
set_option exponentiation.threshold 5000

/-! ## Ill-formed terms, one or more for each kind of check (R111, R128): each is refused -/

def sf (d a b : BitVec 6) : SF := { imm32 := 0, neg := false, pq := 0, b := b, a := a, d := d }
def vf (type : BitVec 5) (d a b c : BitVec 9) : VF :=
  { v1 := false, imm16 := 0, z := false, n := false, sub := 0, sat := false, rnd := 0, type := type, pred := 0, c := c, b := b, a := a, d := d }
def mf (rows : BitVec 9) (abase : BitVec 6) : MF :=
  { start := 0, sat := false, sgnB := false, sgnA := false, zrow0 := 0, pitch := 0, rows := rows, abase := abase, w := 0, z := 0 }
def lf (type : BitVec 5) (d : BitVec 9) (base : BitVec 6) : LF :=
  { res := false, n := false, z := false, tagchk := false, tag := 0, pred := 0, x := 0, type := type, imm15 := 0, base := base, d := d }
def tf (type : BitVec 5) (data : BitVec 9) (base : BitVec 6) : TF :=
  { hi := 0, sc := 0, pred := 0, type := type, imm11 := 0, base := base, data := data }
def cf (d a b c : BitVec 6) : CF := { imm20 := 0, x := 0, c := c, b := b, a := a, d := d, neg := false, pred := 0 }
def yf (arg : BitVec 20) : YF := { arg := arg, neg := false, pred := 0 }

/-- S slot: the immediate of a register form, a predicate above p31, an unused source, a condition code above 9, a special register
that does not exist or is read-only, the reserved bits of SEXT, a target of RINJ that does not exist. -/
theorem test_illFormed_scalar :
    (Instr.add { sf 1 2 3 with imm32 := 1 }).wf = false ∧ (Instr.cmp (sf 32 1 2)).wf = false ∧ (Instr.pand (sf 1 32 2)).wf = false ∧
    (Instr.movi (sf 1 2 0)).wf = false ∧ (Instr.addImmediate (sf 1 2 3)).wf = false ∧ (Instr.cmp { sf 1 2 3 with pq := 10 }).wf = false ∧
    (Instr.cmp { sf 1 2 3 with neg := true }).wf = false ∧ (Instr.mfsr { sf 1 0 0 with imm32 := 0xFFF }).wf = false ∧
    (Instr.mtsr { sf 0 1 0 with imm32 := 6 }).wf = false ∧ (Instr.sext { sf 1 2 0 with imm32 := 64 }).wf = false ∧
    (Instr.rinj { sf 0 1 2 with imm32 := 4 * 512 }).wf = false := by decide

/-- V slots: a register above v319 or a latch as a destination, an operand code that names nothing, a type that is not admitted, a
rounding or saturation where there is none, sub bits, imm16 bits, zeroing of a predicate, a V1 instruction in V0, a part of VCVT. -/
theorem test_illFormed_vector :
    (Instr.vadd (vf 4 320 1 2 0)).wf = false ∧ (Instr.vadd (vf 4 1 325 2 0)).wf = false ∧ (Instr.vadd (vf 4 1 2 3 4)).wf = false ∧
    (Instr.vadd (vf 11 1 2 3 0)).wf = false ∧ (Instr.vadd { vf 4 1 2 3 0 with rnd := 1 }).wf = false ∧
    (Instr.vadd { vf 4 1 2 3 0 with sat := true }).wf = false ∧ (Instr.vadd { vf 4 1 2 3 0 with sub := 1 }).wf = false ∧
    (Instr.vadd { vf 4 1 2 3 0 with imm16 := 1 }).wf = false ∧ (Instr.vsel { vf 4 1 2 3 0 with z := true }).wf = false ∧
    (Instr.vrcp (vf 10 1 2 0 0)).wf = false ∧ (Instr.vcvt { vf 10 1 2 0 0 with imm16 := 10 + 2 * 32 }).wf = false ∧
    (Instr.vfma (vf 4 1 2 3 4)).wf = false ∧ (Instr.vclass { vf 10 32 2 0 0 with imm16 := 1 }).wf = false ∧
    (Instr.vred { vf 4 1 2 0 0 with z := true }).wf = false := by decide

/-- M slot: no rows or too many, and each field that an instruction does not use. -/
theorem test_illFormed_matrix :
    (Instr.mma (mf 0 4)).wf = false ∧ (Instr.mma { mf 16 4 with rows := 129 }).wf = false ∧ (Instr.mzero { mf 16 0 with w := 1 }).wf = false ∧
    (Instr.mzero (mf 16 4)).wf = false ∧ (Instr.mzset { mf 16 4 with pitch := 1 }).wf = false ∧
    (Instr.mrowsum { mf 16 4 with z := 1 }).wf = false ∧ (Instr.mzld { mf 16 4 with sgnA := true }).wf = false ∧
    (Instr.mrowsum { mf 16 4 with sgnB := true }).wf = false ∧ (Instr.mdrain { mf 16 4 with sat := true }).wf = false ∧
    (Instr.mldb { mf 16 4 with zrow0 := 1 }).wf = false ∧ (Instr.mxsave { mf 0 9 with start := 1 }).wf = false := by decide

/-- L slot: bit 63, the destination's kind, the type, a tag without its check, zeroing of a scalar, an end predicate above p31. -/
theorem test_illFormed_load :
    (Instr.vld { lf 10 1 2 with res := true }).wf = false ∧ (Instr.vld (lf 10 330 2)).wf = false ∧ (Instr.vld (lf 13 1 2)).wf = false ∧
    (Instr.vld { lf 10 1 2 with tag := 1 }).wf = false ∧ (Instr.lds { lf 4 330 2 with z := true }).wf = false ∧
    (Instr.lds (lf 4 1 2)).wf = false ∧ (Instr.pld (lf 0 32 2)).wf = false ∧ (Instr.pld (lf 1 3 2)).wf = false ∧
    (Instr.gld { lf 4 330 2 with tagchk := true }).wf = false ∧ (Instr.ppop { lf 0 1 3 with x := 32 }).wf = false := by decide

/-- T slot: the data register's kind, the type, the high fields of a store, the index of VSTX, the scope of an atomic, GFLUSH's fields. -/
theorem test_illFormed_store :
    (Instr.vst (tf 10 324 2)).wf = false ∧ (Instr.vst (tf 13 1 2)).wf = false ∧ (Instr.vst { tf 10 1 2 with sc := 1 }).wf = false ∧
    (Instr.vst { tf 10 1 2 with hi := 1 }).wf = false ∧ (Instr.sts (tf 4 1 2)).wf = false ∧ (Instr.pst (tf 0 32 2)).wf = false ∧
    (Instr.vsts { tf 10 1 2 with imm11 := 64 }).wf = false ∧ (Instr.vstx { tf 10 1 2 with imm11 := 324 }).wf = false ∧
    (Instr.aadd { tf 4 1 2 with sc := 5 }).wf = false ∧ (Instr.aadd (tf 0 1 2)).wf = false ∧ (Instr.gflush (tf 0 4 2)).wf = false ∧
    (Instr.ppush (tf 1 1 2)).wf = false := by decide

/-- C slot: unused operand fields, a level above 5, path 3's types, CGO.res with tensor fields, lengths, types and modes. -/
theorem test_illFormed_control :
    (Instr.cloop (cf 1 4 5 6)).wf = false ∧ (Instr.cloop { cf 0 4 5 6 with x := 12 }).wf = false ∧
    (Instr.cbase { cf 0 4 5 6 with imm20 := 3 }).wf = false ∧ (Instr.cgo { cf 1 0 0 0 with x := 2 }).wf = false ∧
    (Instr.cstop (cf 0 1 0 0)).wf = false ∧ (Instr.cquery { cf 1 0 0 0 with x := 10 }).wf = false ∧
    (Instr.tbind { cf 1 0 0 0 with imm20 := 320 }).wf = false ∧ (Instr.tflush { cf 0 1 0 0 with x := 6 }).wf = false ∧
    (Instr.wput (cf 0 1 2 3)).wf = false ∧ (Instr.wput { cf 0 1 2 3 with imm20 := 4 + 13 * 32768 }).wf = false ∧
    (Instr.wput { cf 32 1 2 3 with imm20 := 4 }).wf = false ∧ (Instr.htest { cf 0 0 0 32 with x := 0 }).wf = false ∧
    (Instr.pbind { cf 1 2 0 0 with x := 3 }).wf = false ∧ (Instr.caskdup (cf 1 2 3 4)).wf = false ∧ (Instr.hinit (cf 0 1 0 0)).wf = false := by
  decide

/-- Y slot: the code of BRS, unused operand fields, a loop body under 2 bundles, SYNC's fields, WAITH's level, FENCE's kind and scope. -/
theorem test_illFormed_sequencer :
    (Instr.brs (yf (6 * 64))).wf = false ∧ (Instr.jr (yf 64)).wf = false ∧ (Instr.ret (yf 1)).wf = false ∧ (Instr.loop (yf 0x01004)).wf = false ∧
    (Instr.loopi (yf 0x01004)).wf = false ∧ (Instr.sync (yf 0x00001)).wf = false ∧ (Instr.waith (yf 0x06000)).wf = false ∧
    (Instr.waitc (yf 0x01000)).wf = false ∧ (Instr.fence (yf 0)).wf = false ∧ (Instr.fence (yf (2 + 5 * 4))).wf = false ∧
    (Instr.yield (yf 1)).wf = false ∧ (Instr.susp (yf 0x04000)).wf = false ∧ (Instr.suspg (yf 0x02000)).wf = false ∧
    (Instr.trap (yf 0x10000)).wf = false ∧ (Instr.bkpt (yf 1)).wf = false ∧ (Instr.halt (yf 1)).wf = false := by decide

/-- A bundle: VER other than 1, a reserved header bit, a slot with an opcode of no instruction, a NOP with a field. -/
theorem test_illFormed_bundle :
    headerErrs 0x0000 ≠ [] ∧ headerErrs 0x1400 ≠ [] ∧ headerErrs 0x1000 = [] ∧
    (decodeSlot 7 0x3F).toOption = none ∧ (decodeSlot 7 0x40).toOption = none ∧ (decodeSlot 7 0).toOption = some (.nop 7) := by decide

/-! ## Words of the spec -/

/-- R158, R162, R112: `mul s4, s3, s3`, `mfsr s5, tcyc`, and the immediate ADD of chapter 6. -/
theorem test_decode_scalar :
    decodeSlot 0 0x30C403 = .ok (.mul (sf 4 3 3)) ∧ decodeSlot 0 0x0000000600000538 = .ok (.mfsr { sf 5 0 0 with imm32 := 6 }) := by decide

/-- Table 5-17's vector word, in V0 and in V1. -/
theorem test_decode_vector :
    decodeSlot 1 0x00000050808060281004 = .ok (.vfma { vf 10 4 5 6 4 with pred := 2 }) ∧
    decodeSlot 2 0x00000050808060281004 = .ok (.vfma { vf 10 4 5 6 4 with pred := 2, v1 := true }) := by decide

/-- Table 9-8: `mldb.sb w0, (s5), 16, 1`; `mdrain.i8 z0, (s8), 16, 1, 0, 0, 56`. -/
theorem test_decode_matrix :
    decodeSlot 3 0x0000040004202801 = .ok (.mldb { mf 16 5 with pitch := 1, sgnB := true }) ∧
    decodeSlot 3 0x0003820004204009 = .ok (.mdrain { mf 16 8 with pitch := 1, sgnA := true, start := 56 }) := by decide

/-- R425: `mxsave (s9)`; R269's `mma.sb.sat`. -/
theorem test_decode_image :
    decodeSlot 3 0x000000000000480B = .ok (.mxsave (mf 0 9)) ∧
    decodeSlot 3 0x0002CC0004202002 = .ok (.mma { mf 16 4 with pitch := 1, sgnB := true, sat := true, start := 44 }) := by decide

/-- R190: `vld.bf16 v20, (s4+0x200), 7`; R400: `ppop v1, (s3), p5`. -/
theorem test_decode_load :
    decodeSlot 4 0x1070008040020501 = .ok (.vld { lf 8 20 4 with imm15 := 0x200, tagchk := true, tag := 7 }) ∧
    decodeSlot 4 0x00000A0000018049 = .ok (.ppop { lf 0 1 3 with x := 5 }) := by decide

/-- R199: `vstx.f32 (s10), v30, v31, 2 ?p3`; R209: `aadd.i32.ar.basin s5, g(s8+16), s6`; R399: `ppush (s5), v1`. -/
theorem test_decode_store :
    decodeSlot 5 0x006A83E50783 = .ok (.vstx { tf 10 30 10 with imm11 := 31 + 2 * 512, pred := 3 }) ∧
    decodeSlot 5 0x0804E2045188 = .ok (.aadd { tf 4 (6 + 5 * 64) 8 with imm11 := 16 + 256 + 512 + 1024, sc := 2 }) ∧
    decodeSlot 5 0x000000028051 = .ok (.ppush (tf 0 1 5)) := by decide

/-- R290: `cloop.e1 2, s4, s5, s6`; R304: `tbind s12, v40`; R315: `wstart h0, s4`; R376: `coll.rel h2, s17`. -/
theorem test_decode_copy :
    decodeSlot 6 0x000000A30A200001 = .ok (.cloop { cf 0 4 5 6 with x := 5 }) ∧
    decodeSlot 6 0x0002800000018008 = .ok (.tbind { cf 12 0 0 0 with imm20 := 40 }) ∧
    decodeSlot 6 0x0000000000200014 = .ok (.wstart (cf 0 4 0 0)) ∧
    decodeSlot 6 0x0000002000884028 = .ok (.coll { cf 2 17 0 0 with x := 1 }) := by decide

/-- R397: `pbind.init s4, s3`; R392: `teffect.rd s9`; R404: `tspawn s7, s8`; the tensor CGO of chapter 10. -/
theorem test_decode_task :
    decodeSlot 6 0x0000000000188031 = .ok (.pbind (cf 4 3 0 0)) ∧ decodeSlot 6 0x0000000000012032 = .ok (.teffect (cf 9 0 0 0)) ∧
    decodeSlot 6 0x000000000040E030 = .ok (.tspawn (cf 7 8 0 0)) ∧
    decodeSlot 6 0x000000801651A003 = .ok (.cgo { cf 13 10 11 0 with x := 4 }) := by decide

/-- R45: two fences; R384: a `WAITC` of s6 and s7; R333: `waith.vis h0`; R166: a branch by 4 bundles under p1; R170: `loopi`; R172:
`sync.basin.timed` and `sync.gang.free s4`. -/
theorem test_decode_sequencer :
    decodeSlot 7 0x0000E00D = .ok (.fence (yf 14)) ∧ decodeSlot 7 0x0003300D = .ok (.fence (yf 0x33)) ∧
    decodeSlot 7 0x001C600B = .ok (.waitc (yf (6 + 7 * 64))) ∧ decodeSlot 7 0x0400000C = .ok (.waith (yf (2 * 2 ^ 13))) ∧
    decodeSlot 7 0x00004041 = .ok (.br { yf 4 with pred := 1 }) ∧ decodeSlot 7 0x03004009 = .ok (.loopi (yf (4 + 3 * 4096))) ∧
    decodeSlot 7 0x6000000A = .ok (.sync (yf (2 ^ 17 + 2 ^ 18))) ∧ decodeSlot 7 0x8000400A = .ok (.sync (yf (4 + 2 ^ 19))) := by decide

/-- R420, R421, R407, R429, R427, R447, R450, R453: `trap 5, s7`, `eret`, `halt`, `bkpt 0x2A`, `yield.cede`, `susp.mx s4, s5`,
`suspg s4, s5`, `rsm s6`. -/
theorem test_decode_trap :
    decodeSlot 7 0x05007012 = .ok (.trap (yf (7 + 5 * 4096))) ∧ decodeSlot 7 0x13 = .ok (.eret (yf 0)) ∧ decodeSlot 7 0x14 = .ok (.halt (yf 0)) ∧
    decodeSlot 7 0x2A000015 = .ok (.bkpt (yf (0x2A * 4096))) ∧ decodeSlot 7 0x0100000E = .ok (.yield (yf 4096)) ∧
    decodeSlot 7 0x0114400F = .ok (.susp (yf (4 + 5 * 64 + 4096))) ∧ decodeSlot 7 0x00144010 = .ok (.suspg (yf (4 + 5 * 64))) ∧
    decodeSlot 7 0x00006011 = .ok (.rsm (yf 6)) := by decide

/-! ## Witnesses: states and operands that meet the hypotheses of the statements, clause by clause -/

/-- The state after reset, with tile 0 changed. -/
def on (f : Tile → Tile) : State := State.reset.onTile f

/-- Scalars 1 and 2 set. -/
def two (a b : Nat) : State := on fun x => (x.setScalar 1 (scalarOf a)).setScalar 2 (scalarOf b)

theorem witness_ScalarTwoSourceResult :
    (∀ e ∈ scalarOps, (e.1 (sf 63 1 2)).wf = true ∧ (e.2.1 { sf 0 0 0 with imm32 := 0x80000000 }).wf = true) ∧
    (two 0xFFFFFFFFFFFFFFFF 64).tile.cond 0 false = true ∧ (two 0xFFFFFFFFFFFFFFFF 64).tile.GoodS 0 ∧
    (two 0xFFFFFFFFFFFFFFFF 64).tile.GoodS 1 ∧ (two 0xFFFFFFFFFFFFFFFF 64).tile.GoodS 2 := by decide

theorem witness_DivisionResult :
    (∀ e ∈ divisions, (e.1 (sf 3 1 2)).wf = true ∧ (e.2.1 { sf 3 1 0 with imm32 := 0xFFFFFFFF }).wf = true) ∧
    (two (2 ^ 63) 0).tile.cond 0 false = true ∧ (two (2 ^ 63) 0).tile.GoodS 1 ∧ (two (2 ^ 63) 0).tile.GoodS 2 ∧
    (two (2 ^ 63) 0).tile.word 2 = 0 := by decide

theorem witness_ScalarUnaryResult :
    (∀ e ∈ scalarUnary, (e.1 (sf 3 1 0)).wf = true) ∧ (Instr.sext { sf 3 1 0 with imm32 := 63 }).wf = true ∧
    (two 0 0).tile.cond 0 false = true ∧ (two 0 0).tile.GoodS 1 := by decide

theorem witness_ScalarMoveResult :
    (two 1 2).tile.cond 0 false = true ∧ (Instr.movi { sf 3 0 0 with imm32 := 0x80000000 }).wf = true ∧
    (Instr.movhi { sf 1 0 0 with imm32 := 7 }).wf = true ∧ (two 1 2).tile.GoodS 1 ∧ (two 1 2).tile.GoodS 2 ∧ (two 1 2).tile.GoodS 3 ∧
    (Instr.bfi (sf 3 1 2)).wf = true ∧ (Instr.bfiImmediate { sf 3 1 0 with imm32 := 63 + 64 * 64 }).wf = true := by decide

theorem witness_CompareSelectResult :
    (Instr.cmp { sf 31 1 2 with pq := 9 }).wf = true ∧ (Instr.cmpImmediate { sf 1 1 0 with imm32 := 0xFFFFFFFF }).wf = true ∧
    (Instr.sel { sf 3 1 2 with pq := 31, neg := true }).wf = true ∧ (Instr.selImmediate { sf 3 1 0 with imm32 := 1 }).wf = true ∧
    (two 1 2).tile.GoodS 1 ∧ (two 1 2).tile.GoodS 2 := by decide

theorem witness_PredicateResult :
    State.reset.tile.cond 0 false = true ∧ (∀ e ∈ predOps, (e.1 (sf 31 0 1)).wf = true) ∧ (Instr.pnot (sf 1 0 0)).wf = true ∧
    (Instr.pcnt (sf 1 0 0)).wf = true ∧ (Instr.pfirst (sf 1 1 0)).wf = true ∧ (Instr.plast (sf 1 1 0)).wf = true ∧
    (Instr.pfrom (sf 1 2 3)).wf = true ∧ (Instr.plen (sf 1 2 0)).wf = true ∧ (Instr.ptos (sf 1 31 2)).wf = true ∧
    State.reset.tile.GoodP 0 ∧ State.reset.tile.GoodP 1 ∧ State.reset.tile.GoodP 31 ∧ State.reset.tile.GoodS 2 ∧ State.reset.tile.GoodS 3 := by
  decide

/-- A bank format that R181 admits, and one that is written at user level. -/
theorem witness_SpecialRegisterMoves :
    State.reset.tile.cond 0 false = true ∧ (Instr.mfsr { sf 5 0 0 with imm32 := 7 }).wf = true ∧
    State.reset.admits (.mfsr { sf 5 0 0 with imm32 := 7 }) = true ∧ (Instr.mtsr { sf 0 1 0 with imm32 := 0x040 }).wf = true ∧
    (two 10 0).admits (.mtsr { sf 0 1 0 with imm32 := 0x040 }) = true ∧ (two 10 0).tile.GoodS 1 ∧
    bfmtBad 0 ((two 10 0).tile.word 1).toNat = none ∧
    (on fun x => x.setSt stSV true).admits (.mtsr { sf 0 1 0 with imm32 := 0x00F }) = true := by decide

/-- One instruction of each slot that has a condition. -/
theorem witness_FalseConditionDoesNothing :
    ∀ i ∈ [Instr.add { sf 3 1 2 with neg := true }, .lds { lf 4 330 2 with n := true }, .sts { tf 4 330 2 with pred := 1 },
      .cloop { cf 0 4 5 6 with neg := true }, .halt { yf 0 with pred := 31 }, .brp { yf 4 with pred := 1 }],
      i.wf = true ∧ (on fun x => { x with run := .running }).admits i = true ∧
      (on fun x => { x with run := .running }).tile.condOf i = some false ∧ (on fun x => { x with run := .running }).tile.run = .running := by
  decide

/-- s1 and the third granule of p1 are bad. -/
def badS : State := on fun x => (x.setScalar 1 (Reg.ofGrans 1 [⟨0, 0⟩])).setPred 1 (Reg.ofGrans 4 [Gran.zero, Gran.zero, ⟨0, 0⟩, Gran.zero])

theorem witness_PredicateResult_bad :
    (∀ i ∈ predSourced (sf 3 1 0), i.wf = true) ∧ (∀ e ∈ predOps, (e.1 (sf 3 0 1)).wf = true) ∧ badS.tile.cond 0 false = true ∧
    badS.tile.GoodP 0 ∧ (∀ k < 2, ((badS.tile.pred 1).gran k).bad = false) ∧ ((badS.tile.pred 1).gran 2).bad = true := by decide

theorem witness_SpecialRegisterMoves_bad :
    (Instr.mtsr { sf 0 1 0 with imm32 := 0x040 }).wf = true ∧ badS.admits (.mtsr { sf 0 1 0 with imm32 := 0x040 }) = true ∧
    ((badS.tile.scalar 1).gran 0).bad = true := by decide

theorem witness_BadScalarSourceTraps :
    (∀ i ∈ scalarOps.map (fun e => e.1 (sf 3 1 2)) ++ divisions.map (fun e => e.1 (sf 3 1 2)), i.wf = true) ∧
    (∀ i ∈ scalarOps.map (fun e => e.2.1 (sf 3 1 0)) ++ scalarUnary.map (fun e => e.1 (sf 3 1 0)), i ∈ scalarSourced (sf 3 1 0) ∧ i.wf = true) ∧
    badS.tile.cond 0 false = true ∧ ((badS.tile.scalar 1).gran 0).bad = true ∧ badS.tile.GoodS 2 := by decide

theorem witness_PrivilegeFault :
    State.reset.tile.sv? = false ∧ State.reset.tile.trp = false ∧ ((on fun x => x.setSt stTRP true).tile.sv? = false) ∧
    ((on fun x => x.setSt stTRP true).tile.trp = true) ∧ ∀ i ∈ [Instr.rinj { sf 0 1 2 with imm32 := 512 }, .mtsr { sf 0 1 0 with imm32 := 0x00F },
      .mfsr { sf 1 0 0 with imm32 := 0x018 }, .mxsave (mf 0 9), .mxrest (mf 0 9), .wcreate (cf 1 0 0 0), .teffect { cf 0 0 0 0 with x := 2 },
      .eret (yf 0)], i.wf = true ∧ i.privileged = true := by decide

/-! ### Vectors -/

/-- v1 holds 0, 1, 2, … in its 32-bit elements; p1 is empty. -/
def vecS : State := on fun x => x.setVec 1 (Reg.fresh 32 (packNat 32 (List.range 64)))

theorem witness_VectorTwoSourceResult :
    (∀ e ∈ vTwo.take 20, (e.1 (vf 4 319 1 323 0)).wf = true) ∧ (∀ e ∈ vTwo.take 4, (e.1 (vf 10 0 1 391 0)).wf = true) ∧
    (∀ e ∈ vTwo.drop 20, (e.1 { vf 10 0 1 328 0 with v1 := true }).wf = true) ∧ vecS.tile.GoodV 1 ∧ vecS.tile.GoodV 323 ∧
    vecS.tile.GoodV 328 ∧ vecS.tile.GoodV 391 := by decide

theorem witness_VectorOneSourceResult :
    (∀ e ∈ vOne.take 5, (e.1 (vf 7 0 1 0 0)).wf = true) ∧ (∀ e ∈ vOne.drop 5, (e.1 { vf 10 0 1 0 0 with v1 := true }).wf = true) ∧
    (Instr.vneg (vf 10 0 1 0 0)).wf = true ∧ vecS.tile.GoodV 1 := by decide

theorem witness_VectorThreeSourceResult :
    (∀ e ∈ vThree, (e.1 (vf 10 0 1 2 330)).wf = true) ∧ (Instr.vclamp (vf 6 0 1 2 330)).wf = true ∧
    (Instr.vdot4 { vf 1 0 1 2 330 with sub := 1, sat := true }).wf = true ∧ vecS.tile.GoodV 1 ∧ vecS.tile.GoodV 2 ∧ vecS.tile.GoodV 330 := by
  decide

theorem witness_VectorCompareResult :
    (Instr.vcmp { vf 4 31 1 2 0 with sub := 5 }).wf = true ∧ tyF 4 = false ∧ (Instr.vcmp { vf 10 0 1 2 0 with sub := 6 }).wf = true ∧
    tyF 10 = true ∧ (Instr.vclass { vf 8 1 1 0 0 with imm16 := 0x3FF }).wf = true ∧ (Instr.vsel (vf 12 1 1 2 0)).wf = true ∧
    (Instr.vrchk { vf 0 31 323 0 0 with sub := 2 }).wf = true ∧ vecS.tile.GoodV 1 ∧ vecS.tile.GoodV 2 := by decide

theorem witness_VectorMoveResult :
    (Instr.vmov (vf 4 0 323 0 0)).wf = true ∧ (∀ i < 64, active vecS.tile (vf 4 0 323 0 0) 32 i = true) ∧ (Instr.vmov (vf 4 0 328 0 0)).wf = true ∧
    (Instr.vmovi { vf 10 0 0 0 0 with imm16 := 0x8000 }).wf = true ∧ (Instr.vext { vf 4 328 1 0 0 with imm16 := 63 }).wf = true ∧
    (Instr.vext { vf 4 328 1 391 0 with sub := 1 }).wf = true ∧ (Instr.vins { vf 4 1 391 0 0 with imm16 := 63 }).wf = true ∧
    active vecS.tile (vf 4 1 1 0 0) 32 63 = true ∧ active vecS.tile { vf 4 1 1 0 0 with n := true } 32 63 = false ∧
    (Instr.vext { vf 4 328 1 0 0 with imm16 := 63, n := true }).wf = true ∧ vecS.tile.GoodV 1 ∧ vecS.tile.GoodV 328 ∧ vecS.tile.GoodV 391 := by
  decide

/-- VQNT of FP32 to 8-bit codes, group 16, without and with an outlier list in s1 to s3. -/
theorem witness_VectorConvertResult :
    vecS.tile.GoodV 1 ∧ vecS.tile.GoodV 2 ∧ (Instr.vpack { vf 5 0 1 2 0 with sat := true }).wf = true ∧
    (Instr.vunpk { vf 7 0 1 0 0 with sub := 1 }).wf = true ∧ (Instr.vdqnt { vf 10 0 1 2 0 with imm16 := 12 + 7 * 32 + 256 }).wf = true ∧
    (Instr.vcvt { vf 10 0 1 0 0 with imm16 := 12 + 7 * 32 }).wf = true ∧ (Instr.vcvt { vf 12 0 1 0 0 with imm16 := 10 + 7 * 32 }).wf = true ∧
    (Instr.vqnt { vf 1 0 1 2 0 with imm16 := 10 + 3 * 32 + 3 * 256 }).wf = true ∧
    (Instr.vqnt { vf 1 0 1 2 329 with sub := 1, imm16 := 10 + 256 }).wf = true ∧ (two (2 ^ 21 - 8) 1).tile.timed = false ∧
    (∀ j < 3, Clean ((two (2 ^ 21 - 8) 1).tile.scalar (1 + j))) ∧ (two (2 ^ 21 - 8) 1).tile.sv 1 % 8 = 0 ∧ (two (2 ^ 21 - 8) 1).tile.sv 1 < 2 ^ 21 ∧
    (∀ r ∈ qntRows (two (2 ^ 21 - 8) 1) { vf 1 0 1 2 329 with sub := 1, imm16 := 10 + 256 } (2 ^ 21 - 8) 1, r < 2 ^ 13) ∧
    (on fun x => x.setSt stTM true).tile.timed = true ∧ (outlierPlan (State.reset.tile.writeBusy 0) 3 [8191]).busy = none := by decide

theorem witness_VectorPermuteResult :
    vecS.tile.GoodV 1 ∧ vecS.tile.GoodV 2 ∧ vecS.tile.GoodV 3 ∧ (Instr.vperm (vf 4 0 1 2 3)).wf = true ∧
    (Instr.vslide { vf 4 0 1 2 0 with imm16 := 64 }).wf = true ∧ (Instr.vbcast { vf 4 0 1 0 0 with imm16 := 63 }).wf = true ∧
    (∀ k ∈ [0, 1, 2, 3, 5], (Instr.vshuf { vf 4 0 1 2 0 with sub := k }).wf = true) ∧ (Instr.vshuf { vf 4 0 1 0 0 with sub := 4 }).wf = true ∧
    (Instr.vcomp (vf 4 0 1 0 0)).wf = true ∧ (Instr.vexpd (vf 4 0 1 0 0)).wf = true := by decide

/-- Nothing is active under p1, which is empty after reset. -/
theorem witness_VectorReductionResult :
    vecS.tile.GoodV 1 ∧ vecS.tile.GoodV 2 ∧ vecS.tile.GoodV 3 ∧ (Instr.vred { vf 4 0 1 0 0 with pred := 1 }).wf = true ∧
    (∀ i < 64, active vecS.tile { vf 4 0 1 0 0 with pred := 1 } 32 i = false) ∧ (Instr.vscan (vf 4 0 1 0 0)).wf = true ∧
    (Instr.vsegscan { vf 4 0 1 2 3 with imm16 := 1 }).wf = true ∧ (Instr.vrec (vf 10 0 1 2 0)).wf = true ∧
    active vecS.tile (vf 4 0 1 0 0) 32 0 = true ∧
    (vf 4 0 1 2 3).imm16.getLsbD 0 = false := by decide

theorem witness_AccumulatorResult :
    Clean (vecS.tile.acc 1023) ∧ (Instr.vmacw { vf 2 0 1 2 0 with imm16 := 1023, sat := true }).wf = true ∧
    (Instr.vmacw { vf 8 0 1 2 0 with imm16 := 1023 }).wf = true ∧ (Instr.zmovn { vf 9 0 0 0 0 with imm16 := 1023 }).wf = true ∧
    (Instr.zmovw { vf 10 0 0 0 0 with imm16 := 1023, sub := 2 }).wf = true ∧ (∀ i < 64, active vecS.tile (vf 10 0 0 0 0) 32 i = true) ∧
    (Instr.zmovw { vf 10 0 1 0 0 with imm16 := 1023, sub := 3, n := true }).wf = true ∧ (Instr.zmovw { vf 10 0 1 0 0 with imm16 := 1023, sub := 3, n := true, z := true }).wf = true ∧ (∀ i < 64, active vecS.tile { vf 10 0 1 0 0 with n := true } 32 i = false) ∧
    vecS.tile.GoodV 1 ∧ vecS.tile.GoodV 2 := by decide

/-- A vector instruction that acts. -/
theorem witness_VectorFrame :
    (encode (.vadd (vf 4 0 1 2 0))).map (·.1) = some 1 ∧ (encode (.vadd { vf 4 0 1 2 0 with v1 := true })).map (·.1) = some 2 ∧
    ∃ t, exec (.vadd (vf 4 0 1 2 0)) vecS = .next t ∧ t.tile.issued = .acted :=
  ⟨by decide, by decide, _, rfl, by decide⟩

/-! ### Scratchpad, global memory, atomics and pipes -/

/-- Banks 0 and 63 hold FP32 elements; s1 is 0, s2 the last row of the scratchpad, s3 a stride of 4 bytes. -/
def padS : State := on fun x =>
  (((x.setSreg srBFMT 10).setSreg (srBFMT + 63) 10).setScalar 2 (scalarOf (2 ^ 21 - 256))).setScalar 3 (scalarOf 4)

theorem witness_ScratchpadLoadIssues_vld : ∃ p, loadForm padS.tile (.vld (lf 10 319 2)) = some p ∧ (Instr.vld (lf 10 319 2)).wf = true ∧
    p.Ok padS (.vld (lf 10 319 2)) :=
  ⟨_, rfl, by decide, by decide, by decide, fun _ => by decide, fun _ h => Instr.noConfusion h, by decide, by decide, by decide, by decide,
    by decide, by decide, by decide⟩

theorem witness_ScratchpadLoadIssues_vldb : ∃ p, loadForm padS.tile (.vldb (lf 10 0 2)) = some p ∧ (Instr.vldb (lf 10 0 2)).wf = true ∧
    p.Ok padS (.vldb (lf 10 0 2)) :=
  ⟨_, rfl, by decide, by decide, by decide, fun _ => by decide, fun _ h => Instr.noConfusion h, by decide, by decide, by decide, by decide,
    by decide, by decide, by decide⟩

theorem witness_ScratchpadLoadIssues_vlds : ∃ p, loadForm padS.tile (.vlds { lf 10 0 1 with x := 3 }) = some p ∧
    (Instr.vlds { lf 10 0 1 with x := 3 }).wf = true ∧ p.Ok padS (.vlds { lf 10 0 1 with x := 3 }) :=
  ⟨_, rfl, by decide, by decide, by decide, fun _ => by decide, fun _ h => Instr.noConfusion h, by decide, by decide, by decide, by decide,
    by decide, by decide, by decide⟩

theorem witness_ScratchpadLoadIssues_vldg : ∃ p, loadForm padS.tile (.vldg { lf 10 0 2 with x := 3, tag := 7 }) = some p ∧
    (Instr.vldg { lf 10 0 2 with x := 3, tag := 7 }).wf = true ∧ p.Ok padS (.vldg { lf 10 0 2 with x := 3, tag := 7 }) :=
  ⟨_, rfl, by decide, by decide, by decide, fun h => absurd rfl (h _), fun _ h => by cases h; decide, by decide, by decide, by decide, by decide,
    by decide, by decide, by decide⟩

theorem witness_ScratchpadLoadIssues_scalar : (∃ p, loadForm padS.tile (.lds { lf 10 391 2 with imm15 := 252 }) = some p ∧
      (Instr.lds { lf 10 391 2 with imm15 := 252 }).wf = true ∧ p.Ok padS (.lds { lf 10 391 2 with imm15 := 252 })) ∧
    ∃ p, loadForm padS.tile (.pld { lf 0 31 2 with imm15 := 224, tagchk := true }) = some p ∧
      (Instr.pld { lf 0 31 2 with imm15 := 224, tagchk := true }).wf = true ∧ p.Ok padS (.pld { lf 0 31 2 with imm15 := 224, tagchk := true }) :=
  ⟨⟨_, rfl, by decide, by decide, by decide, fun _ => by decide, fun _ h => Instr.noConfusion h, by decide, by decide, by decide, by decide,
      by decide, by decide, by decide⟩,
    ⟨_, rfl, by decide, by decide, by decide, fun _ => by decide, fun _ h => Instr.noConfusion h, by decide, by decide, by decide, by decide,
      by decide, by decide, by decide⟩⟩

/-- A scalar or predicate waits for the last granule, or the last four, of the scratchpad. -/
def waits (w : RWrite) : Landing :=
  { id := 9, due := 4, issue := 0, tc := 0, slot := 4, pc := 0, writes := [w], fp := 0, st := 0, fault := none, waiting := true, hold := false }

/-- No element of a vector load or store is active. -/
theorem witness_ScratchpadForms_inactive :
    (∀ z, ∃ p, loadForm padS.tile (.vld { lf 10 0 2 with pred := 1, z := z }) = some p ∧ (Instr.vld { lf 10 0 2 with pred := 1, z := z }).wf = true ∧
      p.load.els = [] ∧ p.f.z = z) ∧
    ∃ p, storeForm padS.tile (.vst { tf 10 323 2 with pred := 1 }) = some p ∧ (Instr.vst { tf 10 323 2 with pred := 1 }).wf = true ∧ p.addrs = [] :=
  ⟨fun z => ⟨_, rfl, by cases z <;> decide, by cases z <;> decide, rfl⟩, _, rfl, by decide, by decide⟩

theorem witness_ScratchpadLoadValue_narrow :
    let s := on fun x => { x with inflight := [waits (.scalar 5 (.zero 1))] }
    let l : PadLoad := { kind := 1, type := 0, st := 0, grp := false, els := [⟨0, 2 ^ 21 - 1, false, 0⟩], act := 1, z := false }
    (2 ^ 21 - 1) / 256 = 8191 ∧ l.kind = 1 ∧ tyWidth l.type = 8 ∧ tyWidth l.st = 8 ∧ l.grp = false ∧
      ((s.tileAt 0).pad.gran ((2 ^ 21 - 1) / 8)).bad = false := by decide

theorem witness_ScratchpadLoadValue_row :
    let s := on fun x => { x with inflight := [waits (.vec 5 (.zero 32) (BitVec.allOnes 256) (some 2))] }
    let l : PadLoad := { kind := 0, type := 6, st := 7, grp := false,
                         els := (List.range 32).map fun i => ⟨i, 256 * 8191 + i * 64 / 8, false, 0⟩, act := 1, z := false }
    (s.tileAt 0).inflight = [waits (.vec 5 (.zero 32) (BitVec.allOnes 256) (some 2))] ∧ l.kind = 0 ∧ tyWidth l.type = 64 ∧ tyWidth l.st = 64 ∧
      l.grp = false ∧ l.els = (List.range (2048 / 64)).map fun i => ⟨i, 256 * 8191 + i * 64 / 8, false, 0⟩ := by decide

theorem witness_ScratchpadLoadValue :
    (let s := on fun x => { x with inflight := [waits (.scalar 5 (.zero 1))] }
     let l : PadLoad := { kind := 1, type := 6, st := 7, grp := false, els := [⟨0, 2 ^ 21 - 8, false, 0⟩], act := 1, z := false }
     (2 ^ 21 - 8) / 256 = 8191 ∧ (2 ^ 21 - 8) % 8 = 0 ∧ (s.tileAt 0).inflight = [waits (.scalar 5 (.zero 1))] ∧ l.kind = 1 ∧
       tyWidth l.type = 64 ∧ tyWidth l.st = 64 ∧ l.grp = false) ∧
    (let s := on fun x => { x with inflight := [waits (.pred 5 (.zero 4) (BitVec.allOnes 256))] }
     (2 ^ 21 - 32) / 256 = 8191 ∧ (2 ^ 21 - 32) % 32 = 0 ∧ (s.tileAt 0).inflight = [waits (.pred 5 (.zero 4) (BitVec.allOnes 256))]) := by
  decide

theorem witness_ScratchpadStoreIssues_vst : ∃ p, storeForm padS.tile (.vst (tf 10 323 2)) = some p ∧ (Instr.vst (tf 10 323 2)).wf = true ∧
    p.Ok padS (.vst (tf 10 323 2)) :=
  ⟨_, rfl, by decide, by decide, by decide, by decide, by decide, fun _ => by decide, fun _ h => Instr.noConfusion h,
    fun _ h => Instr.noConfusion h, by decide⟩

theorem witness_ScratchpadStoreIssues_vsts : ∃ p, storeForm padS.tile (.vsts { tf 10 0 1 with imm11 := 3 }) = some p ∧
    (Instr.vsts { tf 10 0 1 with imm11 := 3 }).wf = true ∧ p.Ok padS (.vsts { tf 10 0 1 with imm11 := 3 }) :=
  ⟨_, rfl, by decide, by decide, by decide, by decide, by decide, fun _ => by decide, fun _ h => by cases h; decide,
    fun _ h => Instr.noConfusion h, by decide⟩

theorem witness_ScratchpadStoreIssues_vstx : ∃ p, storeForm padS.tile (.vstx { tf 10 0 2 with imm11 := 7 }) = some p ∧
    (Instr.vstx { tf 10 0 2 with imm11 := 7 }).wf = true ∧ p.Ok padS (.vstx { tf 10 0 2 with imm11 := 7 }) :=
  ⟨_, rfl, by decide, by decide, by decide, by decide, by decide, fun _ => by decide, fun _ h => Instr.noConfusion h,
    fun _ h => by cases h; decide, by decide⟩

theorem witness_ScratchpadStoreIssues_scalar : (∃ p, storeForm padS.tile (.sts { tf 4 391 2 with imm11 := 252 }) = some p ∧
      (Instr.sts { tf 4 391 2 with imm11 := 252 }).wf = true ∧ p.Ok padS (.sts { tf 4 391 2 with imm11 := 252 })) ∧
    ∃ p, storeForm padS.tile (.pst { tf 0 31 2 with imm11 := 224 }) = some p ∧ (Instr.pst { tf 0 31 2 with imm11 := 224 }).wf = true ∧
      p.Ok padS (.pst { tf 0 31 2 with imm11 := 224 }) :=
  ⟨⟨_, rfl, by decide, by decide, by decide, by decide, by decide, fun _ => by decide, fun _ h => Instr.noConfusion h,
      fun _ h => Instr.noConfusion h, by decide⟩,
    ⟨_, rfl, by decide, by decide, by decide, by decide, by decide, fun h => absurd rfl (h _), fun _ h => Instr.noConfusion h,
      fun _ h => Instr.noConfusion h, by decide⟩⟩

theorem witness_StoreWritesOnlyItsBytes :
    Memory.wf (State.reset.tileAt 31).pad ∧ (8 ∈ [1, 2, 4, 8]) ∧ (2 ^ 21 - 8) % 8 = 0 ∧ (2 ^ 21 - 32) % 32 = 0 ∧
    (∀ q ∈ [((0, 0, 4) : Nat × Nat × Nat), (4, 4, 4)], q ≠ (4, 4, 4) → ¬(q.1 ≤ 4 + 3 ∧ 4 + 3 < q.1 + q.2.2)) ∧
    (∀ q ∈ [(⟨7, true, 15, 0, 0, false⟩ : Nib), ⟨7, false, 1, 1, 0, false⟩], q.v < 16 ∧ (q.addr = 7 → q.hi = true → q.v = 15)) := by decide

theorem witness_TagInstructions :
    (Instr.ldtag { lf 0 391 2 with imm15 := 255 }).wf = true ∧ padS.tile.cond 0 false = true ∧ padS.tile.GoodS 2 ∧ padS.tile.GoodS 0 ∧
    padS.tile.lAddr { lf 0 391 2 with imm15 := 255 } = 2 ^ 21 - 1 ∧ (Instr.sttag (tf 0 328 2)).wf = true ∧ Clean (padS.tile.scalar 0) ∧
    padS.tile.tAddr (tf 0 328 2) < 2 ^ 21 := by decide

/-- The page at address 0 is mapped to physical address 0x20000, with every permission; s2 is its last line. -/
def mapS : State := on fun x =>
  { x.setScalar 2 (scalarOf 0xFF00) with utlb := [{ pdom := 0, page := 0, size := 65536, pa := 0x20000, perm := 15, fault := none }] }

theorem witness_GlobalLoadIssues :
    mapS.tile.GoodS 2 ∧ mapS.tile.GoodS 0 ∧ (Instr.gld { lf 6 391 2 with imm15 := 248 }).wf = true ∧ mapS.tile.cond 0 false = true ∧
    mapS.tile.lAddr { lf 6 391 2 with imm15 := 248 } % 8 = 0 ∧
    mapS.tile.translate (mapS.tile.lAddr { lf 6 391 2 with imm15 := 248 }) needR = .pa 0x2FFF8 ∧ (Instr.gldv (lf 10 0 2)).wf = true ∧
    (let es := runOf (mapS.tile.lAddr (lf 10 0 2)) 32 (mapS.tile.lActive (lf 10 0 2))
     OneLine 4 es ∧ es.head? = some (0, 0xFF00)) ∧ mapS.tile.translate 0xFF00 needR = .pa 0x2FF00 ∧
    (∀ z, (Instr.gldv { lf 10 0 2 with pred := 1, z := z }).wf = true ∧
      runOf (mapS.tile.lAddr (lf 10 0 2)) 32 (mapS.tile.lActive { lf 10 0 2 with pred := 1, z := z }) = []) := by decide

theorem witness_GlobalStoreIssues :
    mapS.tile.GoodS 2 ∧ mapS.tile.translate (mapS.tile.tAddr { tf 4 391 2 with imm11 := 252 }) needW = .pa 0x2FFFC ∧
    (Instr.gst { tf 4 391 2 with imm11 := 252 }).wf = true ∧ mapS.tile.cond 0 false = true ∧
    mapS.tile.tAddr { tf 4 391 2 with imm11 := 252 } % 4 = 0 ∧ (Instr.gstv (tf 10 323 2)).wf = true ∧
    (let es := runOf (mapS.tile.tAddr (tf 10 323 2)) 32 (mapS.tile.tActive (tf 10 323 2) 32)
     OneLine 4 es ∧ es.head? = some (0, 0xFF00)) ∧ mapS.tile.translate 0xFF00 needW = .pa 0x2FF00 ∧
    (Instr.gstv { tf 10 323 2 with pred := 1 }).wf = true ∧
    runOf (mapS.tile.tAddr (tf 10 323 2)) 32 (mapS.tile.tActive { tf 10 323 2 with pred := 1 } 32) = [] := by decide

/-- The line of 0x2FF00 is in L1, with a dirty byte. -/
def dirtyS (timed : Bool) : State := mapS.onTile fun x =>
  (x.l1Set 504 (some { tag := 0x2FF, v := 1, pend := 0, own := 1, dirty := 1, data := .zero 32 })).setSt stTM timed

theorem witness_PrefetchAndFlush :
    (Instr.gpref (lf 0 0 2)).wf = true ∧ mapS.tile.cond 0 false = true ∧ mapS.tile.GoodS 2 ∧ mapS.tile.GoodS 0 ∧
    (Instr.gflush (tf 0 3 0)).wf = true ∧ (Instr.gflush (tf 0 2 0)).wf = true ∧ mapS.tile.flushDirty none = false ∧
    mapS.l1Stores mapS.cur none = false ∧ mapS.tile.translate (mapS.tile.lAddr (lf 0 0 2)) needR = .pa 0x2FF00 ∧
    mapS.tile.l1Find (0x2FF00 / 256) = none ∧ (Instr.gflush (tf 0 1 2)).wf = true ∧
    mapS.tile.translate (mapS.tile.tAddr (tf 0 1 2)) 0 = .pa 0x2FF00 ∧ mapS.tile.flushDirty (some 0x2FF) = false ∧
    ∀ b, (dirtyS b).tile.flushDirty (some 0x2FF) = true ∧ (dirtyS b).tile.timed = b := by decide

/-- The last word of the scratchpad, and of the mapped page; a release with nothing to wait for. -/
theorem witness_AtomicIssues :
    (∀ e ∈ atomics, (e.1 { tf (if e.2 = 9 then 10 else 4) (2 + 64 * 5) 2 with imm11 := 252 }).wf = true) ∧
    (∀ e ∈ atomics, (e.1 { tf (if e.2 = 9 then 10 else 4) (2 + 64 * 5) 2 with imm11 := 252 + 256 + 1024, sc := 4 }).wf = true) ∧
    padS.tile.cond 0 false = true ∧ padS.tile.GoodS 2 ∧ Clean (padS.tile.scalar 5) ∧
    (padS.tile.amo 8 { tf 4 (2 + 64 * 5) 2 with imm11 := 124 }).addr % 4 = 0 ∧ (padS.tile.amo 8 { tf 4 (2 + 64 * 5) 2 with imm11 := 124 }).rel = false ∧
    (padS.tile.amo 8 { tf 4 (2 + 64 * 5) 2 with imm11 := 124 }).global = false ∧
    (padS.tile.amo 8 { tf 4 (2 + 64 * 5) 2 with imm11 := 124 }).addr < 2 ^ 21 ∧ padS.tile.isLate 8191 = false ∧ padS.tile.st stERC = false ∧
    PortsFree padS.tile 5 (planPorts (padS.tile.bothBusy padS.now) (padS.now + 4) 1 [8191]) ∧
    (mapS.tile.amo 8 { tf 4 (2 + 64 * 5) 2 with imm11 := 124 + 256 + 1024, sc := 4 }).global = true ∧
    mapS.releaseGate 5 4 false = ([], none) ∧
    mapS.tile.translate (mapS.tile.amo 8 { tf 4 (2 + 64 * 5) 2 with imm11 := 124 + 256 + 1024, sc := 4 }).addr needRW = .pa 0x2FF7C := by decide

theorem witness_AtomicValue : tyF 6 = false ∧ 2 ^ 64 - 1 < 2 ^ tyWidth 6 ∧ 2 ^ 63 < 2 ^ tyWidth 6 ∧ 0 < 2 ^ tyWidth 6 ∧
    (fval 10 0x7F800001).isNan = true ∧ 0x80000000 % 2 ^ 31 = 0 := by decide

/-- Pipe 0 with room for its producer 3; the same pipe with an entry; the same pipe with every mark. -/
def pipeS (p : Pipe) : State := (on fun x => x.setScalar 2 (scalarOf 0x300)).modPipe 0 fun _ => p

def room : Pipe := { bound := true, cap := 1, prod := 4, gen := 0, entries := [], marks := 0, reserved := 0 }

theorem witness_PipeInstructions :
    (pipeS room).tile.cond 0 false = true ∧ (pipeS room).tile.GoodS 2 ∧ ((pipeS room).pipe (pwPipe 0x300)).bound = true ∧
    (pipeS room).tile.sv 2 = 0x300 ∧ pwProd 0x300 < ((pipeS room).pipe (pwPipe 0x300)).prod ∧ (Instr.ppush (tf 0 391 2)).wf = true ∧
    ((pipeS room).pipe 0).full = false ∧ (Instr.peos (tf 0 0 2)).wf = true ∧ (Instr.ppop { lf 0 1 2 with x := 31 }).wf = true ∧
    ((pipeS { room with entries := [(0, .zero 32)] }).pipe 0).oldest 0 = some (.zero 32) ∧
    ((pipeS { room with marks := 15 }).pipe 0).oldest 0 = none ∧ ((pipeS { room with marks := 15 }).pipe 0).ended = true ∧
    ((pipeS { room with reserved := 1 }).pipe 0).full = true ∧ ((pipeS { room with bound := false }).pipe 0).bound = false ∧
    ((pipeS { room with prod := 3 }).pipe 0).prod ≤ pwProd 0x300 ∧
    ((pipeS room).pipe 0).oldest 0 = none ∧ ((pipeS room).pipe 0).ended = false := by decide

/-- A copy of a path, of 8 bytes at 0x208. -/
def runM (id path : Nat) : CopyRun :=
  { id := id, nest := 1, e := false, cn := 0, at_ := 0, issue := 0, pc := 0, tm := false, sv := false, pdom := 0,
    cfg := { CopyCfg.init with path := BitVec.ofNat 2 path, type := 4, m := 8 }, bfmt := [], sa := 0, da := 0x208, bytes := 8, src := [], dst := [],
    dstLeft := [], lateRows := [], pages := [], got := [], tags := false, erc := true, lastCopy := true, rowmap := [], fin := false }

/-- A basin whose memory holds a bad granule at 0x200; tile 0 has copies of paths 2 and 3. -/
def memS : State := (on fun x => { x with copies := [runM 2 2, runM 3 3] }).memWrites none (gwCarry 64 (⟨5, 0⟩ : Reg 1) 0xFF)

theorem memS_noShadow (t : Tid) (a : Nat) : memS.shadowAt (some t) a = none := by
  have h : ∀ t, memS.taskOf t = none := by decide
  simp [State.shadowAt, h t]

theorem witness_MemoryWritesPerform :
    Memory.wf memS.mem ∧ (∀ t : Tid, ∀ a, memS.shadowAt (some t) a = none) ∧ 0x1FC % 4 = 0 ∧
    (let p := memS.lineSlot 0 2
     ((p.2.tileAt 0).l1.get none p.1).isSome = true) ∧ tyWidth 4 = 32 ∧ tyWidth 6 = 64 ∧ amoNew 0x10 4 5 6 7 = none ∧ (amoNew 0x10 4 7 6 7).isSome = true ∧
    (memS.tileAt 0).run? 2 = some (runM 2 2) ∧ (runM 2 2).cfg.path = 2 ∧ (runM 2 2).cfg.tensor = none ∧ (runM 2 2).memGrans = [65] ∧
    (buildGran (runM 2 2).got (memS.mem.gran ((runM 2 2).phys 65)) 65 ((runM 2 2).memNib [] 1)).1.isSome = true ∧
    (memS.tileAt 0).run? 3 = some (runM 3 3) ∧ (runM 3 3).cfg.path = 3 :=
  ⟨by decide, memS_noShadow, by decide, by decide, by decide, by decide, by decide, by decide, by decide, by decide, by decide, by decide, by decide,
    by decide, by decide⟩

/-! ### Matrix commands, images, fault injection -/

/-- Weight slot 0 holds an INT8 image; CVDIM describes a convolution of one position; s2 is the last row of bank 0. -/
def mxS : State := on fun x =>
  { (((x.setSreg srCVDIM 0x000100010001).setSreg (srCVDIM + 1) 0x111100010001).setScalar 2 (scalarOf 32512)) with
    w := [(0, { WSlot.empty with ready := some 0, img := 7, mode := 2 })] }

def mfS (rows : BitVec 9) (abase : BitVec 6) : MF := { mf rows abase with start := 1048575 }

theorem convFits_later : let c := cmd mxS 0x04 (mfS 1 2) ((List.range 3).map fun k => mxS.tile.sreg (srCVDIM + k)) 0
    ∀ i < c.rows, ∀ a, c.conv i = .bank a → a + 256 ≤ 2 ^ 21 := by
  intro c i hi a h
  have hr : c.rows = 1 := by decide
  obtain rfl : i = 0 := by omega
  have hc : (match c.conv 0 with | .bank a => decide (a + 256 ≤ 2 ^ 21) | _ => true) = true := by decide
  rw [h] at hc
  exact of_decide_eq_true hc

theorem convFits_now : let c := cmd mxS 0x04 (mf 1 2) ((List.range 3).map fun k => mxS.tile.sreg (srCVDIM + k)) 0
    ∀ i < c.rows, ∀ a, c.conv i = .bank a → a + 256 ≤ 2 ^ 21 := by
  intro c i hi a h
  have hr : c.rows = 1 := by decide
  obtain rfl : i = 0 := by omega
  have hc : (match c.conv 0 with | .bank a => decide (a + 256 ≤ 2 ^ 21) | _ => true) = true := by decide
  rw [h] at hc
  exact of_decide_eq_true hc

theorem witness_MatrixCommandJoins_later_stream :
    (mfS 1 2).start ≠ 0 ∧ mxS.tile.trp = false ∧
    (∃ e ∈ matrixForms mxS (mfS 1 2), e.1 = .mma (mfS 1 2) ∧ e.1.wf = true ∧ e.2.2 ∧ mxS.tile.mSched e.2.1 = []) ∧
    (∃ e ∈ matrixForms mxS (mfS 1 2), e.1 = .mmaz (mfS 1 2) ∧ e.1.wf = true ∧ e.2.2 ∧ mxS.tile.mSched e.2.1 = []) ∧
    (∃ e ∈ matrixForms mxS (mfS 1 2), e.1 = .mrowsum (mfS 1 2) ∧ e.1.wf = true ∧ e.2.2 ∧ mxS.tile.mSched e.2.1 = []) :=
  ⟨by decide, by decide,
    ⟨_, (.tail _ (.tail _ (.head _))), rfl, by decide, ⟨by decide, by decide, by decide⟩, by decide⟩,
    ⟨_, (.tail _ (.tail _ (.tail _ (.head _)))), rfl, by decide, ⟨by decide, by decide, by decide⟩, by decide⟩,
    ⟨_, (.tail _ (.tail _ (.tail _ (.tail _ (.head _))))), rfl, by decide, ⟨by decide, by decide, by decide⟩, by decide⟩⟩

theorem witness_MatrixCommandJoins_later_rows :
    (∃ e ∈ matrixForms mxS (mfS 128 0), e.1 = .mzero (mfS 128 0) ∧ e.1.wf = true ∧ e.2.2 ∧ mxS.tile.mSched e.2.1 = []) ∧
    (∃ e ∈ matrixForms mxS (mfS 128 2), e.1 = .mzset (mfS 128 2) ∧ e.1.wf = true ∧ e.2.2 ∧ mxS.tile.mSched e.2.1 = []) ∧
    (∃ e ∈ matrixForms mxS (mfS 1 2), e.1 = .mzpc (mfS 1 2) ∧ e.1.wf = true ∧ e.2.2 ∧ mxS.tile.mSched e.2.1 = []) ∧
    (∃ e ∈ matrixForms mxS (mfS 1 2), e.1 = .mzld (mfS 1 2) ∧ e.1.wf = true ∧ e.2.2 ∧ mxS.tile.mSched e.2.1 = []) :=
  ⟨⟨_, (.tail _ (.tail _ (.tail _ (.tail _ (.tail _ (.tail _ (.head _))))))), rfl, by decide, trivial, by decide⟩,
    ⟨_, (.tail _ (.tail _ (.tail _ (.tail _ (.tail _ (.tail _ (.tail _ (.head _)))))))), rfl, by decide, by decide, by decide⟩,
    ⟨_, (.tail _ (.tail _ (.tail _ (.tail _ (.tail _ (.tail _ (.tail _ (.tail _ (.head _))))))))), rfl, by decide, ⟨by decide, by decide, by decide⟩, by decide⟩,
    ⟨_, (.tail _ (.tail _ (.tail _ (.tail _ (.tail _ (.tail _ (.tail _ (.tail _ (.tail _ (.tail _ (.head _))))))))))), rfl, by decide, ⟨by decide, by decide⟩, by decide⟩⟩

theorem witness_MatrixCommandJoins_later_convolution :
    (∃ e ∈ matrixForms mxS (mfS 1 2), e.1 = .mmac (mfS 1 2) ∧ e.1.wf = true ∧ e.2.2 ∧ mxS.tile.mSched e.2.1 = []) :=
  ⟨_, (.tail _ (.tail _ (.tail _ (.tail _ (.tail _ (.head _)))))), rfl, by decide, ⟨by decide, by decide, by decide, by decide, convFits_later, by decide⟩, by decide⟩

theorem witness_MatrixCommandJoins_later_drain :
    (∃ e ∈ matrixForms mxS (mfS 1 2), e.1 = .mdrain (mfS 1 2) ∧ e.1.wf = true ∧ e.2.2 ∧ mxS.tile.mSched e.2.1 = []) :=
  ⟨_, (.tail _ (.tail _ (.tail _ (.tail _ (.tail _ (.tail _ (.tail _ (.tail _ (.tail _ (.head _)))))))))), rfl, by decide, ⟨by decide, by decide, by decide⟩, by decide⟩

theorem witness_MatrixCommandJoins_later_load :
    (∃ e ∈ matrixForms mxS (mfS 64 1), e.1 = .mldb (mfS 64 1) ∧ e.1.wf = true ∧ e.2.2 ∧ mxS.tile.mSched e.2.1 = []) ∧
    (∃ e ∈ matrixForms mxS (mfS 64 1), e.1 = .mldbt (mfS 64 1) ∧ e.1.wf = true ∧ e.2.2 ∧ mxS.tile.mSched e.2.1 = []) :=
  ⟨⟨_, .head _, rfl, by decide, ⟨by decide, ⟨_, rfl, by decide⟩, by decide, by decide, by decide⟩, by decide⟩,
    ⟨_, (.tail _ (.head _)), rfl, by decide, ⟨by decide, ⟨_, rfl, by decide⟩, by decide, by decide, by decide⟩, by decide⟩⟩

theorem witness_MatrixCommandJoins_now_stream :
    (mf 1 2).start = 0 ∧ mxS.tile.trp = false ∧
    (∃ e ∈ matrixForms mxS (mf 1 2), e.1 = .mma (mf 1 2) ∧ e.1.wf = true ∧ e.2.2 ∧ mxS.tile.mSched e.2.1 = [] ∧ Latches mxS e.2.1) ∧
    (∃ e ∈ matrixForms mxS (mf 1 2), e.1 = .mmaz (mf 1 2) ∧ e.1.wf = true ∧ e.2.2 ∧ mxS.tile.mSched e.2.1 = [] ∧ Latches mxS e.2.1) ∧
    (∃ e ∈ matrixForms mxS (mf 1 2), e.1 = .mrowsum (mf 1 2) ∧ e.1.wf = true ∧ e.2.2 ∧ mxS.tile.mSched e.2.1 = [] ∧ Latches mxS e.2.1) :=
  ⟨by decide, by decide,
    ⟨_, (.tail _ (.tail _ (.head _))), rfl, by decide, ⟨by decide, by decide, by decide⟩, by decide, by decide⟩,
    ⟨_, (.tail _ (.tail _ (.tail _ (.head _)))), rfl, by decide, ⟨by decide, by decide, by decide⟩, by decide, by decide⟩,
    ⟨_, (.tail _ (.tail _ (.tail _ (.tail _ (.head _))))), rfl, by decide, ⟨by decide, by decide, by decide⟩, by decide, by decide⟩⟩

theorem witness_MatrixCommandJoins_now_rows :
    (∃ e ∈ matrixForms mxS (mf 128 0), e.1 = .mzero (mf 128 0) ∧ e.1.wf = true ∧ e.2.2 ∧ mxS.tile.mSched e.2.1 = [] ∧ Latches mxS e.2.1) ∧
    (∃ e ∈ matrixForms mxS (mf 128 2), e.1 = .mzset (mf 128 2) ∧ e.1.wf = true ∧ e.2.2 ∧ mxS.tile.mSched e.2.1 = [] ∧ Latches mxS e.2.1) ∧
    (∃ e ∈ matrixForms mxS (mf 1 2), e.1 = .mzpc (mf 1 2) ∧ e.1.wf = true ∧ e.2.2 ∧ mxS.tile.mSched e.2.1 = [] ∧ Latches mxS e.2.1) ∧
    (∃ e ∈ matrixForms mxS (mf 1 2), e.1 = .mzld (mf 1 2) ∧ e.1.wf = true ∧ e.2.2 ∧ mxS.tile.mSched e.2.1 = [] ∧ Latches mxS e.2.1) :=
  ⟨⟨_, (.tail _ (.tail _ (.tail _ (.tail _ (.tail _ (.tail _ (.head _))))))), rfl, by decide, trivial, by decide, by decide⟩,
    ⟨_, (.tail _ (.tail _ (.tail _ (.tail _ (.tail _ (.tail _ (.tail _ (.head _)))))))), rfl, by decide, by decide, by decide, by decide⟩,
    ⟨_, (.tail _ (.tail _ (.tail _ (.tail _ (.tail _ (.tail _ (.tail _ (.tail _ (.head _))))))))), rfl, by decide, ⟨by decide, by decide, by decide⟩, by decide, by decide⟩,
    ⟨_, (.tail _ (.tail _ (.tail _ (.tail _ (.tail _ (.tail _ (.tail _ (.tail _ (.tail _ (.tail _ (.head _))))))))))), rfl, by decide, ⟨by decide, by decide⟩, by decide, by decide⟩⟩

theorem witness_MatrixCommandJoins_now_convolution :
    (∃ e ∈ matrixForms mxS (mf 1 2), e.1 = .mmac (mf 1 2) ∧ e.1.wf = true ∧ e.2.2 ∧ mxS.tile.mSched e.2.1 = [] ∧ Latches mxS e.2.1) :=
  ⟨_, (.tail _ (.tail _ (.tail _ (.tail _ (.tail _ (.head _)))))), rfl, by decide, ⟨by decide, by decide, by decide, by decide, convFits_now, by decide⟩, by decide, by decide⟩

theorem witness_MatrixCommandJoins_now_drain :
    (∃ e ∈ matrixForms mxS (mf 1 2), e.1 = .mdrain (mf 1 2) ∧ e.1.wf = true ∧ e.2.2 ∧ mxS.tile.mSched e.2.1 = [] ∧ Latches mxS e.2.1) :=
  ⟨_, (.tail _ (.tail _ (.tail _ (.tail _ (.tail _ (.tail _ (.tail _ (.tail _ (.tail _ (.head _)))))))))), rfl, by decide, ⟨by decide, by decide, by decide⟩, by decide, by decide⟩

theorem witness_MatrixCommandJoins_now_load :
    (∃ e ∈ matrixForms mxS (mf 64 1), e.1 = .mldb (mf 64 1) ∧ e.1.wf = true ∧ e.2.2 ∧ mxS.tile.mSched e.2.1 = [] ∧ Latches mxS e.2.1) ∧
    (∃ e ∈ matrixForms mxS (mf 64 1), e.1 = .mldbt (mf 64 1) ∧ e.1.wf = true ∧ e.2.2 ∧ mxS.tile.mSched e.2.1 = [] ∧ Latches mxS e.2.1) :=
  ⟨⟨_, .head _, rfl, by decide, ⟨by decide, ⟨_, rfl, by decide⟩, by decide, by decide, by decide⟩, by decide, by decide⟩,
    ⟨_, (.tail _ (.head _)), rfl, by decide, ⟨by decide, ⟨_, rfl, by decide⟩, by decide, by decide, by decide⟩, by decide, by decide⟩⟩

/-- A drain of FP32 rows, which need FP32 in the bank and in the next one. -/
def wideS : State := on fun x => (x.setSreg srBFMT 10).setSreg (srBFMT + 1) 10

theorem witness_MatrixCommandJoins_later_wide :
    ∃ e ∈ matrixForms wideS { mfS 1 1 with sgnA := true, sgnB := true }, e.1.wf = true ∧ e.2.1.dfmt = 3 ∧ e.2.2 ∧ wideS.tile.mSched e.2.1 = [] :=
  ⟨_, (.tail _ (.tail _ (.tail _ (.tail _ (.tail _ (.tail _ (.tail _ (.tail _ (.tail _ (.head _)))))))))), by decide, by decide,
    ⟨by decide, by decide, by decide⟩, by decide⟩

/-- The image of the slot is bad when the command starts; the queue holds an earlier command. -/
def lateS : State := mxS.onTile fun x =>
  { x with w := [(0, { WSlot.empty with ready := some 0, img := 7, mode := 2, kl := 16, rows := [(0, Reg.ofGrans 32 [⟨0, 0⟩])] })] }

theorem witness_MatrixCommandJoins_now_late :
    ∃ e ∈ matrixForms lateS (mf 1 2), e.1 = .mma (mf 1 2) ∧ e.1.wf = true ∧ e.2.2 ∧ lateS.tile.mSched e.2.1 = [] ∧ ¬Latches lateS e.2.1 ∧
      ∀ m ∈ lateS.tile.mq, m.id ≠ lateS.nextId :=
  ⟨_, (.tail _ (.tail _ (.head _))), rfl, by decide, ⟨by decide, by decide, by decide⟩, by decide, by decide, by decide⟩

/-- A command of two rows over a slot of one, whose last row is the row of a tile with a good old row, or with a bad one. -/
def rowC (op : Nat) (v : WSlot) : MCmd := { cmd mxS op (mf 2 2) [] 0 with image := some v }

def rowV (mode : Nat) : WSlot := { WSlot.empty with ready := some 0, img := 7, mode := mode, kl := 2048 / modeBits mode }

theorem witness_MatrixRowsWritten_images :
    (∀ op ∈ [2, 3, 4, 7, 8], (rowC op (rowV 0)).o = op ∧ 1 < (rowC op (rowV 0)).rows) ∧ (∀ op v, (rowC op v).image = some v) ∧
    (∀ mode < 4, (rowV mode).mode = mode ∧ (rowV mode).kl ≤ 2048 / modeBits (rowV mode).mode) ∧ Clean (rowV 0).colsum ∧
    Clean (State.reset.tile.acc ((rowC 2 (rowV 0)).accRow 1)) ∧ Clean (State.reset.tile.rowSum 1) :=
  ⟨by decide, fun _ _ => rfl, by decide, by decide, by decide, by decide⟩

/-- Convolution rows past the end, and within it; an old row that is bad. -/
theorem witness_MatrixRowsWritten_rows :
    (rowC 4 (rowV 2)).conv 1 = .past ∧
    (let c := cmd mxS 0x04 (mf 1 2) ((List.range 3).map fun k => mxS.tile.sreg (srCVDIM + k)) 0
     0 < c.rows ∧ c.conv 0 ≠ .past) ∧
    (let x := State.reset.tile.setAcc 1 (Reg.ofGrans 64 [⟨0, 0⟩])
     ∃ b, (x.acc ((rowC 2 (rowV 2)).accRow 1)).firstBad (fun _ => true) = some b) ∧
    (∀ op ∈ [5, 6, 10], (rowC op (rowV 2)).o = op ∧ 1 < (rowC op (rowV 2)).rows) ∧
    (∀ fmt ∈ [(false, false), (true, false), (false, true), (true, true)],
      let c := { rowC 9 (rowV 2) with f := { mf 2 2 with sgnA := fmt.1, sgnB := fmt.2 }, params := List.replicate 3 (.zero 32) }
      c.o = 9 ∧ 1 < c.rows ∧ c.params.length = 3 ∧ c.accRow 1 = (rowC 2 (rowV 0)).accRow 1) := by
  refine ⟨by decide, by decide, ⟨_, rfl⟩, by decide, by decide⟩

/-- MZERO alone in the queue, at the cycle of its first row. -/
theorem witness_MatrixRowsWritten_step :
    let c := rowC 5 (rowV 2)
    let x := { State.reset.tile with mq := [c], mclk := c.s }
    x.mq = [c] ∧ c.readAt { x with mclk := x.mclk + 1 } 0 (x.mclk + 1) = (c, none, false) ∧
      ∀ y : Tile, y.z = x.z → y.rs = x.rs → c.writeAt y (x.mclk + 1) = (c, c.rowOut 0 (.zero 64) 0, none) :=
  ⟨rfl, rfl, fun _ _ _ => rfl⟩

/-- A handler at supervisor level whose s2 is the last place for an image, with a header there. -/
def imgS : State := on fun x =>
  let y := ((x.setSt stSV true).setSt stTRP true).setScalar 2 (scalarOf (2 ^ 21 - 49152))
  { y with pad := y.pad.writes (gwCarry ((2 ^ 21 - 49152) / 8) (Reg.fresh 1 0x014D584131) 0xFF) }

theorem witness_ArrayImageInHandler :
    imgS.tile.sv? = true ∧ imgS.tile.trp = true ∧ imgS.tile.GoodS 2 ∧ imgS.tile.sv 2 % 256 = 0 ∧ imgS.tile.sv 2 + 192 * 256 ≤ 2 ^ 21 ∧
    (Instr.mxsave (mf 0 2)).wf = true ∧ (Instr.mxrest (mf 0 2)).wf = true ∧ mxHeaderErr (imgS.tile.pad.reg (imgS.tile.sv 2 / 8) 32) = none ∧
    (imgS.tile.pad.gran (imgS.tile.sv (mf 0 2).abase.toNat / 8)).bad = false := by
  decide

theorem witness_FaultInjection :
    imgS.tile.sv? = true ∧ imgS.tile.cond 0 false = true ∧ imgS.tile.GoodS 0 ∧ imgS.tile.GoodS 1 ∧ imgS.tile.GoodS 2 ∧ imgS.tile.sv 2 < 2 ^ 21 ∧
    (Instr.rinj { sf 0 1 2 with imm32 := 319 }).wf = true ∧ (Instr.rinj { sf 0 1 2 with imm32 := 512 + 63 }).wf = true ∧
    (Instr.rinj { sf 0 1 0 with imm32 := 2 * 512 + 31 + 2 * 4096 }).wf = true ∧ (Instr.rinj { sf 2 1 1 with imm32 := 3 * 512 + 4096 }).wf = true ∧
    bit 5 1 = false ∧ bit 5 2 = true ∧
    imgS.tile.bothBusy imgS.now (imgS.now + 4) (imgS.tile.sv 2 / 256 / 128) = false := by decide

/-! ### Control flow, traps, casks -/

/-- A running tile that has the bundles at 0, 64 and 128 in its queue, and s2 a target. -/
def runS (f : Tile → Tile) : State := on fun x => f { x.setScalar 2 (scalarOf 0x1040) with run := .running, fq := [0, 64, 128] }

theorem witness_BranchResult :
    (runS id).tile.cond 0 false = true ∧ (Instr.br (yf 0x80000)).wf = true ∧ (Instr.brp { yf 4 with pred := 31, neg := true }).wf = true ∧
    ((runS id).tile.pred 31).d.toNat ≠ 2 ^ 256 - 1 ∧ ((runS id).tile.pred 0).d.toNat ≠ 0 ∧ (Instr.brs (yf (2 + 64 * 5 + 4096 * 255))).wf = true ∧
    Clean ((runS id).tile.scalar (YF.a (yf 2))) ∧ (Instr.jr (yf 2)).wf = true ∧ (Instr.call (yf 0x7FFFF)).wf = true ∧ (Instr.callr (yf 2)).wf = true ∧
    (Instr.ret (yf 0)).wf = true ∧ (runS id).tile.GoodS 62 := by decide

theorem witness_LoopsAndFetchQueue :
    (Instr.loop (yf (2 + 4096 * 2))).wf = true ∧ (Instr.loopi (yf (4095 + 4096 * 255))).wf = true ∧ (runS id).tile.cond 0 false = true ∧
    Clean ((runS id).tile.scalar 2) ∧ ((runS fun x => x.setSreg srLLVL 3).tile.sreg srLLVL).toNat < 4 ∧
    4 ≤ ((runS fun x => x.setSreg srLLVL 4).tile.sreg srLLVL).toNat ∧
    (runS fun x => { x with branch := some 0x1000 }).tile.fq = [0, 64, 128] ∧ (runS fun x => { x with branch := some 0x1000 }).tile.branch = some 0x1000 ∧
    (runS id).tile.branch = none ∧ (runS id).tile.sreg srLLVL = 0 ∧
    (let x := (runS fun x => ((x.setSreg srLLVL 1).setSreg srLFIN 128).setSreg srLCNT 2).tile
     x.fq = [0, 64, 128] ∧ x.branch = none ∧ (x.sreg srLLVL).toNat = 1 ∧ x.sreg srLFIN = 128 ∧ 1 < (x.sreg srLCNT).toNat) ∧
    (let x := (runS fun x => ((x.setSreg srLLVL 1).setSreg srLFIN 128).setSreg srLCNT 1).tile
     x.fq = [0, 64, 128] ∧ (x.sreg srLLVL).toNat = 1 ∧ x.sreg srLFIN = 128 ∧ (x.sreg srLCNT).toNat ≤ 1) ∧
    (let x := (runS fun x => (x.setSreg srLLVL 4).setSreg (srLFIN + 3) 64).tile
     x.fq = [0, 64, 128] ∧ (x.sreg srLLVL).toNat = 4 ∧ x.sreg (srLFIN + 3) ≠ 128) := by decide

/-- Task 0 on tile 0; `r` is its record. -/
def ent (r : BitVec 1536) : TaskEnt :=
  { st := .running, record := r, order := 0, place := 0, pri := 0, renamed := [], since := false, bypass := 0, pdom := 0, tile := some 0,
    leader := 0, member := 0, nmem := 1, startAt := none, effect := false, spent := false, fails := 0, gen := 0, cask := none, gcask := none, pre := false,
    root := true, shadows := [] }

def taskS (r : BitVec 1536) (f : Tile → Tile) : State := (runS fun x => f { x with task := some 0 }).setTask 0 (some (ent r))

theorem witness_OrderingInstructions_fence :
    (runS id).tile.cond 0 false = true ∧ (Instr.fence (yf 1)).wf = true ∧ (Instr.fence (yf (2 + 4 * 4 + 32))).wf = true ∧
    Released (runS id) 4 true ∧ (Instr.sync (yf (3 * 2 ^ 18 + 2 ^ 17 + 2))).wf = true ∧ syncLevel (yf (3 * 2 ^ 18 + 2 ^ 17 + 2)) = 3 ∧
    (Instr.sync (yf (2 * 2 ^ 18 + 2))).wf = true ∧ (Instr.sync (yf 0)).wf = true ∧ Clean ((runS id).tile.scalar 2) := by decide

/-- A stream of kind 3 at port 0, and a task of reach job 1 there. -/
theorem witness_OrderingInstructions_reach :
    (let s := taskS (BitVec.ofNat 1536 (1 + 2 ^ 216)) fun x => x.setScalar 2 (scalarOf 7)
     let t : State := { s with ports := s.ports.set 0 { s.ports[0] with streams := [(7, BitVec.ofNat 64 (3 * 2 ^ 61))] } }
     t.reachErr (t.tile.sv 2 % 2 ^ 12) = false) := by decide

theorem witness_OrderingInstructions_wait :
    (Instr.waitc (yf (2 + 64 * 3))).wf = true ∧ Clean ((runS id).tile.scalar 3) ∧ (runS id).counterMet 0 0 = true ∧ (runS id).counterMet 4095 1 = false ∧
    (runS id).tile.timed = false ∧ (runS fun x => x.setSt stTM true).tile.timed = true ∧
    (Instr.waith (yf (31 * 2 ^ 15 + 2 * 2 ^ 13 + 2 ^ 12))).wf = true ∧ ((runS id).tile.handle 31).settled 2 = true ∧ ((runS id).tile.handle 31).failed = false ∧
    (∀ b, let x := (runS fun x => { x.setSt stTM b with handles := [(31, { Handle.zero with iss := 1 })] }).tile
      (x.handle 31).settled 2 = false ∧ x.timed = b) ∧
    ((runS fun x => { x with handles := [(31, { Handle.zero with iss := 1, fail := 1, ferr := 5 })] }).tile.handle 31).settled 2 = true ∧
    ((runS fun x => { x with handles := [(31, { Handle.zero with iss := 1, fail := 1, ferr := 5 })] }).tile.handle 31).failed = true := by decide

theorem witness_TrapInstructions :
    (runS id).tile.cond 0 false = true ∧ (Instr.trap (yf (2 + 15 * 4096))).wf = true ∧ Clean ((runS id).tile.scalar 2) ∧
    (Instr.bkpt (yf (255 * 4096))).wf = true ∧ (Instr.eret (yf 0)).wf = true ∧ imgS.admits (.eret (yf 0)) = true ∧ imgS.tile.gaveUp = false ∧
    (imgS.onTile fun x => { x with gaveUp := true }).admits (.eret (yf 0)) = true ∧ (imgS.onTile fun x => { x with gaveUp := true }).tile.gaveUp = true ∧
    (Instr.halt (yf 0)).wf = true ∧ (Instr.yield (yf 4096)).wf = true ∧ (runS id).tile.mqBefore = false ∧ imgS.tile.trp = true ∧
    (runS fun x => { x with mq := [{ cmd mxS 0x05 (mf 1 0) [] 0 with pc := 64 }] }).tile.mqBefore = true := by decide

/-- The page at 0 is mapped; s2 is 0x100 there, s4 is 0x200. -/
def caskS (f : Tile → Tile) : State := runS fun x =>
  f { (x.setScalar 2 (scalarOf 0x100)).setScalar 4 (scalarOf 0x200) with
      utlb := [{ pdom := 0, page := 0, size := 2 ^ 21, pa := 0x200000, perm := 15, fault := none }] }

theorem witness_CaskInstructions_suspend :
    (caskS id).tile.cond 0 false = true ∧ Clean ((caskS id).tile.scalar 2) ∧ Clean ((caskS id).tile.scalar 3) ∧ (caskS id).tile.sv 2 % 256 = 0 ∧
    (Instr.susp (yf (2 + 64 * 3 + 4096))).wf = true ∧ (caskS id).admits (.susp (yf (2 + 64 * 3 + 4096))) = true ∧ (caskS id).tile.mqBefore = false ∧
    (Instr.suspg (yf (2 + 64 * 3))).wf = true ∧ (caskS id).admits (.suspg (yf (2 + 64 * 3))) = true := by decide

theorem witness_CaskInstructions_pages :
    (∃ m, (caskS id).tile.runPages 0x100 (caskSize true 0 false false) needW = .pages m) ∧
    ∃ m, (caskS id).tile.runPages 0x100 (0x400 + ((caskS id).gangHere 0).length * caskSize false 0 false false) needW = .pages m :=
  ⟨⟨_, rfl⟩, _, rfl⟩

def claimS : State := caskS fun x =>
  { x with claim := some { pc := 0, va := 0x100, pa := 0x200100, at_ := 0, done := true, fault := none, size := 0, level := 0, home := true,
                           entry := 0, pdom := 0 } }

theorem witness_CaskInstructions_resume :
    (Instr.rsm (yf 2)).wf = true ∧ (caskS id).tile.claim = none ∧ (caskS id).tile.translate 0x100 needR = .pa 0x200100 ∧
    (claimS.tile.claim.map fun c => (c.done, c.pc == claimS.tile.pc, c.fault)) = some (true, true, none) ∧ claimS.tile.cond 0 false = true := by decide

theorem witness_CaskInstructions_query :
    (caskS id).tile.GoodS 2 ∧ (caskS id).tile.GoodS 4 ∧ (caskS id).tile.sv 4 % 256 = 0 ∧ (Instr.caskdup (cf 1 2 4 0)).wf = true ∧
    (caskS id).tile.translate 0x200 needW = .pa 0x200200 ∧ (Instr.caskdisc (cf 1 2 0 0)).wf = true ∧ (Instr.caskq (cf 1 2 0 0)).wf = true ∧
    (caskS id).tile.translate 0x100 needRW = .pa 0x200100 := by decide

/-- The page at 0 lies at 0x200000 in every table, and a cask header with a state, held locks and rights stands at address 0x100 there. -/
def headS (st held rights : Nat) : State :=
  ({ State.reset with stlb := [{ pdom := 0, page := 0, size := 2 ^ 16, pa := 0x200000, perm := 15, fault := none }] } : State).memWrites none
    (gwCarry (0x200100 / 8) (Reg.fresh 32 (caskMagic + 2 ^ 32 + st * 2 ^ 48 + 0x100 * 2 ^ 128 + 256 * 2 ^ 192 + rights * 2 ^ 320 + held * 2 ^ 368)) (2 ^ 256 - 1))

theorem witness_CaskInstructions_unit :
    (headerErr (State.reset.caskHeader (State.reset.caskPages 0 0x100 256) 0x100)).isSome = true ∧
    (∀ st ∈ [csSealed, csAnchored, csSpent], ∀ held ∈ [0, 1], ∀ rights ∈ [13, 15],
      let h := (headS st held rights).caskHeader ((headS st held rights).caskPages 0 0x100 256) 0x100
      (headerErr h).isSome = false ∧ hget h hfState = st ∧ hget h hfHeld = held ∧ bit (rightsOf false 0 h) 1 = (rights == 15)) ∧
    (let h := (headS csSealed 0 11).caskHeader ((headS csSealed 0 11).caskPages 0 0x100 256) 0x100
     hget h hfState = csSealed ∧ bit (rightsOf false 0 h) 2 = false) ∧ (0x100 : Nat) < 0x1FF + 256 ∧ 0x1FF < 0x100 + 256 := by decide

/-- The claim of this bundle has failed with a fault. -/
theorem witness_CaskInstructions_fault :
    (let q : Flt := State.reset.tile.fieldTrap 0xC hfState
     let s := caskS fun x => { x with claim := some { pc := 0, va := 0x100, pa := 0x200100, at_ := 0, done := true, fault := some q, size := 0, level := 0,
                                                      home := true, entry := 0, pdom := 0 } }
     (s.tile.claim.map fun c => (c.done, c.pc == s.tile.pc, c.fault)) = some (true, true, some q)) := by decide

/-! ### The C slot -/

/-- s2 is the last granule of the scratchpad, s4 its last word, s5 the last 16 bytes, s6 a rank and a window; the page at 0 is mapped. -/
def cS (f : Tile → Tile) : State := caskS fun x =>
  f (((((x.setScalar 2 (scalarOf (2 ^ 21 - 8))).setScalar 4 (scalarOf (2 ^ 21 - 4))).setScalar 5 (scalarOf (2 ^ 21 - 16))).setScalar 6
    (scalarOf (255 * 2 ^ 16))).setScalar 7 (scalarOf 1))

/-- Engine 1 stopped. -/
def stopS : State := cS fun x => x.setEngine true { CopyEngine.init with st := .stopped, cause := 3 }

/-- A tensor of 256 bytes, id 1, in one bank. -/
def tensorR : Nat := 1 + 2 ^ 16 + 2 ^ 24 + 2 ^ 56 + 256 * 2 ^ 128 + 2 ^ 256 + 256 * 2 ^ 512 + 2 ^ 624 + 2 ^ 634

def boundS : State := { cS id with
  binds := [{ record := BitVec.ofNat 768 tensorR, pdom := 0, refs := 1, cached := true, lo := 0x10000, hi := 0x10100, pages := [] }] }

theorem witness_CopyInstructions_stage :
    (cS id).tile.cond 0 false = true ∧ (cS id).tile.GoodS 2 ∧ (cS id).tile.GoodS 4 ∧ (cS id).tile.GoodS 5 ∧
    (Instr.cloop { cf 0 2 4 5 with x := 11 }).wf = true ∧ (Instr.cbase { cf 0 2 4 5 with x := 9 }).wf = true ∧
    (Instr.cbase { cf 0 2 4 5 with x := 4, imm20 := 1 + 12 * 32 + 255 * 1024 }).wf = true ∧ (Instr.cstop { cf 0 0 0 0 with x := 1 }).wf = true ∧
    (∀ k ∈ [0, 2, 4, 8], (Instr.cquery { cf 1 0 0 0 with x := k }).wf = true) ∧ (Instr.cquery { cf 1 0 0 0 with x := 6 + 16 * 5 }).wf = true ∧
    ((cS id).tile.engine true).cfg.tensor = none := by decide

theorem witness_CopyInstructions_go :
    (Instr.cgo { cf 0 0 0 0 with x := 1, imm20 := 0xFFFFF }).wf = true ∧ ((cS id).tile.engine true).st = .idle ∧
    (Instr.cgo { cf 0 0 0 0 with x := 3 }).wf = true ∧ (stopS.tile.engine true).st = .stopped ∧ (Instr.cgo { cf 3 7 0 0 with x := 4 }).wf = true ∧
    boundS.tile.GoodS 7 ∧ boundS.tile.GoodS 0 ∧ boundS.tile.GoodS 3 ∧ bits (boundS.tile.sv 3) 16 2 = 0 ∧
    boundS.tensorChecks 0 (boundS.tile.sv 7 % 2 ^ 16) (bits (boundS.tile.sv 3) 0 7) (originOf (boundS.tile.sv 0) (boundS.tile.sv 0)) = [] := by
  decide

/-- v317 to v319 hold the record; v319 of another state a window of 8 bytes. -/
theorem witness_BindingInstructions :
    (let s := cS fun x => ((x.setVec 317 (Reg.fresh 32 (tensorR % 2 ^ 256))).setVec 318 (Reg.fresh 32 (tensorR / 2 ^ 256 % 2 ^ 256))).setVec 319
       (Reg.fresh 32 (tensorR / 2 ^ 512))
     (Instr.tbind { cf 1 0 0 0 with imm20 := 317 }).wf = true ∧ (∀ j < 12, (s.tile.recordGran 317 j).bad = false) ∧
       tensorErrs (s.tile.tensorRecord 317).toNat = []) ∧
    (let s := cS fun x => (x.setSt stSV true).setVec 319 (Reg.fresh 32 (2 ^ 67))
     (Instr.wcreate { cf 1 0 0 0 with imm20 := 319 }).wf = true ∧ s.admits (.wcreate { cf 1 0 0 0 with imm20 := 319 }) = true ∧
       (∀ j < 4, (s.tile.recordGran 319 j).bad = false) ∧ windowErrs (s.tile.windowDesc 319).toNat = []) ∧
    (cS id).tile.GoodS 6 ∧ (Instr.tunbind (cf 1 6 0 0)).wf = true ∧ (Instr.tflush { cf 0 6 0 0 with x := 4 }).wf = true ∧
    (Instr.wfree (cf 1 6 0 0)).wf = true := by decide

theorem witness_WindowControl :
    (cS id).tile.cond 0 false = true ∧ (cS id).tile.GoodS 6 ∧ (Instr.wpost (cf 31 6 0 0)).wf = true ∧ (Instr.wdone (cf 31 6 0 0)).wf = true ∧
    (Instr.wstart (cf 31 6 0 0)).wf = true ∧ (cS id).accRecs.length < 64 ∧ (Instr.wcompl (cf 31 6 0 0)).wf = true ∧
    (Instr.wlock { cf 31 6 0 0 with x := 1 }).wf = true ∧ (Instr.wunlock (cf 31 6 0 0)).wf = true ∧ (Instr.wfence { cf 31 6 0 0 with x := 3 }).wf = true ∧
    ({ cS id with posts := [(0, 255)] } : State).reachable 0 = true ∧ ({ cS id with posts := [(0, 255)] } : State).posts.contains (0, 255) = true := by
  decide

theorem witness_RemoteOperations :
    (cS id).tile.GoodS 6 ∧ (cS id).tile.GoodS 0 ∧ (cS id).tile.GoodS 4 ∧ (cS id).tile.GoodS 5 ∧ ((cS id).ops.filter (·.chambered)).length < 256 ∧
    (let f := { cf 31 6 0 4 with imm20 := 4 + 4 * 32768 }
     remLen f = 4 ∧ (cS id).tile.sv 4 + 4 ≤ 2 ^ 21 ∧ (cS id).tile.sv 4 % max 1 (tyWidth (remType f) / 8) = 0 ∧ bit f.x.toNat 0 = false ∧
       (Instr.wput f).wf = true ∧ (Instr.wget f).wf = true ∧ (Instr.wacc { f with x := 16 }).wf = true) ∧
    (Instr.wput { cf 31 6 0 0 with x := 1, imm20 := 16384 + 4 * 32768 }).wf = true ∧
    (∃ m, (cS id).tile.runPages 0 16384 needR = .pages m) ∧ (∃ m, (cS id).tile.runPages 0 16384 needW = .pages m) ∧
    (Instr.wamo { cf 31 6 0 5 with imm20 := 4 * 32768, x := 12 + 16 }).wf = true ∧ (cS id).tile.sv 5 + 16 ≤ 2 ^ 21 ∧ (cS id).tile.sv 5 % 16 = 0 ∧
    (Instr.wflush { cf 0 6 0 0 with x := 1 }).wf = true ∧ (Instr.wflush { cf 0 0 0 0 with x := 2 }).wf = true ∧
    (cS id).flushOut 0 (some 0) true = false ∧ (cS id).flushOut 0 none false = false :=
  ⟨by decide, by decide, by decide, by decide, by decide, by decide, by decide, ⟨_, rfl⟩, ⟨_, rfl⟩, by decide, by decide, by decide, by decide,
    by decide, by decide, by decide⟩

/-- At 0x200 of the scratchpad a task record, at 0x400 a collective of one member with one 32-bit unit. -/
def recS : State := taskS 1 fun x =>
  { ((x.setScalar 4 (scalarOf 0x200)).setScalar 6 (scalarOf 0x400)).setScalar 7 (scalarOf 1) with
    pad := x.pad.writes (gwCarry (0x200 / 8) (Reg.fresh 1 1) 0xFF ++ gwCarry (0x400 / 8) (Reg.fresh 8 (0x4001 + 2 ^ 77 + 2 ^ 90 + 2 ^ 256 + 2 ^ 288)) (2 ^ 64 - 1)),
    utlb := [{ pdom := 0, page := 0, size := 2 ^ 21, pa := 0x200000, perm := 15, fault := none }] }

theorem witness_CountersHandlesTasks_counters :
    recS.tile.cond 0 false = true ∧ recS.tile.GoodS 4 ∧ recS.tile.GoodS 7 ∧ (Instr.cinc { cf 0 4 7 0 with x := 1 }).wf = true ∧ Released recS 2 false ∧
    (Instr.cset (cf 0 4 7 0)).wf = true ∧ (Instr.cread (cf 63 4 0 0)).wf = true ∧ (Instr.wtest { cf 0 4 0 31 with x := 4 }).wf = true ∧
    (Instr.pbind (cf 1 4 0 0)).wf = true ∧ recS.tile.sv 4 < 2 ^ 23 ∧ (Instr.pbind { cf 1 4 0 0 with x := 2 }).wf = true := by decide

theorem witness_CountersHandlesTasks_spawn :
    (Instr.tspawn { cf 1 4 0 0 with x := 1 }).wf = true ∧ recGang (recS.tile.taskRecord 0x200) + 1 = 1 ∧ recS.tile.sv 4 = 0x200 ∧
    (∀ k < 24, (recS.tile.pad.gran (0x200 / 8 + k)).bad = false) ∧ recS.tile.spawnErrs [recS.tile.taskRecord 0x200] = [] := by decide

theorem witness_CountersHandlesTasks_collective :
    (Instr.coll { cf 31 6 0 0 with x := 1, imm20 := 0xFFFFF }).wf = true ∧ (Instr.coll (cf 31 6 0 0)).wf = true ∧ recS.collWaiting < 64 ∧
    recS.tile.sv 6 = 0x400 ∧ (∀ k < 8, (recS.tile.pad.gran (0x400 / 8 + k)).bad = false) ∧ collErrs (recS.tile.collRecord 0x400) = [] ∧
    crMember (recS.tile.collRecord 0x400) recS.rank = some 0 ∧ crHasSrc (recS.tile.collRecord 0x400) 0 = true ∧ crStrm (recS.tile.collRecord 0x400) = false ∧
    ∃ m, recS.tile.runPages (crSrc (recS.tile.collRecord 0x400)) (crRun (recS.tile.collRecord 0x400)) needR = .pages m :=
  ⟨by decide, by decide, by decide, by decide, by decide, by decide, by decide, by decide, by decide, _, rfl⟩

theorem witness_CountersHandlesTasks_handles :
    (Instr.hinit (cf 31 0 0 0)).wf = true ∧ (recS.tile.handle 31).settled 0 = true ∧ (recS.tile.handle 31).settled 2 = true ∧
    (Instr.htest { cf 31 0 0 31 with x := 3 }).wf = true ∧ (Instr.hread { cf 31 0 0 63 with x := 6 }).wf = true ∧
    (Instr.teffect (cf 9 0 0 0)).wf = true ∧ (recS.taskOf 0).map (·.1) = some 0 ∧ (Instr.teffect { cf 0 0 0 0 with x := 1 }).wf = true ∧
    recS.admits (.teffect { cf 0 0 0 0 with x := 1 }) = true := by decide

/-- Engine 0 has counted copy 5 as its last, which performs last at FTIME 9. -/
theorem witness_CopyInstructions_busy :
    (let s := cS fun x => x.setEngine false { CopyEngine.init with st := .running }
     (s.tile.engine false).st = .running ∧ (Instr.cgo (cf 0 0 0 0)).wf = true ∧ cgoTensor (cf 0 0 0 0) = false ∧ cgoRes (cf 0 0 0 0) = false) ∧
    (Instr.cgo { cf 0 0 0 0 with x := 2 }).wf = true ∧ cgoRes { cf 0 0 0 0 with x := 2 } = true ∧ ((cS id).tile.engine false).st = .idle := by decide

theorem witness_CopyInstructions_last :
    (let s := cS fun x => x.setEngine false { CopyEngine.init with cn := 6, lasts := [(5, 9)] }
     (s.tile.engine false).cn = 5 + 1 ∧ (s.tile.engine false).lasts.find? (fun l => l.1 == 5) = some (5, 9)) ∧
    ((cS id).tile.engine false).cn = 0 ∧ cquerySel { cf 1 0 0 0 with x := 4 } = 2 := by decide

/-! ### Events -/

/-- The basin has booted; the event's data are `a`. -/
def evS (a : EvArg) (h : HostPort → HostPort) : State := { State.reset with bootStep := 4, arg := a, host := h State.reset.host }

def bootS : State := { evS EvArg.none id with boot := some { BootInput.none with linkEnable := 0x1FF } }

theorem witness_HostRegisterEvents_root :
    State.reset.bootStep < 4 ∧ 4 ≤ (evS EvArg.none id).bootStep ∧ (evS EvArg.none id).host.rootSt = 0 ∧
    (evS EvArg.none fun h => { h with rootRec := 1 }).rootErrs 1 = [] ∧ (evS EvArg.none id).rootErrs 0 ≠ [] ∧
    (∀ e ∈ (evS EvArg.none id).taskList, e.2.shadows = []) ∧ ((2 ^ 30 : Word).toNat % 2 ^ 21 = 0 ∧ (2 ^ 30 : Word).toNat ≤ 2 ^ 30) := by decide

theorem witness_HostRegisterEvents_entries : 4095 ∈ (evS EvArg.none id).freeEntries :=
  List.mem_filter.mpr ⟨List.mem_range.mpr (by decide), by decide⟩

theorem witness_HostRegisterEvents_jobs :
    ((evS { EvArg.none with n := 15 } id).host.rjArm.get 0 15 ≠ 1) ∧ ((evS { EvArg.none with n := 15 } fun h => { h with rjArm := [(15, 1)] }).host.rjArm.get 0 15 = 1) ∧
    (evS { EvArg.none with n := 15 } id).arg.n ≤ 15 ∧ (evS { EvArg.none with n := 2 ^ 36 - 8, m := 8 } id).arg.n + 8 = 2 ^ 36 ∧
    2 ^ 36 < (evS { EvArg.none with n := 2 ^ 36, m := 1 } id).arg.n + 1 ∧
    (evS { EvArg.none with n := 2 ^ 36 - 1, bytes := [7] } id).arg.n + [7].length = 2 ^ 36 ∧ Memory.wf (evS EvArg.none id).mem := by decide

/-- The running task of tile 0, throttled till now, of reach job 1. -/
theorem witness_HostRegisterEvents_power :
    ((taskS 1 id).gangs.reverse.find? (taskS 1 id).mayThrottle).isSome = true ∧ 0 ∈ gangTiles ((taskS 1 id).gangOf 0) ∧
    (let s := taskS (BitVec.ofNat 1536 (1 + 2 ^ 216)) fun x => { x with throttled := some 0 }
     (s.tileAt (tid 0)).throttled = some 0 ∧ 0 ≤ s.now ∧ ∃ e ∈ s.taskList, recRjob e.2.record ≠ 0 ∧ e.2.tile.isSome = true) := by decide

/-- CMDST busy and not; tile 31 stopped; a selector of scalar 63; a failed task at entry 4095; port 8, OFF and enabled; a table. -/
theorem witness_HostCommandEvents :
    (evS EvArg.none fun h => { h with cmdst := 1 }).host.cmdst = 1 ∧ (evS EvArg.none id).host.cmdst ≠ 1 ∧
    (let s := evS EvArg.none fun h => { h with carg0 := 31 + 63 * 256 }
     let t := s.modTile 31 fun x => { x with run := .stopped }
     tid (s.host.carg0.toNat % 32) = 31 ∧ (t.tileAt 31).run = .stopped ∧ (s.tileAt 31).run ≠ .stopped ∧
       (t.selected t.host.carg0.toNat).isSome = true ∧ bits t.host.carg0.toNat 5 3 = 0 ∧ bits t.host.carg0.toNat 8 10 = 63 ∧ bits t.host.carg0.toNat 18 46 = 0) ∧
    (((evS EvArg.none fun h => { h with carg0 := 4095 }).setTask 4095 (some { ent 1 with st := .failed 6 })).task 4095).map (·.st) = some (.failed 6) ∧
    (let s := { bootS with host := { bootS.host with carg0 := 8 } }
     s.argPort = some 8 ∧ s.enabled 8 = true ∧ s.ports[8].link = .off) ∧ tableErr [0] [] = none ∧ [0].length ≤ 65536 ∧ (4 : Word).toNat % 4 = 0 ∧
    (15 : Nat) % 16 ≠ 0 := by decide

/-- Granule 63 of the last accumulator row, a granule that a scalar lacks, a read-only register, a task that has not failed, no boot record. -/
theorem witness_HostCommandEvents_refused :
    (∀ c ∈ [31 + 3 * 32 + 1023 * 256 + 63 * 2 ^ 18, 31 + 32 + 31 * 256 + 3 * 2 ^ 18, 31 + 256 + 2 ^ 18, 31 + 4 * 32 + 8 * 256],
      let s := (evS EvArg.none fun h => { h with carg0 := BitVec.ofNat 64 c }).modTile 31 fun x => { x with run := .stopped }
      (s.tileAt 31).run = .stopped ∧ s.host.carg0.toNat = c ∧ ((s.selected c).isSome = false ↔ c = 31 + 256 + 2 ^ 18)) ∧
    sregReadOnly 8 = true ∧ (((evS EvArg.none id).setTask 0 (some (ent 1))).task 0).map (·.st) = some (ent 1).st ∧ (ent 1).st ≠ .failed 0 ∧
    (let s := { bootS with boot := none, host := { bootS.host with carg0 := 8 } }
     s.argPort = some 8 ∧ s.enabled 8 = false) ∧ (16 : Nat) % 16 = 0 ∧ (tableErr [BitVec.ofNat 32 (2 ^ 31 + 2 ^ 30)] []).isSome = true := by decide

/-- Port 8 as it is changed, of a basin whose event is of that port. -/
def portS (a : EvArg) (f : Port → Port) : State :=
  let s := { bootS with arg := { a with port := 8 } }
  { s with ports := s.ports.set 8 (f s.ports[8]) }

def flitOf (kind : BitVec 3) (lseq : BitVec 6) (tag : BitVec 16) (data : Word) : Flit :=
  { Flit.void with kind := kind, lseq := lseq, tag := tag, data := Reg.fresh 32 data.toNat }

theorem witness_LinkEvents_states :
    (∀ l ∈ [LinkState.train, .align, .auth, .keyed, .active, .failed], (portS EvArg.none fun p => { p with link := l }).ports[8].link = l) ∧
    (let s := { portS EvArg.none (fun p => { p with link := .train }) with now := 16777216 }
     s.ports[8].link = .train ∧ s.ports[8].since + 16777216 ≤ s.now) ∧
    (let s := portS EvArg.none fun p => { p with link := .keyed, shadow := some ([0], 0, []) }
     s.ports[8].shadow = some ([0], 0, []) ∧ (0 : Word) ≤ s.ftime ∧ tableErr [0] [] = none) ∧
    (portS EvArg.none fun p => { p with flits := 2 ^ 47 }).ports[8].flits % 2 ^ 48 = 2 ^ 47 ∧
    (let x := (portS EvArg.none fun p => { p with link := .active, flits := 2 ^ 48, rekey := true }).ports[8]
     x.flits % 2 ^ 48 = 0 ∧ x.flits / 2 ^ 48 = x.epoch + 1 ∧ x.link = .active ∧ x.rekey = true) ∧
    (portS EvArg.none fun p => { p with link := .active, flits := 2 ^ 48 }).ports[8].rekey = false := by decide

theorem witness_LinkEvents_standing :
    (let s := portS { EvArg.none with flag := true, flit := flitOf 1 63 0 0 } id
     s.pkgOf s.arg.flit.src.toNat = some 0 ∧ s.arg.flag = true ∧ s.arg.flit.kind = 1 ∧ s.arg.flit.lseq ≠ (s.conn 0).nextRecv ∧ (s.conn 0).kept = []) ∧
    (let s := ({ portS { EvArg.none with flit := flitOf 3 0 0 0 } id with
        conns := [{ pkg := 0, nextSend := 0, nextRecv := 0, resend := false, owed := false, kept := [flitOf 1 63 0 0], again := [] }] } : State)
     s.pkgOf s.arg.flit.src.toNat = some 0 ∧ (s.conn 0).kept = flitOf 1 63 0 0 :: [] ∧ s.arg.flit.tag.truncate 6 = (flitOf 1 63 0 0).lseq + 1) := by
  decide

/-- The one slot of port 8's table brings a sync flit of stream 7; tile 0 has arrived at a reach `SYNC` of that stream. -/
theorem witness_LinkEvents_sync :
    (portS EvArg.none id).slotIndex 8 = none ∧
    (let s := portS { EvArg.none with flag := true, n := 7, flit := flitOf 4 0 7 1 }
        fun p => { p with active := [BitVec.ofNat 32 (2 ^ 16 + 7 * 16)], streams := [(7, BitVec.ofNat 64 (3 * 2 ^ 61))] }
     s.slotIndex 8 = some 0 ∧ akind (s.ports[8].entryAt 0) = 1 ∧ streamKind (s.ports[8].streams.get 0 (astream (s.ports[8].entryAt 0))) = 3 ∧
       bits s.arg.flit.tag.toNat 0 12 = astream (s.ports[8].entryAt 0) ∧ s.arg.flit.kind = 4 ∧ (s.arg.flit.data.gran 0).bad = false ∧
       (s.arg.flit.data.gran 0).d.getLsbD 0 = true ∧ ((flitOf 4 0 7 0).data.gran 0).d.getLsbD 0 = false ∧
       (let t := s.modTile 0 fun x => { x with run := .sync 3 true 7 (some 0) }
        (t.tileAt 0).run = .sync 3 true 7 (some 0) ∧ (7 : BitVec 32).toNat = t.arg.n ∧ t.restartPlanned 0 = false)) := by decide

/-! ### Windows -/

/-- Window 255 of 64 bytes, of rank 0 alone, with every right, in a mode and a state. -/
def winE (mode : Nat) (st : WState) : WEntry :=
  { desc := BitVec.ofNat 256 (64 * 2 ^ 64 + mode * 2 ^ 112 + 31 * 2 ^ 114), pdom := 0, pages := [], st := st, epoch := 0, bitmap := [], arrivals := [],
    fifo := [], holders := [], done := [], rej := 0, inFlight := 0, freeing := none }

def winS (f : Flit) (e : WEntry) : State := { evS { EvArg.none with flit := { f with win := 255 } } id with windows := [(255, some e)] }

/-- The last 32-bit word of the window, and one byte. -/
def reqF : Flit := { Flit.void with kind := 1, type := 4, count := 3, offset := 60 }

theorem witness_WindowEvents_requests :
    (∀ right ∈ [114, 115, 116, 117], ∃ e, (winS reqF (winE 0 .fenceOpen)).window 255 = some e ∧ e.lo ≤ 0 ∧ 0 ≤ e.hi ∧ e.admits 0 0 = true ∧
      bit e.desc.toNat right = true ∧ 60 + 4 ≤ e.length ∧ 60 % 4 = 0 ∧ 4 % 4 = 0 ∧ bit e.desc.toNat 118 = true) ∧
    (winS reqF (winE 0 .fenceOpen)).dedup.length < 4096 ∧ (winS reqF (winE 0 .fenceOpen)).tagOps = [] ∧
    (winS reqF (winE 0 .fenceOpen)).windows.get none 254 = none := by
  refine ⟨fun r h => ⟨_, rfl, by decide, by decide, by decide, ?_, by decide, by decide, by decide, by decide⟩, by decide, by decide, by decide⟩
  revert h r
  decide

/-- Operation 5 of tile 0: a get that waits for row 8191, an atomic, a lock. -/
def opR (kind : OpKind) : OpRec :=
  { opn := 5, seq := 9, kind := kind, tile := 0, h := 0, idx := 0, rank := 0, win := 255, off := 0, len := 16, type := 4, tag := 0, laddr := 2 ^ 21 - 16,
    glob := false, pages := [], lockTile := 0, iss := 0, loc := false, acc := false, vis := false, failed := false, poisoned := false, srcLeft := [], got := [],
    ret := [8191], entered := some 0, chambered := false, held := false, sent := true, leader := 9, links := [], cask := none }

theorem witness_WindowEvents_replies :
    (let s := { winS { Flit.void with opn := 5, count := 15 } (winE 0 .fenceOpen) with ops := [opR .get] }
     s.opOf 5 = some (opR .get) ∧ s.op? 9 = some (opR .get) ∧ (opR .get).ret.contains 8191 = true ∧ s.padTaken 0 (8191 / 128) = false ∧
       runRows (2 ^ 21 - 16 + (0 - 0)) 16 = [8191] ∧ 8191 = rowOf (opR .get).laddr ∧ (opR (.lock true)).cask = none ∧
       ({ s with ops := [opR (.lock true)] } : State).opOf 5 = some (opR (.lock true)) ∧ ({ s with ops := [opR .get] } : State).members (opR .get) = [opR .get]) ∧
    (let d := Reg.fresh 32 (5 * 2 ^ 55 + 2 * 2 ^ 53 + 3 * 2 ^ 48)
     bits (bits d.d.toNat 0 128) 69 13 = (evS EvArg.none id).rank ∧ bits (bits d.d.toNat 0 128) 55 14 = 5 ∧ bits (bits d.d.toNat 0 128) 53 2 = 2) := by decide

def recA (open_ : Bool) : AccRec := { rank := 0, win := 255, open_ := open_, closing := false, at_ := 0, opn := 0, tile := some 0 }

theorem witness_WindowEvents_control :
    ((∀ r ∈ (winS reqF (winE 1 .posted)).accRecs, ¬ (r.rank = 0 ∧ r.win = 255 ∧ r.open_ = false)) ∧
      ({ winS reqF (winE 1 .posted) with accRecs := [recA false] } : State).accRecs.find?
        (fun r => r.rank == 0 && r.win == 255 && !r.open_) = some (recA false)) ∧
    ((winS reqF (winE 1 .posted)).controlWindow { reqF with win := 255 } 1).toOption = some (winE 1 .posted) ∧ (winE 1 .posted).st = .posted ∧
    ((winS reqF (winE 0 .fenceOpen)).controlWindow { reqF with win := 255 } 0).toOption = some (winE 0 .fenceOpen) ∧
    ((winS reqF (winE 2 .passive)).controlWindow { reqF with win := 255 } 2).toOption = some (winE 2 .passive) ∧ (winE 2 .passive).fifo = [] ∧
    (winE 2 .passive).holders = [] ∧
    64 ≤ ({ winE 2 .passive with fifo := List.replicate 64 { rank := 0, tile := 0, ex := true, opn := 0 } } : WEntry).fifo.length ∧
    (let e := { winE 2 .passive with holders := [{ rank := 0, tile := 0, ex := true, opn := 0 }] }
     ((winS reqF e).controlWindow { reqF with win := 255 } 2).toOption = some e) := by decide

theorem witness_WindowEvents_queues :
    (let s := { winS reqF (winE 0 .fenceOpen) with ops := [{ opR .unlock with held := true, sent := false }], arg := { EvArg.none with n := 9 } }
     s.op? s.arg.n = some { opR .unlock with held := true, sent := false } ∧ s.mayDepart { opR .unlock with held := true, sent := false } = true) ∧
    (let s := { evS { EvArg.none with m := 255 } id with accRecs := [recA false], now := 16777216 }
     s.accRecs.find? (fun r => r.rank == s.arg.n && r.win == s.arg.m && !r.open_ && decide (r.at_ + 16777216 ≤ s.now)) = some (recA false)) ∧
    (let s := { winS reqF { winE 0 .fenceOpen with freeing := some none } with arg := { EvArg.none with m := 255 } }
     s.windows.get none s.arg.m = some { winE 0 .fenceOpen with freeing := some none }) := by decide

/-- A collective of two members, of 32-bit units, at its engine. -/
def collR : CollRec :=
  { id := ⟨0, 1, 2, 0⟩, tile := 0, opn := 0, record := BitVec.ofNat 512 (0x4001 + 2 ^ 25 + 2 ^ 77 + 2 ^ 91 + 2 ^ 256 + 2 ^ 288), member := 0, pages := [], at_ := 0,
    granted := false, gone := true, late := false, chunks := [], waiting := [], ready := [], writes := 0, sends := 0, code := 0 }

def collS (c : CollRec) : State := { evS { EvArg.none with coll := ⟨0, 1, 2, 0⟩, launch := ⟨⟨0, 1, 2, 0⟩, 0, 0⟩ } id with colls := [c] }

theorem witness_WindowEvents_collectives :
    (∀ l ∈ (collS collR).launches, l.id ≠ (collS collR).arg.launch.id) ∧ 1 < (collS collR).arg.launch.id.n ∧ (collS collR).grants = [] ∧
    (evS EvArg.none id).collOf ⟨0, 1, 2, 0⟩ = none ∧ (collS collR).collOf ⟨0, 1, 2, 0⟩ = some collR ∧
    (let s := { collS collR with colls := collR :: (List.range 16).map fun k => { collR with id := ⟨0, 1, 2, k + 1⟩, granted := true } }
     s.collOf ⟨0, 1, 2, 0⟩ = some collR ∧ s.collFits collR = false) ∧
    (collS collR).arg.n + 1 < (collS collR).arg.coll.n ∧ crHasSrc collR.record 0 = true ∧ collR.gone = true ∧ crStrm collR.record = false ∧
    collR.chunks.length < crChunks collR.record ∧ (collS collR).chunkReady collR 0 = true ∧ crChunks { collR with record := 0 }.record = 0 ∧
    (let d : PartId := { coll := ⟨0, 1, 2, 0⟩, chunk := 0, path := 0, stage := 0, piece := 0, wide := .zero 32 }
     ({ reqF with part := some d } : Flit).part = some d) := by decide

/-! ### The basin's own events -/

/-- Tile 0 as it is changed, in a basin whose event has the data `a`. -/
def tileS (a : EvArg) (f : Tile → Tile) : State := ({ evS a id with cur := 0 } : State).modTile 0 f

def l1L : L1Line := { tag := 0, v := 0, pend := BitVec.ofNat 64 (2 ^ 63), own := 0, dirty := 0, data := .zero 32 }

theorem witness_BasinEvents_tile :
    ((tileS EvArg.none id).tileAt 0).throttled = none ∧ ((tileS EvArg.none id).tileAt 0).trp = false ∧ ((tileS EvArg.none id).tileAt 0).task = none ∧
    ((tileS EvArg.none fun x => { x with throttled := some 5 }).tileAt 0).throttled.isSome = true ∧
    ((tileS EvArg.none fun x => { x with frozen := some (.cycles 0) }).tileAt 0).frozen = some (.cycles 0) ∧
    (tileS EvArg.none fun x => { x with frozen := some (.cycles 0) }).waitOver 0 (.cycles 0) = true ∧ (tileS EvArg.none id).waitOver 0 (.cycles 1) = false := by
  decide

theorem witness_BasinEvents_lines :
    ((tileS EvArg.none id).tileAt 0).fills.contains 0 = false ∧ ((tileS EvArg.none fun x => { x with fills := [3] }).tileAt 0).fills.contains 3 = true ∧
    (let p := (tileS EvArg.none fun x => { x with fills := [3] }).lineSlot 0 (3 / 4)
     ((p.2.tileAt 0).l1.get none p.1).isSome = true) ∧
    (let x := (tileS { EvArg.none with n := 63 } fun x => { x with l1 := [(0, some l1L)] }).tileAt 0
     x.l1Find (63 / 64) = some (0, l1L) ∧ l1L.pend.getLsbD (63 % 64) = true) ∧ ((tileS EvArg.none id).tileAt 0).l1Find (63 / 64) = none ∧
    (({ tileS EvArg.none id with owner := [(63, 1)] } : State).owner.get 0 63 = (0 : Tid).val + 1) ∧ (tileS EvArg.none id).owner.get 0 63 ≠ (0 : Tid).val + 1 ∧
    (let s := { tileS { EvArg.none with walk := ⟨0, 0, 0x1000, 4⟩ } id with walks := [⟨0, 0, 0x1000, 4⟩] }
     s.arg.walk ∈ s.walks) ∧ (tileS EvArg.none id).arg.walk ∉ (tileS EvArg.none id).walks ∧
    ((tileS EvArg.none fun x => { x with utlb := [{ pdom := 0, page := 0, size := 2 ^ 16, pa := 0, perm := 15, fault := none }] }).tileAt 0).translate
      (255 * 256) needX = .pa 0xFF00 := by decide

/-- A copy that has row 8191 of tile 31 still to write. -/
def runR : CopyRun :=
  { id := 3, nest := 1, e := false, cn := 0, at_ := 0, issue := 0, pc := 0, tm := false, sv := false, pdom := 0, cfg := .init, bfmt := [], sa := 0, da := 0,
    bytes := 1, src := [], dst := [], dstLeft := [31 * 8192 + 8191], lateRows := [], pages := [], got := [], tags := false, erc := true, lastCopy := true, rowmap := [],
    fin := false }

theorem witness_BasinEvents_copies :
    (let x := (tileS EvArg.none fun x => x.setEngine false { CopyEngine.init with st := .running, cn := 1 }).tileAt 0
     x.copyDue false = true ∧ (x.engine false).cfg.copies ≤ (x.engine false).cn) ∧ ((tileS EvArg.none id).tileAt 0).copyDue false = false ∧
    ((tileS EvArg.none id).tileAt 0).run? 3 = none ∧ ((tileS EvArg.none fun x => { x with copies := [runR] }).tileAt 0).run? 3 = some runR ∧
    runR.dstLeft.contains (31 * 8192 + 8191) = true ∧ (((tileS EvArg.none id).tileAt 0).engine false).wq = [] ∧
    (((tileS EvArg.none id).tileAt 0).engine false).rq = [] := by decide

theorem witness_BasinEvents_tasks :
    (evS EvArg.none fun h => { h with rootSt := 1 }).host.rootSt = 1 ∧
    (((tileS EvArg.none id).setTask 4095 (some { ent 1 with st := .created })).task 4095).map (·.st) = some .created ∧
    (tileS EvArg.none id).nextStart = none ∧ (∀ e ∈ (tileS EvArg.none id).taskList, recRjob e.2.record = 0 → e.2.st.unstarted = false) ∧
    (((tileS EvArg.none id).setTask 7 (some { ent 1 with st := .retired })).task 7).map (fun e => (e.st, e.shadows)) = some (.retired, []) ∧
    ((tileS EvArg.none fun x => { x with run := .running, atYield := true, preempt := true }).tileAt 0).yields = true := by decide

/-- Entry 7 is READY, and tile 0 is the first that is free. -/
theorem witness_BasinEvents_start :
    (let m := { ent 1 with st := .ready, tile := none }
     let s := (tileS EvArg.none id).setTask 7 (some m)
     s.nextStart = some ([(7, m)], []) ∧ m.cask = none ∧
       fitTiles (gangEnts [(7, m)]) (if gangBound [(7, m)] then s.freeTiles else s.openTiles) = some [0]) ∧
    (let m := { ent (BitVec.ofNat 1536 (1 + 15 * 2 ^ 216)) with startAt := some 0 }
     let s := (tileS { EvArg.none with n := 15 } fun x => { x with run := .entering (2 ^ 64) }).setTask 7 (some m)
     (7, m) ∈ s.taskList ∧ recRjob m.record = s.arg.n ∧ (s.tileAt 0).run = .entering (2 ^ 64) ∧ 0 ≤ s.ftime.toNat) := by decide

def haltS : State := (tileS EvArg.none fun x => { x with task := some 0, run := .halted }).setTask 0 (some (ent 1))

theorem witness_BasinEvents_retire :
    (tileS EvArg.none id).mayRetire 0 = false ∧ haltS.mayRetire 0 = true ∧ (haltS.taskOf 0).isSome = true ∧ (haltS.tileAt 0).dueF = [] ∧
    (haltS.tileAt 0).claim = none ∧ (haltS.tileAt 0).mDue = [] ∧ (haltS.tileAt 0).task.isSome = true := by decide

theorem witness_BasinEvents_sync :
    (tileS EvArg.none id).mayArrive 0 = false ∧ (tileS EvArg.none fun x => { x with run := .sync 1 false 0 none }).mayArrive 0 = true ∧
    (let s := tileS { EvArg.none with tiles := 1 } fun x => { x with run := .sync 1 false 0 (some 0) }
     s.arg.tiles = BitVec.ofNat 32 (2 ^ (0 : Tid).val) ∧ (s.tileAt 0).arrivedAt.isSome = true ∧ (s.tileAt 0).susp = none) := by decide

def suspU : Susp :=
  { va := 0x100, pages := [], mx := false, trap := false, banks := 0, pre := false, gang := none, size := 256, image := [], ftime := 0, done := false }

def claimU : Claim :=
  { pc := 0, va := 0x100, pa := 0x100, at_ := 0, done := false, fault := none, size := 0, level := 0, home := true, entry := 7, pdom := 0 }

theorem witness_BasinEvents_casks :
    (let s := tileS EvArg.none fun x => { x with susp := some suspU, run := .draining }
     (s.tileAt 0).susp = some suspU ∧ s.drained 0 = true) ∧
    (let s := (tileS EvArg.none fun x => { x with susp := some suspU, run := .writing, task := some 0 }).setTask 0 (some (ent 1))
     (s.tileAt 0).susp = some suspU ∧ (s.taskOf 0).isSome = true ∧ (s.tileAt 0).run = .writing ∧ suspU.done = false ∧ suspU.gang = none) ∧
    (tileS EvArg.none id).op? 9 = none ∧
    (let s := { tileS { EvArg.none with n := 9, m := 1 } id with ops := [opR .get] }
     s.op? 9 = some (opR .get) ∧ (opR .get).failed = false ∧ (opR .get).acc = false ∧ ∀ a ∈ s.anchors, some a.id ≠ (opR .get).cask) ∧
    (let s := tileS EvArg.none fun x => { x with claim := some claimU, run := .claiming }
     (s.tileAt 0).claim = some claimU ∧ (s.tileAt 0).run = .claiming ∧ claimU.done = false) ∧
    (let s := (tileS { EvArg.none with n := 7 } fun x => { x with claim := some claimU, run := .restoring }).setTask 7 (some (ent 1))
     (s.tileAt 0).claim = some claimU ∧ (s.tileAt 0).run = .restoring ∧ s.task 7 = some (ent 1) ∧ (ent 1).st = .running ∧ (ent 1).gcask = none ∧
       ({ ent 1 with st := .failed 6 } : TaskEnt).st ≠ .running) ∧
    (∀ d ∈ (tileS EvArg.none id).dups, d.id ≠ 9) ∧
    (let d : Dup := { id := 9, tile := 0, land := 0, src := 0, dst := 0, pdom := 0, size := 0 }
     ({ tileS EvArg.none id with dups := [d] } : State).dups.find? (fun d => d.id == 9) = some d) := by decide

/-! ### The machine -/

theorem witness_ResultsLand_one :
    (let l := { waits (.scalar 63 (scalarOf 7)) with waiting := false, due := 1 }
     let x := (tileS EvArg.none fun x => { x with inflight := [l] }).tileAt 0
     x.frozen = none ∧ x.mxNow = [] ∧ x.inflight = [l] ∧ l.waiting = false ∧ l.fault = none ∧ l.writes = [.scalar 63 (scalarOf 7)] ∧
       (63 : BitVec 6) ≠ 0 ∧ l.due ≤ x.rclk + 1) ∧
    (let l := { waits (.scalar 63 (scalarOf 7)) with waiting := false, due := 2 }
     ((tileS EvArg.none fun x => { x with inflight := [l] }).tileAt 0).inflight = [l] ∧ 0 + 1 < l.due) := by decide

theorem witness_ResultsLand_two :
    (let a := { waits (.scalar 63 (scalarOf 7)) with waiting := false, due := 1 }
     let b := { waits (.scalar 63 (scalarOf 8)) with waiting := false, due := 1, slot := 5 }
     let x := (tileS EvArg.none fun x => { x.setSt stWCT true with inflight := [b, a] }).tileAt 0
     x.inflight = [b, a] ∧ a.writes = [.scalar 63 (scalarOf 7)] ∧ b.writes = [.scalar 63 (scalarOf 8)] ∧ a.issue = b.issue ∧ a.slot < b.slot ∧
       x.st stWCT = true) := by decide

theorem witness_TrapEntryAndReturn :
    (imgS.tileAt 0).trp = true ∧ ((runS id).tileAt 0).trp = false ∧ clsA ≠ clsD ∧
    bit (((runS fun x => x).tileAt 0).sreg srDBGCTL).toNat 2 = false ∧
    (((runS fun x => x.setSreg srSLOTDONE 0xFF).tileAt 0).sreg srSLOTDONE).toNat % 256 = 255 ∧ (((runS id).tileAt 0).sreg srSLOTDONE).toNat % 256 = 0 := by
  decide

/-- The first bundle after reset with `halt` placed in it. -/
def haltB : Nat := bundleWith 7 0x14

theorem witness_StepRunsDecoded :
    Issues (State.reset.withFetchWord 32 0x14) 0 haltB ∧ headerErrs (bits haltB 0 16) = [] ∧ decodeSlot 7 (slotBits haltB 7) = .ok (.halt (yf 0)) ∧
    (∀ j < 8, j ≠ 7 → slotBits haltB j = 0) ∧ ({ State.reset.withFetchWord 32 0x14 with cur := tid 0 } : State).tile.results ≤ 96 := by decide

theorem witness_StepRunsDecoded_event :
    (let s := { State.reset with agenda := [⟨0, 0, .event .powerUp EvArg.none⟩] }
     s.turn = .reads ∧ dueEntry s.now readOrd s.agenda = some (.event .powerUp EvArg.none, [])) ∧
    (let s := { State.reset with turn := .writes, agenda := [⟨0, 5000, .event .powerUp EvArg.none⟩] }
     s.turn = .writes ∧ dueEntry s.now (fun o => !readOrd o) s.agenda = some (.event .powerUp EvArg.none, [])) ∧
    (let s := { (tileS EvArg.none fun x => { x with frozen := some (.cycles 0), run := .running }) with turn := .poll }
     s.turn = .poll ∧ s.noticed.isSome = true) := by decide

/-- Words that fit their slots: the last opcode bits and every operand field of a multiply. -/
theorem witness_DecodeEncode :
    (Instr.mul { sf 63 63 63 with pq := 31, neg := true }).wf = true ∧ (encode (.mul { sf 63 63 63 with pq := 31, neg := true })).isSome = true ∧
    0x30C403 < 2 ^ slotWidth 0 ∧ decodeSlot 0 0x30C403 = .ok (.mul (sf 4 3 3)) := by decide

theorem witness_EveryStepKeepsMemory : State.reset.MemOk ∧ (∃ t, step State.reset = .next t) :=
  ⟨⟨by decide, by decide, by intro e he; cases he⟩, _, rfl⟩

theorem witness_EveryInstructionAnswers :
    (evS { EvArg.none with n := 2 ^ 36 - 1, m := 1 } id).arg.n + 1 ≤ 2 ^ 36 ∧ (evS { EvArg.none with n := 2 ^ 36 } id).arg.n + 0 ≤ 2 ^ 36 := by decide


/-! ### Further clauses of links, windows and the basin -/

/-- Port 8 before and after a failure: its alignment, keys, table and operations, and the ports that an epoch may come in by. -/
theorem witness_LinkEvents_failures :
    ((portS EvArg.none fun p => { p with link := .align }).ports[8].link = .align ∧ (portS { EvArg.none with n := 240 } id).arg.n ≤ 240 ∧
      240 < (portS { EvArg.none with n := 241 } id).arg.n) ∧
    (let x := (portS { EvArg.none with flag := true, flag2 := true } fun p => { p with link := .active, flits := 2 ^ 47 }).ports[8]
     x.link = .active ∧ 2 ^ 47 ≤ x.flits % 2 ^ 48) ∧
    (let s := portS EvArg.none fun p => { p with link := .active, shadow := some ([0], 8, []) }
     s.ports[8].shadow = some ([0], 8, []) ∧ s.ftime < 8) ∧
    (tableErr [BitVec.ofNat 32 (2 ^ 31 + 2 ^ 30)] []).isSome = true ∧
    (let s := { portS { EvArg.none with n := 8, m := 10 } id with ops := [{ opR .get with links := [8], vis := false }] }
     s.ops.filter (s.cutOff 8 s.arg.m) = [{ opR .get with links := [8], vis := false }] ∧ (∀ c ∈ s.colls, c.opn < s.arg.m → s.collOver 8 c = false) ∧
       ∀ o ∈ s.ops, s.cutOff 8 9 o = false) ∧
    (portS EvArg.none id).portOfLink 0 = some 0 ∧ ({ bootS with boot := some { BootInput.none with basinId := 2 } } : State).portOfLink 0 = none := by decide

/-- Port 8 of a basin is ACTIVE and its one slot sends something, or nothing. -/
theorem witness_LinkEvents_slots :
    (let s := portS EvArg.none fun p => { p with link := .active, active := [BitVec.ofNat 32 (2 ^ 30)] }
     (s.countSlot 8).slotIndex 8 = some 0 ∧ dkind (s.ports[8].entryAt 0) ≠ 0 ∧ dkind ((0 : BitVec 32)) = 0) ∧
    (∀ p ∈ [LinkState.auth, .keyed], (portS EvArg.none fun q => { q with link := p }).ports[8].link = p) ∧
    flitBlanked { flitOf 1 0 0 0 with data := voidData } = true ∧ flitBlanked (flitOf 1 0 0 0) = false ∧ flitReserved (flitOf 1 0 0 0) = false ∧
    (portS { EvArg.none with flag := false, flit := flitOf 1 0 0 0 } id).arg.flag = false ∧
    (let k : Conn := { pkg := 0, nextSend := 2, nextRecv := 0, resend := false, owed := false, kept := [flitOf 1 63 0 0], again := [] }
     k.kept.length < ((flitOf 3 0 5 0).tag.truncate 6 - (flitOf 1 63 0 0).lseq : BitVec 6).toNat) ∧
    (let x := (portS EvArg.none fun p => { p with active := [BitVec.ofNat 32 (2 ^ 16 + 7 * 16)], streams := [(7, BitVec.ofNat 64 (2 ^ 61))] }).ports[8]
     akind (x.entryAt 0) = 1 ∧ astream (x.entryAt 0) = 7 ∧ streamKind (x.streams.get 0 7) = 1 ∧ streamKind (BitVec.ofNat 64 (2 * 2 ^ 61)) = 2) := by decide

theorem witness_WindowEvents_rejected :
    (winS reqF (winE 0 .closed)).portCheck { reqF with win := 255 } 115 4 = .error 1 ∧
    ((winS reqF (winE 0 .fenceOpen)).portCheck { reqF with win := 255 } 116 4).toOption = some (winE 0 .fenceOpen) ∧
    (∃ k ∈ ({ winS reqF (winE 0 .fenceOpen) with dedup := [(255, 0, 0, 0)] } : State).dedup, k.1 = 255 ∧ k.2.1 = 0 ∧ k.2.2.1 = 0) ∧
    (winS reqF (winE 0 .fenceOpen)).windows.get none 255 = some (winE 0 .fenceOpen) ∧
    (winS reqF (winE 1 .posted)).controlWindow { reqF with win := 255 } 0 = .error 1 ∧
    (winS reqF (winE 1 .fenceOpen)).controlWindow { reqF with win := 255 } 2 = .error 1 ∧
    ((winS reqF (winE 1 .fenceOpen)).controlWindow { reqF with win := 255 } 1).toOption = some (winE 1 .fenceOpen) ∧ (winE 1 .fenceOpen).st ≠ .posted ∧
    (let f := { reqF with tile := 1, win := 255 }
     ({ winS reqF (winE 2 .passive) with agenda := [⟨0, 0, .event .lockRequest { EvArg.none with flit := { reqF with win := 255 } }⟩] } : State).lowerRequest f = true) ∧
    (winS reqF (winE 2 .passive)).lowerRequest { reqF with win := 255 } = false := by decide

/-- The closing of an access record may go; a request of the one member of a group; grants to the next member and to the last. -/
theorem witness_WindowEvents_departures :
    (let r := { recA true with closing := true }
     let o := { opR .compl with held := true, sent := false }
     let s := { winS reqF (winE 1 .posted) with ops := [o], accRecs := [r], arg := { EvArg.none with n := 9 } }
     s.op? s.arg.n = some o ∧ s.mayDepart o = true ∧ s.accRecs.find? (fun r => r.rank == o.rank && r.win == o.win && r.closing) = some r) ∧
    (let o := { opR .unlock with held := false }
     ({ winS reqF (winE 2 .passive) with ops := [o] } : State).mayDepart o = false) ∧
    (let s := { evS EvArg.none id with arg := { EvArg.none with launch := ⟨⟨0, 1, 1, 0⟩, 0, 0⟩ } }
     (∀ l ∈ s.launches, l.id ≠ s.arg.launch.id) ∧ s.arg.launch.id.n = 1 ∧ crStrm s.arg.launch.record = false) ∧
    (collS collR).collFits collR = true ∧ (collS collR).arg.coll.n ≤ 1 + 1 ∧ (collS collR).arg.code = 0 ∧
    ({ collS collR with arg := { (collS collR).arg with code := 9 } } : State).arg.code ≠ 0 ∧
    Flit.void.part = none := by decide

/-- A tile that runs, with nothing due; a set in which every way is held by a dirty line. -/
theorem witness_BasinEvents_more_lines :
    (let x := (runS id).tileAt 0
     x.run = .running ∧ x.mDue = [] ∧ x.logTraps = [] ∧ x.dueF = [] ∧ x.trapDue = none ∧ x.syncRest = false) ∧
    (let s := tileS { EvArg.none with n := 7 } fun x =>
       { x with fills := [7], l1 := (List.range 8).map fun k => (8 + k, some { l1L with tag := 64 * k + 65, dirty := 1 }) }
     (s.tileAt 0).fills.contains 7 = true ∧ (let p := s.lineSlot 0 (7 / 4); ((p.2.tileAt 0).l1.get none p.1).isSome = true)) ∧
    (({ tileS EvArg.none id with owner := [(63, 1)] } : State).owner.get 0 63 = (0 : Tid).val + 1) := by decide

def rq1 : CopyRun := { runR with src := [31 * 8192 + 8191], dstLeft := [] }

/-- A queued row and a delayed read, of bank 63 of tile 31. -/
theorem witness_BasinEvents_rows :
    (let s := tileS EvArg.none fun x => { x.setEngine false { CopyEngine.init with wq := [(3, 31 * 8192 + 8191)] } with copies := [runR] }
     ((s.tileAt 0).engine false).wq = [(3, 31 * 8192 + 8191)] ∧ (31 * 8192 + 8191) / 8192 = (tid 31).val ∧
       s.padTaken (tid 31) (8191 / 128) = false ∧ (s.tileAt 0).run? 3 = some runR) ∧
    (let s := tileS EvArg.none fun x => { x.setEngine false { CopyEngine.init with rq := [(3, 0, 0)], rdAt := 1 } with copies := [rq1] }
     ((s.tileAt 0).engine false).rq = [(3, 0, 0)] ∧ (s.tileAt 0).run? 3 = some rq1 ∧ ((s.tileAt 0).engine false).rdAt ≠ s.now ∧
       (∀ q ∈ [8191], s.padReadTaken (tid 31) (q / 128) = false) ∧ (s.tileAt 31).isLate 8191 = false ∧ (s.tileAt 31).pend.get 0 8191 = 0 ∧
       ({ s with now := 9 } : State).now > 0 + 8) ∧
    (let s := (tileS EvArg.none id).modTile 31 fun x => { x with pend := [(8191, 1)] }
     rq1.erc = true ∧ (s.tileAt 31).pend.get 0 8191 ≠ 0) := by decide

/-- A task of reach job 15 that is late, a halted task with a due fault, in its handler, or with a claim; a retired task with one shadow. -/
theorem witness_BasinEvents_ends :
    (let m := { ent (BitVec.ofNat 1536 (1 + 15 * 2 ^ 216)) with st := .ready, startAt := some 32 }
     let s := (evS { EvArg.none with n := 15 } id).setTask 7 (some m)
     recRjob m.record = s.arg.n ∧ m.st.unstarted = true ∧ 32 ≤ s.ftime.toNat + 32 ∧ (7, m) ∈ s.taskList) ∧
    (let s := haltS.modTile 0 fun x => { x with dueF := [(7, State.reset.tile.fieldTrap 0xC hfState)] }
     s.mayRetire 0 = true ∧ (firstDue (s.tileAt 0).dueF).isSome = true) ∧
    (let s := haltS.modTile 0 fun x => x.setSt stTRP true
     s.mayRetire 0 = true ∧ (s.tileAt 0).trp = true) ∧
    (let s := haltS.modTile 0 fun x => { x with claim := some claimU }
     s.mayRetire 0 = true ∧ (s.tileAt 0).claim = some claimU) ∧
    (let h : Shadow := { id := 1, coord := [0], size := 0, bytes := [], store := State.reset.mem }
     let e := { ent 1 with st := .retired, shadows := [h] }
     e.shadows = [h] ∧ ((evS EvArg.none id).setTask 7 (some e)).maySwitch e h = true) := by decide

/-- A message that reaches an anchored cask's handle, a claim of a good header and one of an anchored cask, a gang's cask. -/
theorem witness_BasinEvents_more_casks :
    (let a : Anchor := { id := 4, va := 0x100, sec5 := 0, pages := [], gang := none }
     let o := { opR .get with cask := some 4 }
     let s := { tileS { EvArg.none with n := 9, m := 1 } id with ops := [o], anchors := [a] }
     s.op? 9 = some o ∧ o.failed = false ∧ o.has 1 = false ∧ s.anchors.find? (fun a => some a.id == o.cask) = some a) ∧
    (({ opR .get with acc := true } : OpRec).has 1 = true) ∧ ({ opR .get with failed := true } : OpRec).failed = true ∧
    (∀ st ∈ [csSealed, csAnchored], let s := headS st 0 15
      let c := { claimU with pa := 0x200100 }
      s.claimFault (s.tileAt 0) c (s.memReg none (c.pa / 8) 32) = none ∧ hget (s.memReg none (c.pa / 8) 32).d.toNat hfState = st) ∧
    (let s := State.reset
     (s.claimFault (s.tileAt 0) claimU (s.memReg none (claimU.pa / 8) 32)).isSome = true) ∧
    ({ ent 1 with gcask := some 0x100 } : TaskEnt).gcask = some 0x100 := by decide

/-! ### Landings, links, windows and lines once more -/

/-- The landing of a vector, a predicate, an accumulator row and a special register, one at a time. -/
theorem witness_ResultsLand_registers :
    ∀ w ∈ [(.vec 319 (.zero 32) 5 (some 3) : RWrite), .vec 0 (.zero 32) 0 none, .pred 31 (.zero 4) 1, .acc 1023 (.zero 64) (BitVec.allOnes 128),
        .sreg srSTATUS 0xFF, .sreg srFPCTL 1, .sreg srLLVL 7, .sreg srHBASE 4096],
      let l := { waits w with waiting := false, due := 1 }
      let x := (tileS EvArg.none fun x => { x with inflight := [l] }).tileAt 0
      x.frozen = none ∧ x.mxNow = [] ∧ x.inflight = [l] ∧ l.waiting = false ∧ l.fault = none ∧ l.writes = [w] ∧ l.due ≤ x.rclk + 1 ∧ x.stDue = 0 ∧
        l.fp = 0 ∧ l.st = 0 := by decide

/-- Port 8 proved and not, with one flit to send and with two. -/
theorem witness_LinkEvents_exchange :
    (∀ b, let s := portS { EvArg.none with flag := true, flag2 := true } fun p => { p with link := .auth, proved := b }
      s.ports[8].link = .auth ∧ s.arg.flag = true ∧ s.arg.flag2 = true ∧ s.ports[8].proved = b ∧ s.ports[8].mgmt.length ≤ 1) ∧
    (let x := (portS EvArg.none fun p => { p with link := .auth, mgmt := [Flit.void, Flit.void] }).ports[8]
     x.link = .auth ∧ x.proved = false ∧ 2 ≤ x.mgmt.length) ∧
    (let s := portS EvArg.none fun p => { p with link := .auth }
     s.ports[8].link = .auth ∧ ¬ (s.arg.flag = true ∧ s.arg.flag2 = true)) ∧
    (portS { EvArg.none with flag := true, flit := flitOf 3 0 0 0 } id).arg.flag = true := by decide

/-- The kinds that a scheduled slot of each stream kind takes and does not take. -/
theorem witness_LinkEvents_scheduled :
    ∀ k ∈ [(1, 5), (1, 6), (2, 0), (2, 1), (2, 3), (3, 4), (1, 0), (2, 4), (3, 5)],
      let s := portS { EvArg.none with flag := true, flit := flitOf (BitVec.ofNat 3 k.2) 0 7 0 }
        fun p => { p with active := [BitVec.ofNat 32 (2 ^ 16 + 7 * 16)], streams := [(7, BitVec.ofNat 64 (k.1 * 2 ^ 61))] }
      s.slotIndex 8 = some 0 ∧ akind (s.ports[8].entryAt 0) = 1 ∧ streamKind (s.ports[8].streams.get 0 7) = k.1 ∧ flitReserved s.arg.flit = false ∧
        bits s.arg.flit.tag.toNat 0 12 = 7 := by decide

/-- A tile that arrived before the slot of a result, which has come within the offset of its stream. -/
theorem witness_LinkEvents_result :
    (let s := { portS { EvArg.none with n := 7, flit := flitOf 4 0 7 1 } (fun p => { p with streams := [(7, BitVec.ofNat 64 (3 * 2 ^ 61 + 2 ^ 61 - 1))] }) with now := 9 }
     let t := s.modTile 0 fun x => { x with run := .sync 3 true 7 (some 0) }
     t.ftime.toNat < t.arg.w.toNat + streamRoff (t.ports[8].streams.get 0 7) ∧ 0 + 2 + (t.ftime.toNat - t.arg.w.toNat) ≤ t.now ∧
       t.restartPlanned 0 = false) := by decide

/-- An operation of which a flit was rejected; a member with a source, and a next chunk that is due. -/
theorem witness_WindowEvents_failed :
    ({ winS reqF (winE 0 .fenceOpen) with rejected := [(0, 0)] } : State).failedHere reqF = true ∧ (winS reqF (winE 0 .fenceOpen)).failedHere reqF = false ∧
    (collS collR).collAt 0 = some collR ∧ (collR.gone && !crStrm collR.record && crHasSrc collR.record collR.member &&
      decide (collR.chunks.length < crChunks collR.record) && (collS collR).chunkReady collR collR.chunks.length) = true := by decide

/-- The line of the filled sector is in L1. -/
theorem witness_BasinEvents_present :
    (let s := tileS { EvArg.none with n := 3 } fun x => { x with fills := [3], l1 := [(0, some { l1L with dirty := 1 })] }
     (s.tileAt 0).fills.contains 3 = true ∧ (s.tileAt 0).l1Find (3 / 4) = some (0, { l1L with dirty := 1 }) ∧
       ((s.lineSlot 0 (3 / 4)).2.tileAt 0).l1.get none (s.lineSlot 0 (3 / 4)).1 = some { l1L with dirty := 1 }) := by decide

/-! ## Values and single steps that the spec works out -/

/-- Table 3-3. -/
theorem test_crc7_reference :
    crc7 0 = 0x5D ∧ crc7 0x0100000000000000 = 0x38 ∧ crc7 0x8000000000000000 = 0x5E ∧ crc7 0x8100000000000000 = 0x3B := by decide

/-- Chapter 7: address 0x0A_3640 is bank 20, row 54 of the bank, byte 0x40. -/
theorem test_bank_of_address : bankOf 0x0A3640 = 20 ∧ rowOf 0x0A3640 % 128 = 54 ∧ 0x0A3640 % 256 = 0x40 := by decide

/-- Chapter 5: `VEXP` in V0 is cause 6 with TRAPINFO 0x0B21_4040. -/
theorem test_v1_only_report :
    (match decodeSlot 1 0x086 with
     | .error es => (EncErr.first es).map fun e => (e.cause.low, e.info)
     | .ok _ => none) = some (6, 0x0B214040) := by decide

/-- Chapter 4: the largest finite FP32 number, and a sum below 2^128 - 2^103 that rounds to it: inexact, no overflow; the tie overflows. -/
theorem test_add_rounds_at_the_top :
    (fAdd 0 10 0 0x7F7FFFFF 0x72800000).1 = 0x7F7FFFFF ∧ (fAdd 0 10 0 0x7F7FFFFF 0x73000000).1 = 0x7F800000 := by decide

/-- Chapter 8's example: `vqnt.n8.f32.out v50, v40, v41, s20, 32, 0`; chapter 9's: `mzpc.sb.sat z0, w0, (s6), 128, 16, 0, 61`. -/
theorem test_decode_examples :
    decodeSlot 1 0x010A08082B829140C845 = .ok (.vqnt { vf 1 50 40 41 348 with sub := 1, imm16 := 0x010A }) ∧
    decodeSlot 3 0x0003DC0200203008 = .ok (.mzpc { mf 16 6 with pitch := 128, sgnB := true, sat := true, start := 61 }) := by decide

/-- R151's example: a product and a sum fall due on s5 in one cycle; the sum, issued later, stands, and STATUS.WCOL is set. -/
theorem test_collision_later_bundle_stands :
    (let old := { waits (.scalar 5 (scalarOf 6)) with waiting := false, due := 13, issue := 10, slot := 0 }
     let new := { waits (.scalar 5 (scalarOf 9)) with waiting := false, due := 13, issue := 12, slot := 0 }
     let x := ((on fun x => { x with rclk := 12, inflight := [old, new] }).tileLand 0).tileAt 0
     x.sv 5 = 9 ∧ x.st stWCOL = true ∧ x.inflight = []) := by decide

/-- R407: `halt` in the first bundle after reset stops the sequencer, and its task waits to retire. -/
theorem test_step_halt :
    (match step (State.reset.withFetchWord 32 0x14) with
     | .next t => (t.tileAt 0).run
     | _ => .idle) = .halted := by decide

/-- R419, R424: a `trap 5, s7` bundle leaves class X (8), low bits 5, due after it; a trap in a handler fails the task. -/
theorem test_step_trap :
    (match step (State.reset.withFetchWord 32 0x05007012) with
     | .next t => (t.tileAt 0).trapDue.map fun q => (q.cls, q.low)
     | _ => none) = some (8, 5) := by decide

/-- R165: `br` by four bundles is taken after its two delay bundles: it is the third of the queue next. -/
theorem test_step_branch :
    (match step (State.reset.withFetchWord 32 0x4001) with
     | .next t => (t.tileAt 0).fq
     | _ => []) = ((State.reset.withFetchWord 32 0x4001).tileAt 0).fq.tail ++ [((State.reset.withFetchWord 32 0x4001).tileAt 0).pc + 256] := by decide

/-- R157: the quotient of the most negative number by -1 is that number again; by zero it is all ones. -/
theorem test_division_corners : quotS (BitVec.intMin 64) (-1) = BitVec.intMin 64 ∧ quotS 7 0 = BitVec.allOnes 64 ∧ remS (-7) 2 = -1 := by decide

end Sys2Proof.Tests
end

section
/-! SUPPORT. The byte stores, byte by byte: what one granule write, a list of them, and a run of bytes leave at every address. -/

namespace Sys2Proof.Machine

/-! ## Bits of packed and cut numbers -/

theorem testBit_bits (x lo w j : Nat) : (bits x lo w).testBit j = (decide (j < w) && x.testBit (lo + j)) := by
  rw [bits, Nat.testBit_mod_two_pow, Nat.testBit_shiftRight]

/-- The number at place `k` of a packed list. -/
theorem bits_packNat (w : Nat) (l : List Nat) (k : Nat) : bits (packNat w l) (w * k) w = l.getD k 0 % 2 ^ w := by
  induction l generalizing k with
  | nil => simp [packNat, bits]
  | cons x l ih =>
    have hc : packNat w (x :: l) = x % 2 ^ w + 2 ^ w * packNat w l := by
      simp [packNat, Nat.shiftLeft_eq, Nat.mul_comm]
    have hx : x % 2 ^ w < 2 ^ w := Nat.mod_lt _ (Nat.two_pow_pos w)
    cases k with
    | zero => simp [bits, hc]
    | succ k =>
      have hd : packNat w (x :: l) / 2 ^ w = packNat w l := by
        rw [hc, Nat.add_mul_div_left _ _ (Nat.two_pow_pos w), Nat.div_eq_of_lt hx, Nat.zero_add]
      rw [bits, Nat.mul_succ, Nat.add_comm (w * k), Nat.shiftRight_add, Nat.shiftRight_eq_div_pow _ w, hd, ← bits, ih, List.getD_cons_succ]

/-! ## A byte of a granule -/

/-- A number read from memory has a bit where a cell in reach has it. -/
theorem testBit_readCells (m : List Host.Cell) (a n j k : Nat) (hj : j < n) (hk : k < 8) :
    (readCells m a n).testBit (8 * j + k) = m.any fun c => c.1 == a + j && c.2.getLsbD k := by
  have key : ∀ x, (m.foldl (fun x c => if a ≤ c.1 ∧ c.1 < a + n then x ||| (c.2.toNat <<< (8 * (c.1 - a))) else x) x).testBit (8 * j + k) =
      (x.testBit (8 * j + k) || m.any fun c => c.1 == a + j && c.2.getLsbD k) := by
    induction m with
    | nil => simp
    | cons c m ih =>
      have hcell : (a ≤ c.1 ∧ c.1 < a + n) → (c.2.toNat <<< (8 * (c.1 - a))).testBit (8 * j + k) = (c.1 == a + j && c.2.getLsbD k) := by
        intro hc
        rw [Nat.testBit_shiftLeft, BitVec.testBit_toNat]
        by_cases he : c.1 = a + j
        · simp [he]
        · by_cases h2 : 8 * (c.1 - a) ≤ 8 * j + k
          · rw [BitVec.getLsbD_of_ge _ _ (by omega)]
            simp [he]
          · simp [h2, he]
      intro x
      rw [List.foldl_cons, ih, List.any_cons]
      split
      · rename_i hc
        rw [Nat.testBit_or, hcell hc, Bool.or_assoc]
      · have he : (c.1 == a + j) = false := by
          rw [beq_eq_false_iff_ne]
          omega
        rw [he, Bool.false_and, Bool.false_or]
  simpa [readCells] using key 0

/-- A byte is its part of its granule. -/
theorem byte_eq_gran (m : Store) (a : Nat) : m.byte a = (m.gran (a / 8)).d.extractLsb' (8 * (a % 8)) 8 := by
  ext k hk
  have h1 := testBit_readCells m.bytes a 1 0 k (by omega) hk
  have h2 := testBit_readCells m.bytes (8 * (a / 8)) 8 (a % 8) k (by omega) hk
  have h3 : 8 * (a / 8) + a % 8 = a := by omega
  have h4 : 8 * (a % 8) + k < 64 := by omega
  rw [h3] at h2
  rw [Nat.mul_zero, Nat.zero_add, Nat.add_zero] at h1
  simp only [← BitVec.getLsbD_eq_getElem, BitVec.getLsbD_extractLsb', Store.byte, Store.gran, BitVec.getLsbD_ofNat, h1, h2, h4, hk, decide_true,
    Bool.true_and]

/-! ## Writes -/

/-- A byte mask as a mask of data bits, bit by bit. -/
theorem testBit_maskBits (m : BitVec 8) (i : Nat) : (maskBits m).testBit i = m.getLsbD (i / 8) := by
  have key : ∀ n, ((List.range n).foldl (fun x i => if m.getLsbD i then x ||| (0xFF <<< (8 * i)) else x) 0).testBit i =
      (decide (i / 8 < n) && m.getLsbD (i / 8)) := by
    intro n
    induction n with
    | zero => simp
    | succ n ih =>
      have hb : ((0xFF : Nat) <<< (8 * n)).testBit i = decide (i / 8 = n) := by
        rw [show (0xFF : Nat) = 2 ^ 8 - 1 from rfl, Nat.testBit_shiftLeft, Nat.testBit_two_pow_sub_one, ← Bool.decide_and]
        exact decide_eq_decide.mpr (by omega)
      rw [List.range_succ, List.foldl_append, List.foldl_cons, List.foldl_nil]
      by_cases he : i / 8 = n
      · subst he
        split <;> rename_i hm <;> simp [ih, hb, hm]
      · have hlt : (i / 8 < n + 1) = (i / 8 < n) := by
          apply propext
          omega
        split
        · simp [ih, hb, he, hlt]
        · simp [ih, hlt]
  rw [maskBits, key 8]
  by_cases h : i / 8 < 8
  · simp [h]
  · simp [h, BitVec.getLsbD_of_ge m (i / 8) (by omega)]

/-- The merging lane takes each byte from the write where its mask is set, else from the old granule (R68). -/
theorem byte_mergeGran (old : Gran) (w : GWrite) (j : Nat) (hj : j < 8) :
    (mergeGran old w).d.extractLsb' (8 * j) 8 = if w.mask.getLsbD j then w.d.extractLsb' (8 * j) 8 else old.d.extractLsb' (8 * j) 8 := by
  unfold mergeGran
  split
  · rename_i h
    have : w.mask.getLsbD j = true := by
      rw [h]
      interval_cases j <;> rfl
    rw [this, if_pos rfl]
  · ext k hk
    have hd : (8 * j + k) / 8 = j := by omega
    have h64 : 8 * j + k < 64 := by omega
    have hx : (maskBits w.mask ^^^ (2 ^ 64 - 1)).testBit (8 * j + k) = !w.mask.getLsbD j := by
      rw [Nat.testBit_xor, testBit_maskBits, hd, Nat.testBit_two_pow_sub_one, decide_eq_true h64, Bool.xor_true]
    simp only [← BitVec.getLsbD_eq_getElem, apply_ite (fun v : BitVec 8 => v.getLsbD k), BitVec.getLsbD_extractLsb', BitVec.getLsbD_ofNat,
      Nat.testBit_or, Nat.testBit_and, testBit_maskBits, hx, hd, h64, hk, BitVec.testBit_toNat]
    cases w.mask.getLsbD j <;> simp

/-- What a granule write leaves at every address. -/
theorem byte_write (m : Store) (w : GWrite) (a : Nat) :
    (m.write w).byte a = if w.g = a / 8 ∧ w.mask.getLsbD (a % 8) = true then w.d.extractLsb' (8 * (a % 8)) 8 else m.byte a := by
  rw [byte_eq_gran, byte_eq_gran m, gran_write]
  by_cases hg : w.g = a / 8
  · by_cases hm : w.mask = 0
    · simp [hm]
    · rw [if_pos ⟨hg.symm, hm⟩, byte_mergeGran _ _ _ (Nat.mod_lt _ (by decide)), hg]
      simp
  · rw [if_neg (fun h => hg h.1.symm), if_neg (fun h => hg h.1)]

/-- What a list of granule writes leaves at an address for which its writes agree on the byte. -/
theorem byte_writes (ws : List GWrite) (m : Store) (a : Nat) (v : Byte)
    (h : ∀ w ∈ ws, w.g = a / 8 → w.mask.getLsbD (a % 8) = true → w.d.extractLsb' (8 * (a % 8)) 8 = v) :
    (m.writes ws).byte a = if gwCovers ws a then v else m.byte a := by
  induction ws generalizing m with
  | nil => rfl
  | cons w ws ih =>
    have hw := h w List.mem_cons_self
    have hc : gwCovers (w :: ws) a = (w.g == a / 8 && w.mask.getLsbD (a % 8) || gwCovers ws a) := rfl
    have hs : (m.writes (w :: ws)) = (m.write w).writes ws := rfl
    rw [hs, ih (m.write w) (fun x hx => h x (List.mem_cons_of_mem _ hx)), byte_write, hc]
    by_cases hg : w.g = a / 8 ∧ w.mask.getLsbD (a % 8) = true
    · rw [if_pos hg, hw hg.1 hg.2]
      simp [hg.1, hg.2]
    · have hb : (w.g == a / 8 && w.mask.getLsbD (a % 8)) = false := by simpa using hg
      rw [if_neg hg, hb, Bool.false_or]

/-! ## A run of bytes -/

/-- One granule write of a run of bytes: its mask holds the bytes of the run, and its data their values. -/
theorem gwBytes_entry {a n v : Nat} {bad : Bool} {w : GWrite} (h : w ∈ gwBytes a n v bad) (j : Nat) (hj : j < 8) :
    w.mask.getLsbD j = decide (a ≤ 8 * w.g + j ∧ 8 * w.g + j < a + n) ∧
    (a ≤ 8 * w.g + j ∧ 8 * w.g + j < a + n → w.d.extractLsb' (8 * j) 8 = BitVec.ofNat 8 (bits v (8 * (8 * w.g + j - a)) 8)) := by
  unfold gwBytes at h
  split at h
  · simp at h
  · obtain ⟨i, hi, rfl⟩ := List.mem_map.mp h
    rw [List.mem_range] at hi
    generalize a / 8 + i = g
    constructor
    · simp only [BitVec.getLsbD_ofNat, Nat.testBit_shiftLeft, Nat.testBit_two_pow_sub_one, ← Bool.decide_and]
      exact decide_eq_decide.mpr (by omega)
    · intro hr
      dsimp only at hr ⊢
      ext k hk
      have h1 : 8 * (max a (8 * g) - 8 * g) ≤ 8 * j + k := by omega
      have h2 : 8 * j + k - 8 * (max a (8 * g) - 8 * g) < 8 * (min (a + n) (8 * g + 8) - max a (8 * g)) := by omega
      have h3 : 8 * (max a (8 * g) - a) + (8 * j + k - 8 * (max a (8 * g) - 8 * g)) = 8 * (8 * g + j - a) + k := by omega
      have h4 : 8 * j + k < 64 := by omega
      simp only [← BitVec.getLsbD_eq_getElem, BitVec.getLsbD_extractLsb', BitVec.getLsbD_ofNat, Nat.testBit_shiftLeft, testBit_bits, h1, h2, h3,
        h4, hk]
      simp

/-- The writes of a run of bytes cover that run. -/
theorem gwCovers_gwBytes (a n v : Nat) (bad : Bool) (b : Nat) : gwCovers (gwBytes a n v bad) b = decide (a ≤ b ∧ b < a + n) := by
  have hb : 8 * (b / 8) + b % 8 = b := by omega
  rw [Bool.eq_iff_iff, gwCovers, List.any_eq_true, decide_eq_true_iff]
  constructor
  · rintro ⟨w, hw, h⟩
    rw [Bool.and_eq_true, beq_iff_eq] at h
    obtain ⟨hg, hm⟩ := h
    rw [(gwBytes_entry hw (b % 8) (Nat.mod_lt _ (by decide))).1, decide_eq_true_iff, hg, hb] at hm
    exact hm
  · intro h
    have hw : ∃ w ∈ gwBytes a n v bad, w.g = b / 8 := by
      unfold gwBytes
      rw [if_neg (by omega)]
      refine ⟨_, List.mem_map.mpr ⟨b / 8 - a / 8, List.mem_range.mpr (by omega), rfl⟩, ?_⟩
      show a / 8 + (b / 8 - a / 8) = b / 8
      omega
    obtain ⟨w, hw, hg⟩ := hw
    refine ⟨w, hw, ?_⟩
    rw [(gwBytes_entry hw (b % 8) (Nat.mod_lt _ (by decide))).1, hg, hb]
    simp [h]

/-- What a run of bytes leaves at every address: its bytes, and every other byte as it was. -/
theorem byte_writes_gwBytes (m : Store) (a n v : Nat) (bad : Bool) (b : Nat) :
    (m.writes (gwBytes a n v bad)).byte b =
      if a ≤ b ∧ b < a + n then BitVec.ofNat 8 (bits v (8 * (b - a)) 8) else m.byte b := by
  have hb : 8 * (b / 8) + b % 8 = b := by omega
  rw [byte_writes _ m b (BitVec.ofNat 8 (bits v (8 * (b - a)) 8)), gwCovers_gwBytes]
  · simp
  · intro w hw hg hm
    obtain ⟨hmask, hdata⟩ := gwBytes_entry hw (b % 8) (Nat.mod_lt _ (by decide))
    rw [hg, hb] at hmask hdata
    exact hdata (by simpa [hmask] using hm)

/-- The byte at a place of a list that goes out as one number. -/
theorem bits_bytesNat (l : List Byte) (k : Nat) : BitVec.ofNat 8 (bits (bytesNat l) (8 * k) 8) = l.getD k 0 := by
  rw [bytesNat, bits_packNat]
  apply BitVec.eq_of_toNat_eq
  by_cases hk : k < l.length
  · simpa [hk] using l[k].isLt
  · simp [hk]

end Sys2Proof.Machine
end

section
/-! SUPPORT. What the operations that host events share leave unchanged: reports, folds over the state, writes of an agent that is no
tile, the failure of tasks. -/

namespace Sys2Proof.Machine

/-! ## Folds over the state -/

/-- A part of the state that each step of a fold leaves is left by the fold. -/
theorem foldl_keeps {α β : Type} (p : State → β) (f : State → α → State) (hf : ∀ s a, p (f s a) = p s) (l : List α) (s : State) :
    p (l.foldl f s) = p s :=
  List.foldlRecOn l f (motive := fun t => p t = p s) rfl fun t ht a _ => (hf t a).trans ht

/-- What the step of one element establishes, and every step keeps, holds after a fold over that element. -/
theorem foldl_establishes {α : Type} {f : State → α → State} {Q P : State → Prop} {a : α} (hQ : ∀ s b, Q s → Q (f s b))
    (ha : ∀ s, Q s → P (f s a)) (hP : ∀ s b, Q s → P s → P (f s b)) {l : List α} (hl : a ∈ l) {s : State} (hs : Q s) : P (l.foldl f s) := by
  obtain ⟨before, after, rfl⟩ := List.append_of_mem hl
  rw [List.foldl_append, List.foldl_cons]
  have hq : Q (before.foldl f s) := List.foldlRecOn before f hs fun t ht b _ => hQ t b ht
  exact (List.foldlRecOn after f (motive := fun t => Q t ∧ P t) ⟨hQ _ a hq, ha _ hq⟩ fun t ht b _ => ⟨hQ t b ht.1, hP t b ht.1 ht.2⟩).2

/-! ## Reports -/

@[simp] theorem mem_event (s : State) (c i k d : Nat) : (s.event c i k d).mem = s.mem := rfl
@[simp] theorem tiles_event (s : State) (c i k d : Nat) : (s.event c i k d).tiles = s.tiles := rfl

/-- A report changes the event queue and the source's number, and no other register of the host port. -/
theorem host_event (s : State) (c i k d : Nat) :
    ∃ q t l, (s.event c i k d).host = { s.host with seqs := q, eqTail := t, log := l } := by
  unfold State.event
  dsimp only
  split
  · exact ⟨_, _, _, rfl⟩
  · exact ⟨_, _, _, rfl⟩

@[simp] theorem host_rootSt_event (s : State) (c i k d : Nat) : (s.event c i k d).host.rootSt = s.host.rootSt := by
  obtain ⟨_, _, _, h⟩ := host_event s c i k d
  rw [h]

@[simp] theorem host_rjArm_event (s : State) (c i k d : Nat) : (s.event c i k d).host.rjArm = s.host.rjArm := by
  obtain ⟨_, _, _, h⟩ := host_event s c i k d
  rw [h]

@[simp] theorem host_reads_event (s : State) (c i k d : Nat) : (s.event c i k d).host.reads = s.host.reads := by
  obtain ⟨_, _, _, h⟩ := host_event s c i k d
  rw [h]

@[simp] theorem host_acks_event (s : State) (c i k d : Nat) : (s.event c i k d).host.acks = s.host.acks := by
  obtain ⟨_, _, _, h⟩ := host_event s c i k d
  rw [h]

@[simp] theorem mem_modHost (s : State) (f : HostPort → HostPort) : (s.modHost f).mem = s.mem := rfl
@[simp] theorem tiles_modHost (s : State) (f : HostPort → HostPort) : (s.modHost f).tiles = s.tiles := rfl
@[simp] theorem host_modHost (s : State) (f : HostPort → HostPort) : (s.modHost f).host = f s.host := rfl

/-! ## Writes of an agent that is no tile (R68, R389) -/

theorem keepOld_eq (s : State) (w : GWrite) : ∃ u, s.keepOld w = { s with undo := u } := by
  unfold State.keepOld
  refine List.foldlRecOn _ _ (motive := fun r : State => ∃ u, r = { s with undo := u }) ⟨s.undo, rfl⟩ ?_
  rintro _ ⟨u, rfl⟩ b _
  dsimp only
  split
  · exact ⟨_, rfl⟩
  · split
    · exact ⟨_, rfl⟩
    · exact ⟨_, rfl⟩

theorem keepWas_eq (s : State) (g : Nat) : ∃ l, s.keepWas g = { s with memWas := l } := by
  unfold State.keepWas
  split
  · exact ⟨s.memWas, rfl⟩
  · exact ⟨_, rfl⟩

theorem openWrite_frame (s : State) (w : GWrite) :
    (s.openWrite w).mem = s.mem.write w ∧ (s.openWrite w).tiles = s.tiles ∧ (s.openWrite w).host.acks = s.host.acks := by
  obtain ⟨u, hu⟩ := keepOld_eq s w
  obtain ⟨l, hl⟩ := keepWas_eq { s with undo := u } w.g
  unfold State.openWrite
  rw [hu, hl]
  dsimp only
  split
  · exact ⟨rfl, rfl, host_acks_event _ _ _ _ _⟩
  · exact ⟨rfl, rfl, rfl⟩

/-- No shadow tile covers what another agent writes. -/
theorem shadowMask_none (s : State) (w : GWrite) : s.shadowMask none w = 0 := by simp [State.shadowMask, State.shadowAt]

theorem memWrite_none_frame (s : State) (w : GWrite) :
    (s.memWrite none w).mem = s.mem.write w ∧ (s.memWrite none w).tiles = s.tiles ∧ (s.memWrite none w).host.acks = s.host.acks := by
  unfold State.memWrite
  have hx : w.mask ^^^ (0 : BitVec 8) = w.mask := BitVec.xor_zero
  simp only [shadowMask_none, if_true, hx]
  split
  · rename_i h
    rw [Store.write, if_pos h]
    exact ⟨rfl, rfl, rfl⟩
  · exact openWrite_frame s w

theorem memWrites_none_frame (ws : List GWrite) (s : State) :
    (s.memWrites none ws).mem = s.mem.writes ws ∧ (s.memWrites none ws).tiles = s.tiles ∧ (s.memWrites none ws).host.acks = s.host.acks := by
  induction ws generalizing s with
  | nil => exact ⟨rfl, rfl, rfl⟩
  | cons w ws ih =>
    obtain ⟨hm, ht, ha⟩ := memWrite_none_frame s w
    obtain ⟨im, it, ia⟩ := ih (s.memWrite none w)
    exact ⟨im.trans (by rw [hm]; rfl), it.trans ht, ia.trans ha⟩

/-! ## The failure of tasks writes no memory (R403) -/

theorem mem_setTask (s : State) (i : Nat) (e : Option TaskEnt) : (s.setTask i e).mem = s.mem := rfl

theorem mem_dropShadowed (s : State) (t : Tid) : (s.dropShadowed t).mem = s.mem := by
  rw [State.dropShadowed, mem_modTile]

theorem mem_leaveTile (s : State) (t : Tid) (run : Run) : (s.leaveTile t run).mem = s.mem := by
  rw [State.leaveTile, mem_modTile]

theorem mem_freeTile (s : State) (t : Tid) : (s.freeTile t).mem = s.mem := by
  rw [State.freeTile, mem_leaveTile, mem_schedule, mem_dropShadowed]

theorem mem_rootEnds (s : State) (e : TaskEnt) : (s.rootEnds e).mem = s.mem := by
  unfold State.rootEnds
  split <;> rfl

theorem mem_failMember (s : State) (i reason : Nat) (replay : Bool) (cause : Nat) (info : Word) :
    (s.failMember i reason replay cause info).mem = s.mem := by
  unfold State.failMember
  split
  · rfl
  · rename_i e _
    dsimp only
    cases e.tile with
    | none => split <;> simp only [mem_event, mem_rootEnds, mem_setTask]
    | some t => split <;> simp only [mem_event, mem_rootEnds, mem_setTask, mem_modTile, mem_freeTile]

theorem mem_failTask (s : State) (i reason cause : Nat) (info : Word) : (s.failTask i reason cause info).mem = s.mem := by
  unfold State.failTask
  split
  · rfl
  · exact foldl_keeps (·.mem) _ (fun s (m : Nat × TaskEnt) => mem_failMember s m.1 reason _ cause info) _ s

theorem mem_failGangs (s : State) (es : List (Nat × TaskEnt)) (reason : Nat) : (s.failGangs es reason).mem = s.mem := by
  refine foldl_keeps (·.mem) _ (fun s o => ?_) _ s
  split
  · exact mem_failTask s _ reason 0 0
  · rfl

end Sys2Proof.Machine
end

section
/-! O47: power-up and attestation, the host-port registers, the root slot, the basin aperture, power (chapters 1 and 17). -/

namespace Sys2Proof.Machine

/-! ## Power-up and attestation (R468, R471) -/

/-- A power-up starts the die anew at the boot step that its inputs reach. -/
theorem powerUp_starts_anew (s : State) : ∃ t, exec .powerUp s = .next t ∧ t.bootStep = bootReached s.arg.boot ∧ t.mem = State.reset.mem ∧
    t.tiles = State.reset.tiles ∧ t.tasks = State.reset.tasks ∧ t.ports = State.reset.ports ∧ t.now = s.now ∧
    t.host.digests = (s.arg.boot.hostFw, s.arg.boot.blob, s.arg.boot.dieFw) :=
  ⟨_, rfl, rfl, rfl, rfl, rfl, rfl, rfl, rfl⟩

/-- An attestation answers at whatever boot step was reached. -/
theorem attestation_reports (s : State) : ∃ t r, exec .attestation s = .next t ∧ t.host.reports = s.host.reports ++ [r] ∧
    r.nonce = s.arg.nonce ∧ r.digests = s.host.digests ∧ r.step = s.bootStep ∧ t.mem = s.mem ∧ t.tiles = s.tiles :=
  ⟨_, _, rfl, rfl, rfl, rfl, rfl, rfl, rfl⟩

/-! ## A die in reset and a die that is up (R468) -/

theorem hosted_in_reset {s : State} (h : s.bootStep < 4) (act : State) : s.hosted act = .next s := by
  simp [State.hosted, State.up, h]

theorem hosted_up {s : State} (h : 4 ≤ s.bootStep) (act : State) : s.hosted act = .next act := by
  simp [State.hosted, State.up, h]

theorem up_of_booted {s : State} (h : 4 ≤ s.bootStep) : s.up = true := decide_eq_true h

/-- What the host does to a die in reset has no effect. -/
theorem exec_in_reset {s : State} (h : s.bootStep < 4) : ∀ i ∈ [Instr.rootrec, .rootarm, .rpool, .eqbase, .eqsize, .rjstart, .rjctlArm, .rjctlDisarm,
    .hostRegisterWrite, .apertureRead, .apertureWrite, .powerMeasurement], exec i s = .next s := by
  have hup : s.up = false := decide_eq_false (by omega)
  have hr : execApertureRead s = .next s := by simp [execApertureRead, hup]
  have hw : execApertureWrite s = .next s := by simp [execApertureWrite, hup]
  have hp : execPowerMeasurement s = .next s := by simp [execPowerMeasurement, hup]
  simp only [List.forall_mem_cons]
  exact ⟨hosted_in_reset h _, hosted_in_reset h _, hosted_in_reset h _, hosted_in_reset h _, hosted_in_reset h _, hosted_in_reset h _,
    hosted_in_reset h _, hosted_in_reset h _, hosted_in_reset h _, hr, hw, hp, List.forall_mem_nil _⟩

/-! ## The root slot (R18) -/

theorem mem_agendaIns (e : Entry) (l : List Entry) : e ∈ agendaIns e l := by
  induction l with
  | nil => exact List.mem_singleton_self e
  | cons f l ih =>
    rw [agendaIns]
    split
    · exact List.mem_cons_self
    · exact List.mem_cons_of_mem f ih

/-- What is planned stands in the calendar. -/
theorem mem_agenda_plan (s : State) (n o : Nat) (i : Instr) (a : EvArg) : ⟨n, o, .event i a⟩ ∈ (s.plan n o i a).agenda := mem_agendaIns _ _

theorem lowField_eq_none_iff (l : List (Nat × Nat)) : lowField l = none ↔ l = [] := by
  cases l with
  | nil => exact ⟨fun _ => rfl, fun _ => rfl⟩
  | cons p l =>
    rw [lowField]
    constructor
    · intro h
      split at h
      · cases h
      · split at h <;> cases h
    · intro h
      cases h

theorem freeEntries_modHost (s : State) (f : HostPort → HostPort) : (s.modHost f).freeEntries = s.freeEntries := rfl

/-- A record without failing fields arms the slot, and goes to the task table in this cycle when an entry is free. -/
theorem rootarm_arms {s : State} (hb : 4 ≤ s.bootStep) (hst : s.host.rootSt = 0) (he : s.rootErrs s.host.rootRec = []) :
    ∃ t, exec .rootarm s = .next t ∧ t.host.rootSt = 1 ∧
      (s.freeEntries ≠ [] → ∃ e ∈ t.agenda, e.at_ = s.now ∧ e.ev = .event .rootSlotCopy EvArg.none) := by
  have hl := (lowField_eq_none_iff _).mpr he
  have hx : exec .rootarm s = .next (if s.freeEntries.isEmpty then s.modHost fun h => { h with rootSt := 1 }
      else (s.modHost fun h => { h with rootSt := 1 }).plan s.now (ordEngine 0 + 100) .rootSlotCopy EvArg.none) := by
    show execRootarm s = _
    simp only [execRootarm, hosted_up hb, hst, hl, freeEntries_modHost, ne_eq, not_true_eq_false, if_false]
    rfl
  rw [hx]
  by_cases hf : s.freeEntries = []
  · rw [hf]
    exact ⟨_, rfl, rfl, fun h => absurd rfl h⟩
  · rw [if_neg (by simpa using hf)]
    exact ⟨_, rfl, rfl, fun _ => ⟨_, mem_agenda_plan .., rfl, rfl⟩⟩

/-- A record with a failing field leaves the slot EMPTY. -/
theorem rootarm_refuses {s : State} (hb : 4 ≤ s.bootStep) (hst : s.host.rootSt = 0) (he : s.rootErrs s.host.rootRec ≠ []) :
    ∃ t, exec .rootarm s = .next t ∧ t.host.rootSt = 0 := by
  obtain ⟨p, hp⟩ := Option.ne_none_iff_exists'.mp (mt (lowField_eq_none_iff _).mp he)
  refine ⟨s.hostEvent evRefusal (p.1 + p.2 * 2 ^ 16), ?_, (host_rootSt_event ..).trans hst⟩
  show execRootarm s = _
  simp only [execRootarm, hosted_up hb, hst, hp, ne_eq, not_true_eq_false, if_false]

/-! ## Registers (R462) -/

theorem rootrec_loads {s : State} (hb : 4 ≤ s.bootStep) (hst : s.host.rootSt = 0) :
    exec .rootrec s = .next { s with host := { s.host with rootRec := s.arg.record } } := by
  show execRootrec s = _
  rw [execRootrec, hosted_up hb, if_pos hst]
  rfl

theorem rpool_loads {s : State} (hb : 4 ≤ s.bootStep) (hs : ∀ e ∈ s.taskList, e.2.shadows = []) (hv : s.arg.w.toNat % 2 ^ 21 = 0)
    (hm : s.arg.w.toNat ≤ 2 ^ 30) : exec .rpool s = .next { s with host := { s.host with rpool := s.arg.w } } := by
  have hn : s.taskList.any (fun e => !e.2.shadows.isEmpty) = false := by
    rw [List.any_eq_false]
    intro e he
    simp [hs e he]
  have hok : ¬(s.taskList.any (fun e => !e.2.shadows.isEmpty) = true ∨ s.arg.w.toNat % 2 ^ 21 ≠ 0 ∨ 2 ^ 30 < s.arg.w.toNat) := by
    rw [hn]
    rintro (h | h | h)
    · cases h
    · exact h hv
    · exact absurd h (Nat.not_lt.mpr hm)
  show execRpool s = _
  dsimp only [execRpool]
  rw [hosted_up hb, if_neg hok]
  rfl

theorem jobEntry_eq {j : Nat} (h1 : 1 ≤ j) (h2 : j ≤ 15) : jobEntry j = true := by simp [jobEntry, h1, h2]

/-- The start of an entry that is not armed is written. -/
theorem rjstart_writes {s : State} (hb : 4 ≤ s.bootStep) (h1 : 1 ≤ s.arg.n) (h2 : s.arg.n ≤ 15) (ha : s.host.rjArm.get 0 s.arg.n ≠ 1) :
    ∃ t, exec .rjstart s = .next t ∧ t.host.rjStart.get 0 s.arg.n = s.arg.w := by
  refine ⟨s.modHost fun h => { h with rjStart := h.rjStart.set 0 s.arg.n s.arg.w }, ?_, SMap.get_set_same ..⟩
  show execRjstart s = _
  rw [execRjstart, hosted_up hb, if_neg (by simp [jobEntry_eq h1 h2, ha])]

/-- The start of an armed entry stands. -/
theorem rjstart_ignored {s : State} (hb : 4 ≤ s.bootStep) (ha : s.host.rjArm.get 0 s.arg.n = 1) : exec .rjstart s = .next s := by
  show execRjstart s = _
  rw [execRjstart, hosted_up hb, if_pos (by simp [ha])]

/-- An entry is armed unless its start is no multiple of 4 or too near. -/
theorem rjctlArm_arms {s : State} (hb : 4 ≤ s.bootStep) (h1 : 1 ≤ s.arg.n) (h2 : s.arg.n ≤ 15) :
    let at_ := (s.host.rjStart.get 0 s.arg.n).toNat
    ∃ t, exec .rjctlArm s = .next t ∧ t.host.rjArm.get 0 s.arg.n = if at_ % 4 ≠ 0 ∨ at_ < s.ftime.toNat + 4096 then 0 else 1 := by
  have hx : exec .rjctlArm s = execRjctlArm s := rfl
  rw [hx]
  dsimp only [execRjctlArm]
  rw [hosted_up hb, if_neg (by simp [jobEntry_eq h1 h2])]
  refine ⟨_, rfl, ?_⟩
  split
  · rw [State.hostEvent, host_rjArm_event]
    exact SMap.get_set_same 0 s.arg.n 0 s.host.rjArm
  · exact SMap.get_set_same 0 s.arg.n 1 s.host.rjArm

theorem rjctlDisarm_disarms {s : State} (hb : 4 ≤ s.bootStep) : ∃ t, exec .rjctlDisarm s = .next t ∧ t.host.rjArm.get 0 s.arg.n = 0 :=
  ⟨_, hosted_up hb _, SMap.get_set_same 0 s.arg.n 0 s.host.rjArm⟩

/-- A register without behaviour of its own takes the value written at its offset. -/
theorem hostRegisterWrite_stores {s : State} (hb : 4 ≤ s.bootStep) :
    ∃ t, exec .hostRegisterWrite s = .next t ∧ (s.arg.n = 0x0208 → t.host.carg0 = s.arg.w) ∧ (s.arg.n = 0x0210 → t.host.carg1 = s.arg.w) ∧
      (s.arg.n = 0x0100 → t.host.defHbase = s.arg.w) ∧ (s.arg.n = 0x0108 → t.host.defCask = s.arg.w) ∧
      (s.arg.n = 0x0118 → t.host.drtBase = s.arg.w) ∧ (s.arg.n = 0x0310 → t.host.eqHead = s.arg.w) ∧ t.mem = s.mem ∧ t.tiles = s.tiles := by
  refine ⟨_, hosted_up hb _, ?_, ?_, ?_, ?_, ?_, ?_, rfl, rfl⟩ <;>
  · intro h
    rw [host_modHost, h]
    rfl

/-! ## The basin aperture (R466) -/

/-- The reply for one granule of a read: the granule with its rind, and a report of a bad one. -/
def State.replyGran (s : State) (g : Nat) : State :=
  let v := if s.poolBase ≤ 8 * g then Gran.zero else s.memGran none g
  let s := if v.bad then s.hostEvent evRind (rindDetail 0 (8 * g)) else s
  s.modHost fun h => { h with reads := h.reads ++ [(8 * g, v, v.bad)] }

theorem execApertureRead_eq {s : State} (hb : 4 ≤ s.bootStep) (ha : s.arg.n + s.arg.m ≤ 2 ^ 36) :
    execApertureRead s =
      .next (((List.range ((s.arg.n + s.arg.m + 7) / 8 - s.arg.n / 8)).map (· + s.arg.n / 8)).foldl State.replyGran s) := by
  unfold execApertureRead
  rw [up_of_booted hb]
  simp only [Bool.not_true, Bool.false_eq_true, if_false, if_neg (Nat.not_lt.mpr ha)]
  rfl

theorem replyGran_frame (s : State) (g : Nat) : (s.replyGran g).mem = s.mem ∧ (s.replyGran g).tiles = s.tiles := by
  unfold State.replyGran
  dsimp only
  generalize (if s.poolBase ≤ 8 * g then Gran.zero else s.memGran none g) = v
  rw [mem_modHost, tiles_modHost]
  split
  · exact ⟨mem_event .., tiles_event ..⟩
  · exact ⟨rfl, rfl⟩

theorem length_reads_replyGran (s : State) (g : Nat) : (s.replyGran g).host.reads.length = s.host.reads.length + 1 := by
  unfold State.replyGran
  dsimp only
  generalize (if s.poolBase ≤ 8 * g then Gran.zero else s.memGran none g) = v
  rw [host_modHost, List.length_append]
  split
  · rw [State.hostEvent, host_reads_event]
    rfl
  · rfl

theorem length_reads_foldl_replyGran (l : List Nat) (s : State) :
    (l.foldl State.replyGran s).host.reads.length = s.host.reads.length + l.length := by
  induction l generalizing s with
  | nil => rfl
  | cons g l ih =>
    rw [List.foldl_cons, ih, length_reads_replyGran, List.length_cons]
    omega

/-- A read adds one reply for each granule and leaves memory and tiles. -/
theorem apertureRead_replies {s : State} (hb : 4 ≤ s.bootStep) (ha : s.arg.n + s.arg.m ≤ 2 ^ 36) :
    ∃ t, exec .apertureRead s = .next t ∧ t.mem = s.mem ∧ t.tiles = s.tiles ∧
      t.host.reads.length = s.host.reads.length + ((s.arg.n + s.arg.m + 7) / 8 - s.arg.n / 8) := by
  refine ⟨_, execApertureRead_eq hb ha, foldl_keeps (·.mem) _ (fun r g => (replyGran_frame r g).1) _ s,
    foldl_keeps (·.tiles) _ (fun r g => (replyGran_frame r g).2) _ s, ?_⟩
  rw [length_reads_foldl_replyGran, List.length_map, List.length_range]

theorem apertureRead_beyond {s : State} (hb : 4 ≤ s.bootStep) (ha : 2 ^ 36 < s.arg.n + s.arg.m) :
    exec .apertureRead s = .fault (.noSuchAddress s.arg.n) := by
  show execApertureRead s = _
  unfold execApertureRead
  rw [up_of_booted hb]
  simp only [Bool.not_true, Bool.false_eq_true, if_false, if_pos ha]

theorem execApertureWrite_eq {s : State} (hb : 4 ≤ s.bootStep) (ha : s.arg.n + s.arg.bytes.length ≤ 2 ^ 36) :
    execApertureWrite s =
      .next ((s.memWrites none (gwBytes s.arg.n (min s.arg.bytes.length (s.poolBase - s.arg.n)) (bytesNat s.arg.bytes) false)).modHost fun h =>
        { h with acks := h.acks ++ [(s.arg.n, s.arg.bytes.length)] }) := by
  unfold execApertureWrite
  rw [up_of_booted hb]
  simp only [Bool.not_true, Bool.false_eq_true, if_false, if_neg (Nat.not_lt.mpr ha)]

/-- A write performs its bytes below the rename pool, leaves every other byte, and is acknowledged once. -/
theorem apertureWrite_performs {s : State} (hb : 4 ≤ s.bootStep) (ha : s.arg.n + s.arg.bytes.length ≤ 2 ^ 36) :
    ∃ t, exec .apertureWrite s = .next t ∧ t.tiles = s.tiles ∧ t.host.acks = s.host.acks ++ [(s.arg.n, s.arg.bytes.length)] ∧
      (∀ k < s.arg.bytes.length, s.arg.n + k < s.poolBase → t.mem.byte (s.arg.n + k) = s.arg.bytes.getD k 0) ∧
      (∀ b, (b < s.arg.n ∨ s.arg.n + s.arg.bytes.length ≤ b ∨ s.poolBase ≤ b) → t.mem.byte b = s.mem.byte b) := by
  obtain ⟨hmem, htiles, hacks⟩ :=
    memWrites_none_frame (gwBytes s.arg.n (min s.arg.bytes.length (s.poolBase - s.arg.n)) (bytesNat s.arg.bytes) false) s
  refine ⟨_, execApertureWrite_eq hb ha, htiles, ?_, fun k hk hp => ?_, fun b hout => ?_⟩
  · rw [host_modHost, hacks]
  · rw [mem_modHost, hmem, byte_writes_gwBytes, if_pos (by omega), Nat.add_sub_cancel_left, bits_bytesNat]
  · rw [mem_modHost, hmem, byte_writes_gwBytes, if_neg (by omega)]

theorem apertureWrite_beyond {s : State} (hb : 4 ≤ s.bootStep) (ha : 2 ^ 36 < s.arg.n + s.arg.bytes.length) :
    exec .apertureWrite s = .fault (.noSuchAddress s.arg.n) := by
  show execApertureWrite s = _
  unfold execApertureWrite
  rw [up_of_booted hb]
  simp only [Bool.not_true, Bool.false_eq_true, if_false, if_pos ha]

/-! ## Power (R27, R472) -/

/-- Every tile of a throttled gang stands still for 1,024 cycles. -/
theorem throttled_throttle (s : State) (g : List (Nat × TaskEnt)) :
    ∀ n ∈ gangTiles g, ((s.throttle g).tileAt (tid n)).throttled = some (s.now + 1024) := by
  intro n hn
  cases g with
  | nil => cases hn
  | cons e g =>
    exact foldl_establishes (f := fun s t => s.modTile (tid t) fun x => { x with throttled := some (s.now + 1024) })
      (Q := fun r => r.now = s.now) (P := fun r => (r.tileAt (tid n)).throttled = some (s.now + 1024)) (a := n) (s := s)
      (fun r b hr => hr) (fun r hr => by simp [hr])
      (fun r b hr hp => by
        rw [tileAt_modTile, hr]
        split
        · rfl
        · exact hp) hn rfl

theorem powerMeasurement_below {s : State} (hb : 4 ≤ s.bootStep) (hf : s.arg.flag = false) :
    exec .powerMeasurement s = .next { s with host := { s.host with aboveCount := 0 } } := by
  show execPowerMeasurement s = _
  simp only [execPowerMeasurement, up_of_booted hb, hf]
  rfl

theorem powerMeasurement_throttles {s : State} (hb : 4 ≤ s.bootStep) (hf : s.arg.flag = true) {g : List (Nat × TaskEnt)}
    (hg : s.gangs.reverse.find? s.mayThrottle = some g) :
    ∃ t, exec .powerMeasurement s = .next t ∧ ∀ n ∈ gangTiles g, (t.tileAt (tid n)).throttled = some (s.now + 1024) := by
  refine ⟨(s.throttle g).modHost fun h => { h with aboveCount := 0 }, ?_, throttled_throttle s g⟩
  show execPowerMeasurement s = _
  simp only [execPowerMeasurement, up_of_booted hb, hf, hg]
  rfl

/-- A tile whose throttle has run out goes on. -/
def Tile.endThrottle (x : Tile) (now : Nat) : Tile :=
  match x.throttled with
  | some c => if c ≤ now then { x with throttled := none } else x
  | none => x

theorem endThrottle_throttled {x : Tile} {now : Nat} (h : ∀ c, x.throttled = some c → c ≤ now) : (x.endThrottle now).throttled = none := by
  unfold Tile.endThrottle
  split
  · rename_i c hc
    rw [if_pos (h c hc)]
  · assumption

theorem execThrottleEnd_eq (s : State) :
    execThrottleEnd s = .next ((gangTiles (s.gangOf s.arg.n)).foldl (fun s t => s.modTile (tid t) (·.endThrottle s.now)) s) := rfl

/-- The end of a throttle leaves memory and frees the gang's tiles whose time has come. -/
theorem throttleEnd_resumes (s : State) :
    ∃ t, exec .throttleEnd s = .next t ∧ t.mem = s.mem ∧ ∀ n ∈ gangTiles (s.gangOf s.arg.n), ∀ c,
      (s.tileAt (tid n)).throttled = some c → c ≤ s.now → (t.tileAt (tid n)).throttled = none := by
  refine ⟨_, execThrottleEnd_eq s, foldl_keeps (·.mem) _ (fun r t => mem_modTile ..) _ s, fun n hn c hc hle => ?_⟩
  refine foldl_establishes (Q := fun r => r.now = s.now ∧ ∀ c, (r.tileAt (tid n)).throttled = some c → c ≤ s.now)
    (P := fun r => (r.tileAt (tid n)).throttled = none) ?_ ?_ ?_ hn ⟨rfl, fun d hd => ?_⟩
  · rintro r b ⟨hnow, hdue⟩
    refine ⟨hnow, fun d hd => ?_⟩
    rw [tileAt_modTile, hnow] at hd
    split at hd
    · rename_i he
      rw [endThrottle_throttled (he ▸ hdue)] at hd
      cases hd
    · exact hdue d hd
  · rintro r ⟨hnow, hdue⟩
    rw [tileAt_modTile, if_pos rfl, hnow]
    exact endThrottle_throttled hdue
  · rintro r b ⟨hnow, hdue⟩ hp
    rw [tileAt_modTile, hnow]
    split
    · rename_i he
      exact endThrottle_throttled (he ▸ hdue)
    · exact hp
  · rw [hc] at hd
    cases hd
    exact hle

theorem mem_failUnstarted (s : State) (j : Nat) : (s.failUnstarted j).mem = s.mem := mem_failGangs ..

theorem mem_raiseM (s : State) (t : Tid) (low : BitVec 4) (info : Word) : (s.raiseM t low info).mem = s.mem := rfl

/-- The entries that an emergency stop ends show ENDED. -/
theorem get_foldl_set_one (js : List Nat) (m : SMap Nat) {j : Nat} (hj : j ∈ js) : (js.foldl (fun m j => m.set 0 j 1) m).get 0 j = 1 := by
  obtain ⟨before, after, rfl⟩ := List.append_of_mem hj
  rw [List.foldl_append, List.foldl_cons]
  refine List.foldlRecOn after _ (motive := fun m : SMap Nat => m.get 0 j = 1) (SMap.get_set_same 0 j 1 _) fun m hm k _ => ?_
  rw [SMap.get_set]
  split
  · rfl
  · exact hm

/-- An emergency stop leaves memory and ends the reach job of every task on a tile. -/
theorem emergencyPowerStop_ends (s : State) :
    ∃ t, exec .emergencyPowerStop s = .next t ∧ t.mem = s.mem ∧ ∀ e ∈ s.taskList, recRjob e.2.record ≠ 0 → e.2.tile.isSome = true →
      t.host.rjEnded.get 0 (recRjob e.2.record) = 1 := by
  refine ⟨_, rfl, ?_, fun e he hj ht => get_foldl_set_one _ _ (List.mem_filterMap.mpr ⟨e, he, ?_⟩)⟩
  · rw [mem_modHost, foldl_keeps (·.mem) _ mem_failUnstarted, foldl_keeps (·.mem) _ (fun r t => mem_raiseM r t ..), mem_event]
  · rw [ht, if_pos (by simpa using hj)]

/-! ## The obligation -/

/-- Settles O47, event by event: what each one does on a die that is out of reset, and that the host's have no effect before. -/
theorem hostRegisterEvents : Obligations.HostRegisterEvents := by
  intro s
  refine ⟨powerUp_starts_anew s, attestation_reports s, exec_in_reset, fun hb => ?_, throttleEnd_resumes s, emergencyPowerStop_ends s⟩
  exact ⟨rootrec_loads hb, rootarm_arms hb, rootarm_refuses hb, rpool_loads hb, hosted_up hb _, hosted_up hb _,
    fun h1 h2 => ⟨rjstart_writes hb h1 h2, rjstart_ignored hb, rjctlArm_arms hb h1 h2⟩, rjctlDisarm_disarms hb, hostRegisterWrite_stores hb,
    apertureRead_replies hb, apertureRead_beyond hb, fun ha _ => apertureWrite_performs hb ha, apertureWrite_beyond hb,
    powerMeasurement_below hb, fun hf _ => powerMeasurement_throttles hb hf⟩

end Sys2Proof.Machine
end

section
/-! SUPPORT. O59: what keeps the stores of a state in canonical form, one rule per operation of the state (R38, R68). -/

namespace Sys2Proof.Machine

variable {s : State} {t : Tid}

theorem memOk_ite {c : Prop} [Decidable c] {a b : State} (ha : a.MemOk) (hb : b.MemOk) : (if c then a else b).MemOk := by
  split
  · exact ha
  · exact hb

/-- A state with the same stores. -/
theorem State.MemOk.same {u : State} (h : s.MemOk) (hu : (u.mem, u.tiles, u.tasks) = (s.mem, s.tiles, s.tasks)) : u.MemOk := by
  obtain ⟨hm, ht, hk⟩ : u.mem = s.mem ∧ u.tiles = s.tiles ∧ u.tasks = s.tasks := by simpa only [Prod.mk.injEq] using hu
  exact memOk_congr hm ht hk h

theorem State.MemOk.schedule {n o : Nat} {e : Ev} (h : s.MemOk) : (s.schedule n o e).MemOk := memOk_schedule n o e h

theorem State.MemOk.plan {n o : Nat} {i : Instr} {a : EvArg} (h : s.MemOk) : (s.plan n o i a).MemOk := memOk_plan n o i a h

theorem State.MemOk.event {c i k d : Nat} (h : s.MemOk) : (s.event c i k d).MemOk := memOk_event c i k d h

theorem State.MemOk.foldl {α : Type} {f : State → α → State} {l : List α} (h : s.MemOk) (hf : ∀ s, s.MemOk → ∀ a ∈ l, (f s a).MemOk) :
    (l.foldl f s).MemOk := memOk_foldl f l hf h

theorem State.MemOk.rindEvents {c i p : Nat} {gs : List Nat} (h : s.MemOk) : (s.rindEvents c i p gs).MemOk := memOk_rindEvents c i p gs h

theorem State.MemOk.setTile {x : Tile} (h : s.MemOk) (hx : x.pad = (s.tileAt t).pad) : (s.setTile t x).MemOk :=
  memOk_setTile t x (hx ▸ h.2.1 t) h

theorem State.MemOk.modTile {f : Tile → Tile} (h : s.MemOk) (hf : (f (s.tileAt t)).pad = (s.tileAt t).pad) :
    (s.modTile t f).MemOk := memOk_modTile_pad t f hf h

theorem State.MemOk.onTile {f : Tile → Tile} (h : s.MemOk) (hf : (f s.tile).pad = s.tile.pad) : (s.onTile f).MemOk :=
  memOk_onTile_pad f hf h

theorem State.MemOk.padPut {ws : List GWrite} (h : s.MemOk) : (s.padPut t ws).MemOk := memOk_padPut t ws h

theorem State.MemOk.memWrite {v : Option Tid} {w : GWrite} (h : s.MemOk) : (s.memWrite v w).MemOk := memOk_memWrite v w h

theorem State.MemOk.memWrites {v : Option Tid} {ws : List GWrite} (h : s.MemOk) : (s.memWrites v ws).MemOk := memOk_memWrites v ws h

theorem State.MemOk.modTask {i : Nat} {f : TaskEnt → TaskEnt} (h : s.MemOk) (hf : ∀ e, (f e).shadows = e.shadows) :
    (s.modTask i f).MemOk := memOk_modTask i f hf h

theorem State.MemOk.clearTask {i : Nat} (h : s.MemOk) : (s.setTask i none).MemOk := 
  memOk_setTask i none (fun q hq => absurd hq.symm (Option.some_ne_none q)) h

theorem State.MemOk.putTask {i : Nat} {e : TaskEnt} (h : s.MemOk) (he : e.ShadowsOk) : (s.setTask i (some e)).MemOk :=
  memOk_setTask i _ (fun _ hq => Option.some.inj hq ▸ he) h

/-- An entry without shadow tiles. -/
theorem shadowsOk_nil {e : TaskEnt} (he : e.shadows = []) : e.ShadowsOk := by
  intro x hx
  rw [he] at hx
  cases hx

end Sys2Proof.Machine
end

section
/-! SUPPORT. O59: the operations of a tile that leave its scratchpad as it is. -/

namespace Sys2Proof.Machine

variable {x : Tile}

theorem foldl_pad {α : Type} {f : Tile → α → Tile} (hf : ∀ x a, (f x a).pad = x.pad) (l : List α) (x : Tile) :
    (l.foldl f x).pad = x.pad :=
  List.foldlRecOn l f (motive := fun y => y.pad = x.pad) rfl fun y hy a _ => (hf y a).trans hy

theorem ite_pad {c : Prop} [Decidable c] {a b x : Tile} (ha : a.pad = x.pad) (hb : b.pad = x.pad) :
    (if c then a else b).pad = x.pad := by
  split
  · exact ha
  · exact hb

theorem setSt_pad (n : Nat) (b : Bool) : (x.setSt n b).pad = x.pad := rfl

theorem setRowSum_pad (n : Nat) (v : Reg 1) : (x.setRowSum n v).pad = x.pad := rfl

theorem setScalar_pad (n : Nat) (v : Reg 1) : (x.setScalar n v).pad = x.pad := by
  unfold Tile.setScalar
  split <;> rfl

theorem setPred_pad (n : Nat) (v : Reg 4) : (x.setPred n v).pad = x.pad := by
  unfold Tile.setPred
  split <;> rfl

theorem write_pad (w : RWrite) : (x.write w).1.pad = x.pad := by
  cases w with
  | scalar n v => exact setScalar_pad _ _
  | pred n v m => exact setPred_pad _ _
  | vec n v m q => cases q <;> rfl
  | latch q v m => rfl
  | acc n v m => rfl
  | sreg n v => rfl

/-! ### Results that land -/

theorem landAcc_write_pad (a : LandAcc) (l : Landing) (w : RWrite) : (a.write l w).x.pad = a.x.pad := by
  unfold LandAcc.write
  split <;> exact write_pad w

theorem landAcc_land_pad (a : LandAcc) (l : Landing) : (a.land l).x.pad = a.x.pad := by
  unfold LandAcc.land
  split
  · rfl
  · exact List.foldlRecOn _ _ (motive := fun b : LandAcc => b.x.pad = a.x.pad) rfl fun b hb w _ => (landAcc_write_pad b l w).trans hb

theorem landDue_pad : x.landDue.1.pad = x.pad :=
  List.foldlRecOn _ LandAcc.land (motive := fun b : LandAcc => b.x.pad = x.pad) rfl fun b hb l _ => (landAcc_land_pad b l).trans hb

theorem holdWaiting_pad : x.holdWaiting.pad = x.pad := by
  unfold Tile.holdWaiting
  split <;> rfl

/-! ### Traps, issue, restart -/

theorem returnState_pad (q : TrapReq) : (x.returnState q).pad = x.pad := by
  unfold Tile.returnState
  split <;> simp only [setSreg_pad]

theorem enterTrap_pad (q : TrapReq) : (x.enterTrap q).pad = x.pad := by
  unfold Tile.enterTrap
  simp only [setSt_pad, setSreg_pad]
  exact returnState_pad q

theorem trapReturn_pad : x.trapReturn.pad = x.pad := by
  unfold Tile.trapReturn
  simp only [setSt_pad, Tile.restoreSnapshot]

theorem tick_pad : x.tick.pad = x.pad := by
  unfold Tile.tick
  split <;> rfl

theorem restart_pad (timed : Bool) : (x.restart timed).pad = x.pad := by
  unfold Tile.restart
  simp only [tick_pad, setSt_pad, Tile.acquire]

theorem openLoop_pad (len count : Nat) : (x.openLoop len count).pad = x.pad := by
  unfold Tile.openLoop
  simp only [setSreg_pad]

theorem succ_pad (n : Nat) (x : Tile) (a : Word) : (x.succ n a).2.pad = x.pad := by
  induction n generalizing x with
  | zero => rfl
  | succ n ih =>
    unfold Tile.succ
    dsimp only
    split
    · split
      · rfl
      · exact ih _
    · rfl

theorem advance_pad : x.advance.pad = x.pad := by
  unfold Tile.advance
  split
  · split
    · rfl
    · exact succ_pad 8 x _
  · rfl
  · rfl

/-- A tick, but for a tile that waits at a `SYNC`. -/
theorem tickUnlessSync_pad : (match x.run with | .sync .. => x | _ => x.tick).pad = x.pad := by
  split
  · rfl
  · exact tick_pad

theorem retire_pad (before : Tile) (h : Header) (log : List LogEntry) : (x.retire before h log).pad = x.pad := by
  unfold Tile.retire
  extract_lets eff y z u v
  have hv : v.pad = x.pad := (tickUnlessSync_pad (x := z)).trans advance_pad
  split
  · exact hv
  · exact hv

theorem capture_pad (trap : Bool) : (x.capture trap).pad = x.pad := by
  unfold Tile.capture
  cases trap with
  | true => simp only [if_true, setSt_pad]
  | false => simp only [Bool.false_eq_true, if_false, setSt_pad, Tile.takeSnapshot, setSreg_pad]

theorem endThrottle_pad (now : Nat) : (x.endThrottle now).pad = x.pad := by
  unfold Tile.endThrottle
  split
  · split <;> rfl
  · rfl

theorem touch_pad (slot : Nat) : (x.touch slot).pad = x.pad := by
  unfold Tile.touch
  split <;> rfl

theorem putSelected_pad (sel : Nat) (l : List Gran) (v : Word) : (x.putSelected sel l v).pad = x.pad := by
  unfold Tile.putSelected
  dsimp only
  split
  · exact setScalar_pad _ _
  · exact setPred_pad _ _
  · rfl
  · rfl
  · rfl

/-! ### The matrix engine -/

theorem dropCmd_pad (c : MCmd) (e : Nat) : (x.dropCmd c e).pad = x.pad := by
  unfold Tile.dropCmd
  dsimp only
  split <;> rfl

theorem beginDue_pad : x.beginDue.pad = x.pad := by
  unfold Tile.beginDue
  split
  · rfl
  · refine foldl_pad (fun y c => ?_) _ _
    split
    · exact dropCmd_pad c y.mclk
    · rfl

theorem stepCmd_pad (c : MCmd) (e : Nat) (f : Option DueFault) : (x.stepCmd c e f).pad = x.pad := by
  cases f with
  | none => rfl
  | some f => exact dropCmd_pad c e

theorem loaded_pad (c : MCmd) : (c.loaded x).pad = x.pad := by
  unfold MCmd.loaded
  dsimp only
  split <;> rfl

theorem putQueue_pad (q : List MCmd) : (x.putQueue q).pad = x.pad :=
  foldl_pad (f := fun x w => { x with w := x.w.modify .empty w fun v => { v with
    img := ((q.find? fun c => c.usesW && c.f.w.toNat == w && !q.any fun l => l.isLoad && l.id == c.img).map (·.img)).getD 0 } })
    (fun _ _ => rfl) (List.range 4) x

/-- What one engine output writes to the scratchpad keeps its form. -/
theorem matrixStep_wf (now : Nat) (h : Memory.wf x.pad) : Memory.wf (x.matrixStep now).pad := by
  unfold Tile.matrixStep
  extract_lets e x0 x1 x2 old a x3
  have h1 : x1.pad = x.pad := by
    refine foldl_pad (x := x0) (fun y c => ?_) x.mq
    extract_lets r z
    refine (stepCmd_pad _ _ _).trans ?_
    unfold z
    split <;> rfl
  have ha : a.1.pad = x.pad := by
    refine List.foldlRecOn (motive := fun b : Tile × List MOut => b.1.pad = x.pad) x2.mq _ h1 fun b hb c _ => ?_
    exact (stepCmd_pad _ _ _).trans hb
  have h3 : Memory.wf x3.pad := by
    refine List.foldlRecOn (motive := fun y : Tile => Memory.wf y.pad) a.2 _ (ha ▸ h) fun y hy o _ => ?_
    dsimp only
    split
    · exact writes_wf o.pad _ hy
    · exact writes_wf o.pad _ hy
  refine (foldl_pad (x := x3) (fun y c => ?_) _) ▸ h3
  dsimp only
  split
  · exact loaded_pad c
  · rfl

/-! ### A cask put back onto a tile

Each of its record updates in a lemma of its own, its values variables: the kernel then compares no values that a cask gives. -/

theorem resume_pad (i : Nat) : ({ x.vacate with task := some i, run := .running } : Tile).pad = x.pad := rfl

theorem putSregs_pad (m : SMap Word) : ({ x with sr := m } : Tile).pad = x.pad := rfl

theorem putCycle_pad (q : List Word) (r : Nat) (y : BitVec 32) (c : Word) :
    ({ x with fq := q, rpt := r, yc := y, tcyc := c, l1 := [], plru := [], fills := [], fbuf := [] } : Tile).pad = x.pad := rfl

theorem putInflight_pad (l : List Landing) : ({ x with inflight := l } : Tile).pad = x.pad := rfl

theorem putHandles_pad (m : SMap Handle) : ({ x with handles := m, hseen := m } : Tile).pad = x.pad := rfl

theorem setEngine_pad (e : Bool) (g : CopyEngine) : (x.setEngine e g).pad = x.pad := rfl

theorem restoreRegs_pad (s : State) (pages : SMap Nat) (va o0 o1 : Nat) : (s.restoreRegs pages va o0 o1 x).pad = x.pad := by
  unfold State.restoreRegs
  extract_lets x1 x2 x3
  have h2 : x2.pad = x1.pad := by
    unfold x2
    refine foldl_pad (fun y n => ?_) _ _
    exact setScalar_pad _ _
  have h3 : x3.pad = x2.pad := by
    unfold x3
    refine foldl_pad (fun y n => ?_) _ _
    exact setPred_pad _ _
  refine Eq.trans ?_ (h3.trans h2)
  refine foldl_pad (fun y n => ?_) _ _
  dsimp only
  split
  · exact setVec_pad _ _ _
  · exact setLatch_pad _ _ _

theorem restoreTrap_pad (s : State) (pages : SMap Nat) (va h : Nat) : (s.restoreTrap pages va h x).pad = x.pad := by
  unfold State.restoreTrap
  split
  · rfl
  · extract_lets w x1 pc bundle x2 x3 x4 y
    have h1 : x1.pad = x.pad := by
      unfold x1
      simp only [setSreg_pad]
    have h3 : x3.pad = x2.pad := by
      unfold x3
      split
      · rfl
      · extract_lets rows
        split
        · exact putQueue_pad _
        · rfl
    exact trapReturn_pad.trans (h3.trans h1)

theorem restoreMatrix_wf (s : State) (pages : SMap Nat) (va h : Nat) (x : Tile) (hx : Memory.wf x.pad) :
    Memory.wf (s.restoreMatrix pages va h x).pad := by
  unfold State.restoreMatrix
  extract_lets x1 x2
  have h1 : x1.pad = x.pad := by
    unfold x1
    split
    · rfl
    · extract_lets y
      have hy : y.pad = x.pad := by
        unfold y
        refine foldl_pad (fun y n => ?_) _ _
        exact setAcc_pad _ _ _
      refine Eq.trans ?_ hy
      refine foldl_pad (fun y n => ?_) _ _
      exact setRowSum_pad _ _
  have h2 : x2.pad = x1.pad := by
    unfold x2
    split
    · rfl
    · refine foldl_pad (fun y n => ?_) _ _
      rfl
  have hx2 : Memory.wf x2.pad := (h2.trans h1) ▸ hx
  split
  · exact hx2
  · exact List.foldlRecOn (motive := fun y : Tile => Memory.wf y.pad) _ _ hx2 fun y hy ib _ => writes_wf _ _ hy

/-- A state in which every tile has been updated, its scratchpad left, and the other stores are those before. -/
theorem State.MemOk.mapTiles {s u : State} {f : Tile → Tile} (h : s.MemOk) (ht : u.tiles = s.tiles.map f) (hf : ∀ x, (f x).pad = x.pad)
    (hm : u.mem = s.mem) (hk : u.tasks = s.tasks) : u.MemOk := by
  have hu : ∀ t, u.tileAt t = f (s.tileAt t) := by
    intro t
    simp [State.tileAt, ht]
  refine ⟨hm ▸ h.1, fun t => ?_, ?_⟩
  · rw [hu, hf]
    exact h.2.1 t
  · have hl : u.taskList = s.taskList := by simp [State.taskList, hk]
    exact hl ▸ h.2.2

end Sys2Proof.Machine
end

section
/-! SUPPORT. O59: the state operations of translation, landings, traps, counters and release keep memory in canonical form. -/

namespace Sys2Proof.Machine

variable {s : State} {t : Tid}

theorem State.MemOk.regEvents {ds : List Nat} (h : s.MemOk) : (s.regEvents t ds).MemOk := h.foldl (fun _ hs _ _ => hs.event)

theorem State.MemOk.writeBackLine {slot : Nat} (h : s.MemOk) : (s.writeBackLine t slot).MemOk := by
  dsimp only [State.writeBackLine]
  split
  · exact h
  · exact h.memWrites.modTile (by rfl)

theorem State.MemOk.relinquishLine {line : Nat} (h : s.MemOk) : (s.relinquishLine t line).MemOk := h.same (by rfl)

theorem State.MemOk.clearL1 (h : s.MemOk) : (s.clearL1 t).MemOk := (h.same (by rfl)).modTile (by rfl)

theorem State.MemOk.setCounter {k : Nat} {v : Reg 1} (h : s.MemOk) : (s.setCounter k v).MemOk := (h.same (by rfl)).schedule

theorem State.MemOk.addCounter {k n : Nat} {bad : Bool} (h : s.MemOk) : (s.addCounter k n bad).MemOk := by
  dsimp only [State.addCounter]
  split
  · exact h.setCounter.event
  · exact h.setCounter

theorem State.MemOk.markEffect (h : s.MemOk) : (s.markEffect t).MemOk := by
  unfold State.markEffect
  split
  · exact h
  · exact h.modTask (by intro _; rfl)

theorem State.MemOk.leaveTile {run : Run} (h : s.MemOk) : (s.leaveTile t run).MemOk :=
  State.MemOk.same (s := s.modTile t fun x => { x.vacate with run := run }) (h.modTile rfl) rfl

theorem State.MemOk.dropShadowed (h : s.MemOk) : (s.dropShadowed t).MemOk := (h.same (by rfl)).modTile (by rfl)

theorem State.MemOk.freeTile (h : s.MemOk) : (s.freeTile t).MemOk := h.dropShadowed.schedule.leaveTile

theorem State.MemOk.rootEnds {e : TaskEnt} (h : s.MemOk) : (s.rootEnds e).MemOk := by
  dsimp only [State.rootEnds]
  split
  · exact h.same (by rfl)
  · exact h

theorem State.MemOk.failMember {i reason : Nat} {replay : Bool} {cause : Nat} {info : Word} (h : s.MemOk) :
    (s.failMember i reason replay cause info).MemOk := by
  dsimp only [State.failMember]
  split
  · exact h
  · split
    · refine State.MemOk.putTask ?_ (shadowsOk_nil (by rfl))
      split
      · refine h.freeTile.modTile ?_
        split
        · rfl
        · rfl
      · exact h
    · refine State.MemOk.event (State.MemOk.rootEnds (State.MemOk.putTask ?_ (shadowsOk_nil (by rfl))))
      split
      · refine h.freeTile.modTile ?_
        split
        · rfl
        · rfl
      · exact h

theorem State.MemOk.failTask {i reason cause : Nat} {info : Word} (h : s.MemOk) : (s.failTask i reason cause info).MemOk := by
  dsimp only [State.failTask]
  split
  · exact h
  · exact h.foldl (fun _ hs _ _ => hs.failMember)

theorem State.MemOk.failGangs {es : List (Nat × TaskEnt)} {reason : Nat} (h : s.MemOk) : (s.failGangs es reason).MemOk := by
  unfold State.failGangs
  refine h.foldl (fun _ hs _ _ => ?_)
  split
  · exact hs.failTask
  · exact hs

theorem State.MemOk.failTile {reason cause : Nat} {info : Word} (h : s.MemOk) : (s.failTile t reason cause info).MemOk := by
  unfold State.failTile
  split
  · exact h
  · exact h.failTask

theorem State.MemOk.land {slot : Fin 8} {lat : Nat} {ws : List RWrite} (h : s.MemOk) : (s.land slot lat ws).MemOk := h.onTile (by rfl)

theorem State.MemOk.landFlags {slot : Fin 8} {lat : Nat} {ws : List RWrite} {fp st : Word} {fault : Option TrapReq} (h : s.MemOk) :
    (s.landFlags slot lat ws fp st fault).MemOk := h.onTile (by rfl)

theorem State.MemOk.landWaiting {slot : Fin 8} {lat : Nat} {ws : List RWrite} {id : Nat} (h : s.MemOk) :
    (s.landWaiting slot lat ws id).MemOk := h.onTile (by rfl)

theorem State.MemOk.landHeld {slot : Fin 8} {lat : Nat} {ws : List RWrite} {id : Nat} (h : s.MemOk) :
    (s.landHeld slot lat ws id).MemOk := h.onTile (by rfl)

theorem State.MemOk.takeTrap {q : TrapReq} (h : s.MemOk) : (s.takeTrap t q).MemOk := by
  unfold State.takeTrap
  extract_lets x
  split
  · exact h.failTile
  · split
    · exact (h.modTile (by rfl)).event
    · refine h.modTile ?_
      dsimp only
      exact enterTrap_pad q

theorem State.MemOk.note {n : Issued} (h : s.MemOk) : (s.note n).MemOk := h.onTile (by rfl)

theorem State.MemOk.raise {f : Flt} (h : s.MemOk) : (s.raise f).MemOk := by
  dsimp only [State.raise]
  split
  · exact (h.onTile (by rfl)).takeTrap.note
  · exact h.takeTrap.note

theorem State.MemOk.freeze {w : Wait} (h : s.MemOk) : (s.freeze w).MemOk := by
  dsimp only [State.freeze]
  refine h.onTile ?_
  dsimp only
  split
  · rfl
  · rfl

theorem State.MemOk.runWalks (h : s.MemOk) : s.runWalks.MemOk := by
  dsimp only [State.runWalks, State.drawNat]
  refine h.foldl (fun _ hs _ _ => ?_)
  split
  · exact hs
  · exact (hs.same (by rfl)).plan

theorem State.MemOk.startWalkFor {pdom : BitVec 16} {va req : Nat} (h : s.MemOk) : (s.startWalkFor t pdom va req).MemOk := by
  dsimp only [State.startWalkFor]
  split
  · split
    · exact h
    · exact (h.same (by rfl)).runWalks
  · split
    · exact h
    · exact (h.same (by rfl)).runWalks

theorem State.MemOk.startWalk {va req : Nat} (h : s.MemOk) : (s.startWalk t va req).MemOk := h.startWalkFor

theorem State.MemOk.walkLog {e : TlbEnt} {va : Nat} (h : s.MemOk) : (s.walkLog e va).MemOk := by
  unfold State.walkLog
  split
  · split
    · exact h
    · exact h.event
  · exact h

theorem State.MemOk.walkLogs {pdom : BitVec 16} {va n : Nat} (h : s.MemOk) : (s.walkLogs pdom va n).MemOk := by
  dsimp only [State.walkLogs]
  refine h.foldl (fun _ hs _ _ => ?_)
  split
  · exact hs
  · exact hs.walkLog

theorem State.MemOk.endWalk {w : Walk} (h : s.MemOk) : (s.endWalk w).MemOk := by
  unfold State.endWalk
  split
  · exact h
  · extract_lets s1 e s2
    have h2 : s2.MemOk := (h.same (u := s1) rfl).walkLog.runWalks
    split
    · exact h2
    · exact (h2.same (u := { s2 with free := s2.free + 2, stlb := tlbAdd 8192 e s2.stlb s2.drawNat.1 }) rfl).modTile (by rfl)

theorem State.MemOk.fillLine {line pa : Nat} (h : s.MemOk) : (s.fillLine t line pa).MemOk := (h.same (by rfl)).modTile (by rfl)

theorem State.MemOk.fetchMiss {va : Nat} (h : s.MemOk) : (s.fetchMiss t va).MemOk := by
  dsimp only [State.fetchMiss, State.drawNat]
  split
  · exact h.startWalk
  · exact (h.same (by rfl)).plan
  · exact h

theorem State.MemOk.walkNow {va : Nat} (h : s.MemOk) : (s.walkNow t va).MemOk := by
  dsimp only [State.walkNow]
  split
  · exact h
  · split
    · exact (h.same (by rfl)).endWalk
    · exact h

theorem State.MemOk.prefill {lines : List Nat} (h : s.MemOk) : (s.prefill t lines).MemOk := by
  dsimp only [State.prefill]
  refine h.foldl (fun _ hs _ _ => ?_)
  split
  · exact hs
  · split
    · exact hs.walkNow.fillLine
    · exact hs.walkNow

theorem State.MemOk.pickHeld (h : s.MemOk) : (s.pickHeld t).MemOk := by
  dsimp only [State.pickHeld]
  split
  · exact (h.modTile (by rfl)).takeTrap
  · split
    · exact (h.modTile (by rfl)).takeTrap
    · split
      · split
        · exact h
        · exact (h.modTile (by rfl)).takeTrap
      · exact h

theorem State.MemOk.pickTrap (h : s.MemOk) : (s.pickTrap t).MemOk := by
  dsimp only [State.pickTrap]
  split
  · exact h
  · split
    · exact h.takeTrap
    · exact h.pickHeld

theorem State.MemOk.tileTrap (h : s.MemOk) : (s.tileTrap t).MemOk := by
  dsimp only [State.tileTrap]
  split
  · split
    · exact h
    · exact (h.modTile (by rfl)).pickTrap
  · exact h.pickTrap
  · exact h.pickTrap
  · split
    · exact (h.modTile (by rfl)).takeTrap
    · exact h
  · split
    · split
      · exact h.modTile (by rfl)
      · exact h
    · exact h.failTile
  · exact h

theorem State.MemOk.tileLand (h : s.MemOk) : (s.tileLand t).MemOk := by
  unfold State.tileLand
  extract_lets x r
  have hr : r.1.pad = x.pad := landDue_pad.trans holdWaiting_pad
  exact (h.setTile hr).regEvents

theorem State.MemOk.closeCombine (h : s.MemOk) : (s.closeCombine t).MemOk := h.same (by rfl)

theorem State.MemOk.startRelease {scope : Nat} (h : s.MemOk) : (s.startRelease t scope).MemOk := by
  dsimp only [State.startRelease]
  split
  · exact h.schedule.closeCombine
  · exact h.schedule

theorem State.MemOk.startHalt (h : s.MemOk) : s.startHalt.MemOk := h.startRelease.onTile (by rfl)

theorem State.MemOk.acquireTile {c : Nat} (h : s.MemOk) : (s.acquireTile t c).MemOk := by
  dsimp only [State.acquireTile]
  split
  · exact h.modTile (by rfl)
  · exact (h.modTile (by rfl)).schedule

theorem State.MemOk.acquireLate {acq : Bool} (h : s.MemOk) : (s.acquireLate t acq).MemOk := by
  unfold State.acquireLate
  split
  · exact h.modTile (by rfl)
  · exact h

end Sys2Proof.Machine
end

section
/-! SUPPORT. O59: the state operations of the vector, scratchpad and matrix slots keep memory in canonical form. -/

namespace Sys2Proof.Machine

variable {s : State} {t : Tid}

theorem State.MemOk.vLand {f : VF} {lat : Nat} {ws : List RWrite} (h : s.MemOk) : (s.vLand f lat ws).MemOk := by
  unfold State.vLand
  split
  · exact h
  · exact h.land

theorem State.MemOk.vLandF {f : VF} {lat t : Nat} {ws : List RWrite} {fls : List Nat} (h : s.MemOk) :
    (s.vLandF f lat t ws fls).MemOk := by
  dsimp only [State.vLandF]
  split
  · exact h.vLand
  · exact h.landFlags

theorem State.MemOk.claim {kind : Nat} {p : PortPlan} (h : s.MemOk) : (s.claim kind p).MemOk := by
  have hb : ∀ y : Tile, (if p.busy.isSome then y.setSt stBCOL true else y).pad = y.pad := by
    intro y
    split <;> rfl
  refine h.onTile ?_
  dsimp only
  split
  · exact hb _
  · exact hb _

theorem State.MemOk.bcol {p : PortPlan} {f : Flt} (h : s.MemOk) : (s.bcol p f).MemOk := by
  unfold State.bcol
  split
  · exact h.onTile (by rfl)
  · exact h

theorem State.MemOk.sScalar {lat : Nat} {d : BitVec 6} {v : Nat} (h : s.MemOk) : (s.sScalar lat d v).MemOk := h.land

theorem State.MemOk.divLand {d : BitVec 6} {b v : Nat} (h : s.MemOk) : (s.divLand d b v).MemOk := by
  dsimp only [State.divLand]
  split
  · exact h.landFlags
  · exact h.sScalar

theorem State.MemOk.vCarry {f : VF} {lat : Nat} {v : Reg 32} {act : List Bool} {w : Nat} (h : s.MemOk) :
    (s.vCarry f lat v act w).MemOk := by
  dsimp only [State.vCarry]
  split
  · exact h
  · exact h.vLand.regEvents

theorem State.MemOk.padRead {iss id : Nat} {l : PadLoad} {got : SMap (Reg 32)} {left : List (Nat × Nat)} (h : s.MemOk) :
    (s.padRead t iss id l got left).MemOk := by
  dsimp only [State.padRead]
  split
  · exact h.schedule
  · refine h.modTile ?_
    split
    · rfl
    · rfl

theorem State.MemOk.nibPut {ns : List Nib} {g : Nat} (h : s.MemOk) : (s.nibPut t ns g).MemOk := by
  dsimp only [State.nibPut]
  split
  · exact h.padPut.rindEvents
  · exact h.padPut

theorem State.MemOk.padWrite {ws : List GWrite} {nibs : List Nib} {rows : List Nat} (h : s.MemOk) :
    (s.padWrite t ws nibs rows).MemOk := (h.padPut.foldl (fun _ hs _ _ => hs.nibPut)).modTile (by rfl)

theorem State.MemOk.tagWrite {row : Nat} {tag : Byte} (h : s.MemOk) : (s.tagWrite t row tag).MemOk := h.modTile (by rfl)

theorem State.MemOk.padRows {lim : Nat} {rows : List Nat} {ws : List GWrite} {nibs : List Nib} (h : s.MemOk) :
    (s.padRows lim rows ws nibs).MemOk := h.foldl (fun _ hs _ _ => (hs.onTile (by rfl)).schedule)

theorem State.MemOk.retryPorts {row : Nat} {ev : Ev} (h : s.MemOk) : (s.retryPorts t row ev).MemOk := (h.modTile (by rfl)).schedule

theorem State.MemOk.atomicLost {id row : Nat} {ev : Ev} (h : s.MemOk) : (s.atomicLost t id row ev).MemOk := by
  unfold State.atomicLost
  extract_lets x s1
  split
  · exact h.modTile (by rfl)
  · split
    · exact h.retryPorts.modTile (by rfl)
    · exact h.retryPorts

theorem State.MemOk.padAtomic {id type op addr v cmp : Nat} {acq : Bool} (h : s.MemOk) :
    (s.padAtomic t id type op addr v cmp acq).MemOk := by
  dsimp only [State.padAtomic]
  split
  · exact (h.acquireLate.modTile (by rfl)).modTile (by rfl)
  · refine State.MemOk.modTile ?_ (by rfl)
    split
    · exact (h.acquireLate.modTile (by rfl)).padPut
    · exact h.acquireLate.modTile (by rfl)

theorem State.MemOk.padInject {row act mask pat : Nat} (h : s.MemOk) : (s.padInject t row act mask pat).MemOk :=
  memOk_modTile t _ (fun hw => List.foldlRecOn _ _ (motive := fun m : Store => Memory.wf m) hw fun m hm _ _ => setGran_wf m _ _ hm) h

theorem State.MemOk.outlierWrites {addr : Nat} {entries rows : List Nat} (h : s.MemOk) : (s.outlierWrites addr entries rows).MemOk := by
  dsimp only [State.outlierWrites]
  refine h.foldl (fun _ hs _ _ => ?_)
  split
  · exact hs
  · exact (hs.onTile (by rfl)).schedule

theorem State.MemOk.matrixCycle (h : s.MemOk) : (s.matrixCycle t).MemOk := by
  unfold State.matrixCycle
  extract_lets x
  split
  · exact h
  · exact memOk_setTile t _ (matrixStep_wf _ (h.2.1 t)) h

theorem State.MemOk.mxRow {row : Nat} {v : Reg 32} (h : s.MemOk) : (s.mxRow t row v).MemOk := h.padPut

theorem State.MemOk.mxrestRow {row j : Nat} {got : List (Reg 32)} (h : s.MemOk) : (s.mxrestRow t row j got).MemOk := by
  dsimp only [State.mxrestRow]
  split
  · exact h.schedule
  · refine h.modTile ?_
    split
    · exact putQueue_pad _
    · rfl

theorem State.MemOk.tileCycle (h : s.MemOk) : (s.tileCycle t).MemOk := by
  unfold State.tileCycle
  split
  · exact h
  · exact (h.tileLand.modTile beginDue_pad).tileTrap

theorem State.MemOk.transfer {t : Word} (h : s.MemOk) : (s.transfer t).MemOk := h.onTile (by rfl)

theorem State.MemOk.link (h : s.MemOk) : s.link.MemOk := h.land

end Sys2Proof.Machine
end

section
/-! SUPPORT. O59: the state operations of L1, L2, the copy engines and the bindings keep memory in canonical form. -/

namespace Sys2Proof.Machine

variable {s : State} {t : Tid}

theorem State.MemOk.allocLine {line : Nat} (h : s.MemOk) : (s.allocLine t line).2.MemOk := by
  dsimp only [State.allocLine]
  split
  · dsimp only
    exact h.modTile (by rfl)
  · dsimp only
    split
    · exact h.relinquishLine.modTile (by rfl)
    · exact (h.modTile (by rfl)).schedule

theorem State.MemOk.lineSlot {line : Nat} (h : s.MemOk) : (s.lineSlot t line).2.MemOk := by
  unfold State.lineSlot
  split
  · exact h
  · exact h.allocLine

theorem State.MemOk.l1Leave {line : Nat} (h : s.MemOk) : (s.l1Leave t line).MemOk := by
  unfold State.l1Leave
  split
  · exact h
  · split
    · exact h
    · exact h.writeBackLine.relinquishLine.modTile (by rfl)

theorem State.MemOk.revoke {u : Tid} {word : Nat} (h : s.MemOk) : (s.revoke u word).MemOk := by
  dsimp only [State.revoke]
  split
  · exact h.same (by rfl)
  · exact (h.same (by rfl)).memWrites.modTile (by rfl)

theorem State.MemOk.takeWord {word : Nat} (h : s.MemOk) : (s.takeWord word).MemOk := by
  unfold State.takeWord
  split
  · exact h
  · exact h.revoke

theorem State.MemOk.planTake {word : Nat} (h : s.MemOk) : (s.planTake word).MemOk := by
  dsimp only [State.planTake]
  split
  · exact h
  · exact h.plan

theorem State.MemOk.l2Evict {line : Nat} (h : s.MemOk) : (s.l2Evict line).MemOk := h.foldl (fun _ hs _ _ => hs.planTake)

theorem State.MemOk.l2Take {words : List Nat} (h : s.MemOk) : (s.l2Take t words).MemOk := (h.foldl (fun _ hs _ _ => hs.planTake)).schedule

theorem State.MemOk.wordsBack {words : List Nat} (h : s.MemOk) : (s.wordsBack t words).MemOk := by
  dsimp only [State.wordsBack]
  split
  · exact h
  · exact h.memWrites.modTile (by rfl)

theorem State.MemOk.grantDue {word : Nat} (h : s.MemOk) : (s.grantDue t word).MemOk := by
  dsimp only [State.grantDue]
  split
  · exact h.schedule
  · exact h.plan

theorem State.MemOk.register {line words : Nat} (h : s.MemOk) : (s.register t line words).MemOk := by
  dsimp only [State.register, State.drawNat]
  refine h.foldl (fun _ hs _ _ => ?_)
  split
  · exact (hs.same (by rfl)).schedule
  · exact hs

theorem State.MemOk.startFill {sector : Nat} (h : s.MemOk) : (s.startFill t sector).MemOk := by
  dsimp only [State.startFill, State.drawNat]
  split
  · exact h
  · exact ((h.same (by rfl)).modTile (by rfl)).plan

theorem State.MemOk.fillSector {sec : Nat} (h : s.MemOk) : (s.fillSector t sec).MemOk := by
  unfold State.fillSector
  extract_lets p
  split
  · exact h.lineSlot
  · refine State.MemOk.rindEvents (h.lineSlot.modTile ?_)
    exact touch_pad _

theorem State.MemOk.l1Take {id : Nat} {l : PadLoad} {rd : Nat → Gran} (h : s.MemOk) : (s.l1Take t id l rd).MemOk := by
  have hk : ∀ (x : Tile) (k : Option Nat), (match k with | some k => x.touch k | none => x).pad = x.pad := by
    intro x k
    cases k with
    | some k => exact touch_pad k
    | none => rfl
  refine h.modTile ?_
  dsimp only
  split
  · exact hk _ _
  · exact hk _ _

theorem State.MemOk.l1Read {iss id : Nat} {l : PadLoad} (h : s.MemOk) : (s.l1Read t iss id l).MemOk := by
  dsimp only [State.l1Read]
  split
  · exact h
  · split
    · exact h.schedule
    · split
      · exact h.l1Take
      · split
        · exact (h.foldl (fun _ hs _ _ => hs.fillSector)).l1Take
        · exact (h.foldl (fun _ hs _ _ => hs.startFill)).schedule

theorem State.MemOk.laterT {slot cause level va req : Nat} (h : s.MemOk) : (s.laterT slot cause level va req).MemOk := h.onTile (by rfl)

theorem State.MemOk.walkOnMiss {slot va : Nat} {f : Flt} (h : s.MemOk) : (s.walkOnMiss slot va f).MemOk := by
  unfold State.walkOnMiss
  split
  · exact h.startWalk
  · exact h

theorem State.MemOk.prefetch {va : Nat} (h : s.MemOk) : (s.prefetch t va).MemOk := by
  unfold State.prefetch
  extract_lets x s1
  have h1 : s1.MemOk := by
    unfold s1
    split
    · next a _ =>
      extract_lets s2
      have h2 : s2.MemOk := by
        unfold s2
        split
        · exact h.modTile (touch_pad _)
        · exact h
      refine h2.foldl fun _ hs _ _ => ?_
      extract_lets ok
      split
      · exact hs
      · exact hs.startFill
    · exact h
  split
  · exact (h1.same (u := { s1 with free := s1.free + 1 }) rfl).plan
  · exact h1

theorem State.MemOk.gprefWait {va : Nat} (h : s.MemOk) : (s.gprefWait t va).MemOk := by
  unfold State.gprefWait
  split
  · split
    · exact h.schedule
    · exact h
  · exact h.prefetch

theorem State.MemOk.l1Write {ws : List GWrite} (h : s.MemOk) : (s.l1Write t ws).MemOk := by
  unfold State.l1Write
  split
  · exact h
  · extract_lets p
    split
    · exact h.lineSlot
    · refine State.MemOk.register (State.MemOk.rindEvents (h.lineSlot.modTile ?_))
      exact touch_pad _

theorem State.MemOk.l1Update {ws : List GWrite} (h : s.MemOk) : (s.l1Update t ws).MemOk := by
  unfold State.l1Update
  split
  · exact h
  · split
    · exact h
    · refine State.MemOk.rindEvents (h.modTile ?_)
      exact touch_pad _

theorem State.MemOk.l2Write {ws : List GWrite} (h : s.MemOk) : (s.l2Write t ws).MemOk := h.memWrites.l1Update

theorem State.MemOk.globalStore {ws : List GWrite} (h : s.MemOk) : (s.globalStore ws).MemOk := by
  unfold State.globalStore
  split
  · exact h.schedule
  · exact h.schedule

theorem State.MemOk.flushBack {line : Option Nat} (h : s.MemOk) : (s.flushBack t line).MemOk := h.foldl (fun _ hs _ _ => hs.writeBackLine)

theorem State.MemOk.l1Back {line : Option Nat} (h : s.MemOk) : (s.l1Back t line).MemOk := by
  dsimp only [State.l1Back]
  split
  · exact h.flushBack.schedule
  · exact h.flushBack

theorem State.MemOk.flushInv {line : Option Nat} (h : s.MemOk) : (s.flushInv t line).MemOk := by
  unfold State.flushInv
  refine h.foldl (fun _ hs _ _ => ?_)
  split
  · exact hs
  · exact hs.relinquishLine.modTile (by rfl)

theorem State.MemOk.l2Atomic {id type op pa v cmp : Nat} {acq : Bool} (h : s.MemOk) : (s.l2Atomic t id type op pa v cmp acq).MemOk := by
  dsimp only [State.l2Atomic, State.drawNat]
  refine State.MemOk.plan (State.MemOk.same (State.MemOk.acquireLate ?_) (by rfl))
  split
  · refine State.MemOk.event ?_
    split
    · exact h.memWrites.l1Update
    · exact h
  · split
    · exact h.memWrites.l1Update
    · exact h

theorem State.MemOk.memReduce {v : Option Tid} {op t pa new : Nat} {bad : Bool} (h : s.MemOk) :
    (s.memReduce v op t pa new bad).MemOk := by
  dsimp only [State.memReduce]
  split
  · exact (h.foldl (fun _ hs _ _ => hs.memWrite)).event
  · exact h.foldl (fun _ hs _ _ => hs.memWrite)

theorem State.MemOk.rowsGone {rows late : List Nat} (h : s.MemOk) : (s.rowsGone rows late).MemOk := by
  dsimp only [State.rowsGone]
  refine h.foldl (fun _ hs _ _ => hs.modTile ?_)
  split
  · rfl
  · rfl

theorem State.MemOk.cancelRuns {nest cn : Nat} (h : s.MemOk) :
    (s.cancelRuns t nest cn).MemOk := (h.foldl (fun _ hs _ _ => hs.rowsGone)).modTile (by rfl)

theorem State.MemOk.copyStop {e : Bool} {nest cn issue : Nat} {pc : Word} {cls low : BitVec 4} {info : Nat} (h : s.MemOk) :
    (s.copyStop t e nest cn issue pc cls low info).MemOk := by
  dsimp only [State.copyStop]
  refine h.cancelRuns.modTile ?_
  split
  · split
    · rfl
    · rfl
  · split
    · rfl
    · rfl

theorem State.MemOk.runStop {r : CopyRun} {cls low : BitVec 4} {info : Nat} (h : s.MemOk) :
    (s.runStop t r cls low info).MemOk := h.copyStop

theorem State.MemOk.runStopS {r : CopyRun} {sub : Nat} (h : s.MemOk) : (s.runStopS t r sub).MemOk := h.runStop

theorem State.MemOk.stamp {rows : List Nat} {tag : Byte} (h : s.MemOk) : (s.stamp rows tag).MemOk := h.foldl (fun _ hs _ _ => hs.modTile (by rfl))

theorem State.MemOk.runDone {r : CopyRun} (h : s.MemOk) : (s.runDone t r).MemOk := by
  dsimp only [State.runDone]
  split
  · exact (h.modTile (by rfl)).stamp.modTile (by rfl)
  · exact h.modTile (by rfl)

theorem State.MemOk.copyRow {r : CopyRun} {k : Nat} (h : s.MemOk) : (s.copyRow t r k).MemOk := by
  dsimp only [State.copyRow]
  split
  · refine State.MemOk.runDone (State.MemOk.modTile (State.MemOk.rowsGone ?_) (by rfl))
    split
    · exact h.padPut.rindEvents.stamp
    · exact h.padPut.rindEvents
  · refine State.MemOk.modTile (State.MemOk.modTile (State.MemOk.rowsGone ?_) (by rfl)) (by rfl)
    split
    · exact h.padPut.rindEvents.stamp
    · exact h.padPut.rindEvents

theorem State.MemOk.planQueue {u : Tid} {e : Bool} (h : s.MemOk) : (s.planQueue t u e).MemOk := h.plan

theorem State.MemOk.copyPut {r : CopyRun} {k : Nat} (h : s.MemOk) : (s.copyPut t r k).MemOk := by
  dsimp only [State.copyPut]
  split
  · split
    · exact (h.modTile (by rfl)).runStopS
    · refine State.MemOk.modTile ?_ (by rfl)
      split
      · exact h.modTile (by rfl)
      · exact (h.modTile (by rfl)).planQueue
  · exact h.copyRow

theorem State.MemOk.copyDst {id k : Nat} (h : s.MemOk) : (s.copyDst t id k).MemOk := by
  dsimp only [State.copyDst, State.drawNat, State.drawBit]
  split
  · exact h
  · split
    · exact h
    · split
      · split
        · split
          · exact (((h.same (by rfl)).modTile (by rfl)).modTile (by rfl)).plan
          · exact (h.same (by rfl)).copyPut
        · exact h.copyPut
      · split
        · split
          · exact (((h.same (by rfl)).modTile (by rfl)).modTile (by rfl)).plan
          · exact (h.same (by rfl)).copyPut
        · exact h.copyPut

theorem State.MemOk.queueRows {u : Tid} {e : Bool} (l : List (Nat × Nat)) (seen : List Nat) {s : State} (h : s.MemOk) :
    (s.queueRows t u e l seen).MemOk := by
  induction l generalizing s seen with
  | nil => exact h
  | cons p l ih =>
    unfold State.queueRows
    extract_lets bank s1
    have h1 : s1.MemOk := h.modTile (by rfl)
    split
    · exact ih _ h
    · split
      · exact ih _ h
      · split
        · exact ih _ h1
        · exact ih _ h1.copyRow

theorem State.MemOk.planRead {u : Tid} {e : Bool} (h : s.MemOk) : (s.planRead t u e).MemOk := h.plan

theorem State.MemOk.readHead {e : Bool} (l : List (Nat × Nat × Nat)) (h : s.MemOk) : (s.readHead t e l).MemOk := by
  induction l with
  | nil => exact h.modTile (by rfl)
  | cons p l ih =>
    unfold State.readHead
    extract_lets x keep
    split
    · exact ih
    · extract_lets key u row rows y s1 s2
      have hk : keep.MemOk := h.modTile (by rfl)
      have h1 : s1.MemOk := h.modTile (by rfl)
      have h2 : s2.MemOk := h1.modTile (by rfl)
      split
      · exact (h.modTile (by rfl)).runStopS
      · split
        · exact hk.planRead
        · split
          · exact (hk.modTile (by rfl)).planRead
          · split
            · exact (h.modTile (by rfl)).runStopS
            · split
              · exact h2
              · exact h2.planRead

theorem State.MemOk.copySrc {id k : Nat} (h : s.MemOk) : (s.copySrc t id k).MemOk := by
  unfold State.copySrc
  split
  · exact h
  · extract_lets q s1
    have h1 : s1.MemOk := h.modTile (by rfl)
    split
    · exact h1.readHead _
    · exact h1

theorem State.MemOk.copySlide {r : CopyRun} (h : s.MemOk) : (s.copySlide t r).MemOk := (h.same (by rfl)).modTile (by rfl)

theorem State.MemOk.copyAgain {r : CopyRun} (h : s.MemOk) : (s.copyAgain t r).MemOk := by
  dsimp only [State.copyAgain]
  split
  · exact h.cancelRuns.modTile (by rfl)
  · exact h.copySlide.schedule

theorem State.MemOk.copyL2Read {id : Nat} (h : s.MemOk) : (s.copyL2Read t id).MemOk := by
  dsimp only [State.copyL2Read]
  split
  · exact h
  · split
    · exact h.runStop
    · split
      · exact h.modTile (by rfl)
      · split
        · exact h.runStopS
        · exact (h.foldl (fun _ hs _ _ => hs.startWalkFor)).copyAgain

theorem State.MemOk.copyPerform {id : Nat} (h : s.MemOk) : (s.copyPerform t id).MemOk := by
  dsimp only [State.copyPerform]
  split
  · exact h
  · split
    · refine (h.modTile (by rfl)).foldl (fun _ hs _ _ => ?_)
      split
      · refine State.MemOk.memWrite ?_
        split
        · split
          · exact hs.rindEvents
          · exact hs
        · split
          · exact hs.rindEvents
          · exact hs
      · split
        · split
          · exact hs.rindEvents
          · exact hs
        · split
          · exact hs.rindEvents
          · exact hs
    · exact (h.modTile (by rfl)).foldl (fun _ hs _ _ => hs.memReduce)

theorem State.MemOk.addDemand {n : Nat} (h : s.MemOk) : (s.addDemand n).MemOk := h.same (by rfl)

theorem State.MemOk.launchCopy {e : Bool} {g : CopyEngine} (h : s.MemOk) : (s.launchCopy t e g).MemOk := by
  unfold State.launchCopy
  extract_lets x k b lat key src dst last rowmap g' s1
  have h1 : s1.MemOk := h.modTile (by rfl)
  split
  · exact h1
  · simp only [State.newId]
    have h2 : ({ s1 with nextId := s1.nextId + 1 } : State).MemOk := h1.same (by rfl)
    have h3 := fun r => h2.modTile (t := t) (f := fun x => { x with copies := x.copies ++ [r] }) rfl
    have h4 := fun r => (h3 r).foldl (l := dst) (f := fun s k => s.modTile (tid (k / 8192)) fun x => x.addPend [k % 8192])
      fun _ hs _ _ => hs.modTile (by rfl)
    split
    · exact ((h4 _).foldl fun _ hs _ _ => hs.schedule).foldl fun _ hs _ _ => hs.schedule
    · split
      · exact (((h4 _).foldl fun _ hs _ _ => hs.schedule).foldl fun _ hs _ _ => hs.schedule).addDemand.schedule
      · exact (((h4 _).foldl fun _ hs _ _ => hs.schedule).foldl fun _ hs _ _ => hs.schedule).addDemand.schedule.schedule

theorem State.MemOk.copyWait {e : Bool} {g : CopyEngine} {ps : List Nat} (h : s.MemOk) :
    (s.copyWait t e g ps).MemOk := (h.foldl (fun _ hs _ _ => hs.startWalk)).modTile (by rfl)

theorem State.MemOk.emitEmpty {e : Bool} {g : CopyEngine} (h : s.MemOk) : (s.emitEmpty t e g).MemOk := by
  dsimp only [State.emitEmpty]
  split
  · exact (h.modTile (by rfl)).copyStop
  · exact h.modTile (by rfl)

theorem State.MemOk.copyEmit {e : Bool} (h : s.MemOk) : (s.copyEmit t e).MemOk := by
  dsimp only [State.copyEmit]
  split
  · exact h.modTile (by rfl)
  · split
    · exact h.copyStop
    · split
      · exact h.copyStop
      · split
        · exact h.emitEmpty
        · split
          · split
            · exact h.launchCopy
            · exact h.copyWait
          · split
            · exact h.launchCopy
            · exact h.copyWait

theorem State.MemOk.copyAhead {e : Bool} (n : Nat) {s : State} (h : s.MemOk) : (s.copyAhead t e n).MemOk := by
  induction n generalizing s with
  | zero => exact h
  | succ n ih =>
    unfold State.copyAhead
    extract_lets x g s1
    have h1 : s1.MemOk := by
      refine h.foldl fun _ hs _ _ => ?_
      split
      · exact hs.startWalkFor
      · split
        · exact hs.modTile (by rfl)
        · exact hs
    split
    · exact ih (h1.modTile (by rfl))
    · exact h

theorem State.MemOk.armCopy {e : Bool} {start : Nat} {g : CopyEngine} (h : s.MemOk) : (s.armCopy e start g).MemOk := by
  unfold State.armCopy
  extract_lets x g' s1
  have h1 : s1.MemOk := (h.onTile (by rfl)).copyAhead _
  split
  · exact h1.copyEmit
  · exact h1

theorem State.MemOk.freshCopy {e : Bool} {start : Nat} {c : CopyCfg} (h : s.MemOk) : (s.freshCopy e start c).MemOk := (h.same (by rfl)).armCopy

theorem State.MemOk.pinLog {ps : List TlbEnt} (h : s.MemOk) : (s.pinLog ps).MemOk := h.foldl (fun _ hs _ _ => hs.walkLog)

theorem State.MemOk.bind {id : Nat} {record : BitVec 768} {pdom : BitVec 16} (h : s.MemOk) : (s.bind t id record pdom).MemOk := by
  dsimp only [State.bind]
  split
  · split
    · exact (h.same (by rfl)).modTile (by rfl)
    · exact h.modTile (by rfl)
  · split
    · exact h.modTile (by rfl)
    · split
      · exact h.modTile (by rfl)
      · split
        · exact h.pinLog.modTile (by rfl)
        · exact (h.pinLog.same (by rfl)).modTile (by rfl)

theorem State.MemOk.flushTiles {idn : Nat} (h : s.MemOk) : (s.flushTiles idn).MemOk := h.same (by rfl)

theorem State.MemOk.dropTiles {idn : Nat} (h : s.MemOk) : (s.dropTiles idn).MemOk := by
  unfold State.dropTiles
  refine State.MemOk.flushTiles (h.foldl fun s' hs u _ => ?_)
  simp only [State.drawBit]
  have hd : ({ s' with free := s'.free + 1 } : State).MemOk := hs.same (by rfl)
  split
  · exact hd
  · exact ⟨setGran_wf _ _ _ hd.1, (memOk_keepWas u.g hd).2⟩

theorem State.MemOk.unbind {id idn : Nat} (h : s.MemOk) : (s.unbind t id idn).MemOk := by
  dsimp only [State.unbind]
  split
  · exact h.modTile (by rfl)
  · split
    · exact (h.same (by rfl)).modTile (by rfl)
    · exact (h.same (by rfl)).flushTiles.modTile (by rfl)

theorem State.MemOk.flushBound {idn mode : Nat} (h : s.MemOk) : (s.flushBound idn mode).MemOk := by
  unfold State.flushBound
  split
  · split
    · exact h.dropTiles
    · exact h.flushTiles
  · exact h

theorem State.MemOk.unitScalar {d : BitVec 6} {lat ord : Nat} {ev : Nat → Ev} (h : s.MemOk) :
    (s.unitScalar d lat ord ev).MemOk := (h.same (by rfl)).landWaiting.schedule

end Sys2Proof.Machine
end

section
/-! SUPPORT. O59: the state operations of windows and pipes keep memory in canonical form. -/

namespace Sys2Proof.Machine

variable {s : State} {t : Tid}

theorem State.MemOk.arriveAt {cyc : Nat} {f : Flit} (h : s.MemOk) : (s.arriveAt cyc f).MemOk := by
  dsimp only [State.arriveAt]
  split
  · exact h.plan
  · exact h.event

theorem State.MemOk.queueAt {at_ : Nat} {f : Flit} (h : s.MemOk) : (s.queueAt at_ f).MemOk := by
  dsimp only [State.queueAt]
  split
  · exact h.same (by rfl)
  · exact h.same (by rfl)
  · exact h.same (by rfl)

theorem State.MemOk.leave {f : Flit} (h : s.MemOk) : (s.leave f).MemOk := h.same (by rfl)

theorem State.MemOk.toHost {f : Flit} (h : s.MemOk) : (s.toHost f).MemOk := by
  refine State.MemOk.leave (h.foldl fun s' hs j _ => ?_)
  extract_lets v s1
  have h1 : s1.MemOk := by
    unfold s1
    split
    · exact hs.event
    · exact hs
  exact h1.same (by rfl)

theorem State.MemOk.sendFlit {f : Flit} (h : s.MemOk) : (s.sendFlit f).MemOk := by
  dsimp only [State.sendFlit]
  split
  · exact h.arriveAt
  · split
    · exact h.toHost
    · split
      · exact h.queueAt
      · exact h.leave

theorem State.MemOk.notify {rank opn lvl code : Nat} (h : s.MemOk) : (s.notify rank opn lvl code).MemOk := h.schedule

theorem State.MemOk.modHandle {h : Nat} {f : Handle → Handle} (hok : s.MemOk) : (s.modHandle t h f).MemOk := hok.modTile (by rfl)

theorem State.MemOk.modOp {seq : Nat} {f : OpRec → OpRec} (h : s.MemOk) : (s.modOp seq f).MemOk := h.same (by rfl)

theorem State.MemOk.opLevel {seq lvl : Nat} (h : s.MemOk) : (s.opLevel seq lvl).MemOk := by
  dsimp only [State.opLevel]
  split
  · exact h
  · split
    · exact h
    · split
      · exact h.plan
      · exact h.modHandle.modOp

theorem State.MemOk.dropLanding {o : OpRec} (h : s.MemOk) : (s.dropLanding o).MemOk := by
  unfold State.dropLanding
  split
  · exact h.modTile (by rfl)
  · exact h

theorem State.MemOk.opFail {seq code : Nat} (h : s.MemOk) : (s.opFail seq code).MemOk := by
  dsimp only [State.opFail]
  split
  · exact h
  · split
    · exact h
    · split
      · exact (h.same (by rfl)).plan
      · exact (h.same (by rfl)).dropLanding.modHandle.modOp

theorem State.MemOk.departOp {o : OpRec} (h : s.MemOk) : (s.departOp o).MemOk := (h.same (by rfl)).rindEvents.foldl (fun _ hs _ _ => hs.sendFlit)

theorem State.MemOk.departAll (l : List OpRec) {s : State} (h : s.MemOk) : (s.departAll l).MemOk := by
  induction l generalizing s with
  | nil => exact h
  | cons o l ih =>
    unfold State.departAll
    split
    · exact ih h.departOp
    · exact h

theorem State.MemOk.depart {rank : Nat} (h : s.MemOk) : (s.depart rank).MemOk := h.departAll _

theorem State.MemOk.requeue {o : OpRec} {g : Nat} (h : s.MemOk) : (s.requeue o g).MemOk := by
  dsimp only [State.requeue]
  split
  · exact h
  · exact h.rindEvents.same (by rfl)

theorem State.MemOk.combineAt {o : OpRec} (h : s.MemOk) : (s.combineAt o).MemOk := by
  dsimp only [State.combineAt]
  split
  · split
    · exact h.same (by rfl)
    · exact (h.same (by rfl)).modOp.requeue
  · exact h.same (by rfl)

theorem State.MemOk.opEnter {seq : Nat} (h : s.MemOk) : (s.opEnter seq).MemOk := by
  dsimp only [State.opEnter]
  split
  · exact h
  · split
    · exact h
    · split
      · exact h.schedule
      · exact h.combineAt.modOp.depart

theorem State.MemOk.opSrc {seq : Nat} (h : s.MemOk) : (s.opSrc seq).MemOk := by
  dsimp only [State.opSrc]
  split
  · exact h
  · split
    · split
      · exact (h.modTile (by rfl)).schedule
      · split
        · refine State.MemOk.schedule (State.MemOk.opLevel ?_)
          split
          · exact h.modOp
          · exact h.modOp.modTile (by rfl)
        · refine State.MemOk.schedule ?_
          split
          · exact h.modOp
          · exact h.modOp.modTile (by rfl)
    · exact h

theorem State.MemOk.landRow {seq row : Nat} {ws : List GWrite} (h : s.MemOk) : (s.landRow seq row ws).MemOk := by
  dsimp only [State.landRow]
  split
  · exact h
  · split
    · exact h
    · split
      · exact (h.modTile (by rfl)).schedule
      · split
        · refine State.MemOk.opLevel (State.MemOk.modOp ?_)
          split
          · exact h.memWrites
          · refine h.padPut.modTile ?_
            dsimp only
            split
            · rfl
            · rfl
        · refine State.MemOk.modOp ?_
          split
          · exact h.memWrites
          · refine h.padPut.modTile ?_
            dsimp only
            split
            · rfl
            · rfl

theorem State.MemOk.notice {r : Nat} (h : s.MemOk) : (s.notice r).MemOk := by
  unfold State.notice
  split
  · exact h
  · split
    · exact h
    · extract_lets code
      refine h.foldl fun u hs m _ => ?_
      split
      · exact hs.opFail
      · extract_lets s₁ byData
        have h₁ : s₁.MemOk := memOk_ite hs.modOp hs
        split
        · exact h₁
        · exact h₁.opLevel

theorem State.MemOk.letGo {seq : Nat} (h : s.MemOk) : (s.letGo seq).MemOk := by
  dsimp only [State.letGo]
  split
  · exact h
  · split
    · exact h
    · refine State.MemOk.depart (State.MemOk.modOp ?_)
      split
      · split
        · exact h.same (by rfl)
        · exact h
      · exact h

theorem State.MemOk.modWindow {win : Nat} {f : WEntry → WEntry} (h : s.MemOk) : (s.modWindow win f).MemOk := by
  unfold State.modWindow
  split
  · exact h
  · exact h.same (by rfl)

theorem State.MemOk.forget {op : Nat × Nat} (h : s.MemOk) : (s.forget op).MemOk := h.same (by rfl)

theorem State.MemOk.endRejected {f : Flit} (h : s.MemOk) : (s.endRejected f).MemOk := by
  unfold State.endRejected
  split
  · exact h.schedule
  · exact h

theorem State.MemOk.reject {f : Flit} {code : Nat} (h : s.MemOk) : (s.reject f code).MemOk := (h.same (by rfl)).modWindow.event.notify.endRejected

theorem State.MemOk.letIn {f : Flit} {read : Bool} (h : s.MemOk) : (s.letIn f read).MemOk := by
  dsimp only [State.letIn]
  split
  · split
    · exact h.modWindow.plan.notify
    · exact h.modWindow.plan.endRejected
  · split
    · exact h.modWindow.plan.notify
    · exact h.modWindow.plan.endRejected

theorem State.MemOk.checked {f : Flit} {right n : Nat} {read : Bool} (h : s.MemOk) : (s.checked f right n read).MemOk := by
  unfold State.checked
  split
  · exact h.reject
  · exact h.letIn

theorem State.MemOk.tagged {f : Flit} (h : s.MemOk) : (s.tagged f).MemOk := by
  unfold State.tagged
  extract_lets me close key drop
  have hc : ∀ {u : State}, u.MemOk → (close u).MemOk := by
    intro u hu
    unfold close
    split
    · exact hu.same (by rfl)
    · exact hu
  split
  · exact hc h.checked
  · exact hc h
  · split
    · exact h.reject
    · have hd : ∀ code, (drop code).MemOk := fun code => (hc (h.same (by rfl))).notify
      split
      · exact h.reject
      · split
        · exact hd 6
        · split
          · exact hd 7
          · exact hc (h.same (by rfl)).letIn

theorem State.MemOk.applyPut {e : WEntry} {f : Flit} (h : s.MemOk) : (s.applyPut e f).MemOk := h.foldl (fun _ hs _ _ => hs.memWrite)

theorem State.MemOk.applyAcc {e : WEntry} {f : Flit} (h : s.MemOk) : (s.applyAcc e f).MemOk := by
  dsimp only [State.applyAcc]
  refine h.foldl (fun _ hs _ _ => State.MemOk.memReduce ?_)
  split
  · exact hs.same (by rfl)
  · exact hs

theorem State.MemOk.applyGet {e : WEntry} {f : Flit} (h : s.MemOk) : (s.applyGet e f).MemOk := h.rindEvents.schedule

theorem State.MemOk.applyAmo {e : WEntry} {f : Flit} (h : s.MemOk) : (s.applyAmo e f).MemOk := by
  dsimp only [State.applyAmo]
  refine State.MemOk.schedule ?_
  split
  · refine State.MemOk.addCounter ?_
    split
    · exact h.memWrite.event.notify
    · exact h.memWrite
  · split
    · refine State.MemOk.notify (State.MemOk.event ?_)
      split
      · exact h.memWrite
      · exact h
    · split
      · exact h.memWrite
      · exact h

theorem State.MemOk.visibleNotice {f : Flit} (h : s.MemOk) : (s.visibleNotice f).MemOk := by
  dsimp only [State.visibleNotice]
  split
  · exact h
  · exact (h.same (by rfl)).notify

theorem State.MemOk.controlFails {f : Flit} {code : Nat} (h : s.MemOk) : (s.controlFails f code).MemOk := h.notify

theorem State.MemOk.postEnd {win : Nat} (h : s.MemOk) : (s.postEnd win).MemOk := by
  unfold State.postEnd
  split
  · exact h
  · split
    · exact h.modWindow.foldl (fun _ hs _ _ => hs.opLevel)
    · exact h

theorem State.MemOk.planFence {win : Nat} (h : s.MemOk) : (s.planFence win).MemOk := by
  unfold State.planFence
  split
  · exact h
  · split
    · exact h.schedule
    · exact h

theorem State.MemOk.fenceEnd {win : Nat} (h : s.MemOk) : (s.fenceEnd win).MemOk := by
  dsimp only [State.fenceEnd]
  split
  · exact h
  · split
    · exact h
    · refine ((h.modWindow.same (by rfl)).foldl (fun _ hs _ _ => ?_)).planFence
      split
      · split
        · exact hs.schedule
        · exact hs
      · exact hs.sendFlit

theorem State.MemOk.grantAll {win : Nat} (h : s.MemOk) : (s.grantAll win).MemOk := by
  dsimp only [State.grantAll]
  split
  · exact h
  · exact h.modWindow.foldl (fun _ hs _ _ => hs.schedule)

theorem State.MemOk.wpost {seq : Nat} (h : s.MemOk) : (s.wpost seq).MemOk := by
  dsimp only [State.wpost]
  split
  · exact h
  · split
    · exact h.opFail
    · split
      · exact h.opFail
      · refine (h.modWindow.foldl (fun _ hs _ _ => ?_)).opLevel
        split
        · exact hs.sendFlit
        · exact hs

theorem State.MemOk.wdone {seq : Nat} (h : s.MemOk) : (s.wdone seq).MemOk := by
  unfold State.wdone
  split
  · exact h
  · split
    · exact h.opFail
    · split
      · exact h.opFail
      · split
        · exact h.modWindow.opLevel
        · split
          · exact h.opLevel
          · exact h.opFail

theorem State.MemOk.wcreate {id : Nat} {desc : BitVec 256} {pdom : BitVec 16} (h : s.MemOk) : (s.wcreate t id desc pdom).MemOk := by
  dsimp only [State.wcreate]
  split
  · exact h.modTile (by rfl)
  · split
    · exact h.modTile (by rfl)
    · split
      · exact h.pinLog.modTile (by rfl)
      · exact (h.pinLog.same (by rfl)).modTile (by rfl)

theorem State.MemOk.wclose {id win : Nat} {pdom : BitVec 16} {sv : Bool} (h : s.MemOk) : (s.wclose t id win pdom sv).MemOk := by
  dsimp only [State.wclose]
  split
  · exact h.modTile (by rfl)
  · split
    · exact h.modTile (by rfl)
    · refine (((h.modWindow.same (by rfl)).foldl (fun _ hs _ _ => hs.notify)).foldl (fun _ hs _ _ => hs.opFail)).foldl (fun _ hs _ _ => ?_)
      split
      · split
        · exact hs.opFail
        · exact hs
      · exact hs.notify

theorem State.MemOk.issueOp {o : OpRec} (h : s.MemOk) : (s.issueOp o).MemOk := (h.same (by rfl)).modHandle

theorem State.MemOk.startOp {o : OpRec} (h : s.MemOk) : (s.startOp o).MemOk := by
  dsimp only [State.startOp]
  split
  · exact h.issueOp.opLevel.schedule
  · exact h.issueOp.opLevel.opFail

theorem State.MemOk.openAccess {o : OpRec} (h : s.MemOk) : (s.openAccess o).MemOk := by
  dsimp only [State.openAccess]
  split
  · exact h.issueOp.opLevel.opFail
  · split
    · exact (h.issueOp.opLevel.same (by rfl)).schedule
    · exact (h.issueOp.opLevel.same (by rfl)).plan

theorem State.MemOk.remoteIssue {o : OpRec} (h : s.MemOk) : (s.remoteIssue o).MemOk := by
  dsimp only [State.remoteIssue]
  split
  · refine State.MemOk.opFail (State.MemOk.issueOp ?_)
    split
    · exact h
    · exact h.markEffect
  · split
    · refine State.MemOk.startOp ?_
      split
      · split
        · exact h
        · exact h.markEffect
      · refine State.MemOk.onTile ?_ (by rfl)
        split
        · exact h
        · exact h.markEffect
    · refine State.MemOk.schedule (State.MemOk.issueOp ?_)
      split
      · exact h
      · exact h.markEffect
    · refine State.MemOk.schedule (State.MemOk.issueOp ?_)
      split
      · exact h
      · exact h.markEffect

theorem State.MemOk.hinit {h : Fin 32} (hok : s.MemOk) : (s.hinit t h).MemOk := hok.modTile (by rfl)

theorem State.MemOk.modPipe {p : Nat} {f : Pipe → Pipe} (h : s.MemOk) : (s.modPipe p f).MemOk := h.same (by rfl)

theorem State.MemOk.pipePush {p prod gen : Nat} {e : Reg 32} (h : s.MemOk) : (s.pipePush p prod gen e).MemOk := by
  dsimp only [State.pipePush]
  split
  · split
    · exact h.modPipe.event
    · exact h.modPipe.modPipe
  · exact h.event

theorem State.MemOk.pipeMark {p prod gen : Nat} (h : s.MemOk) : (s.pipeMark p prod gen).MemOk := by
  dsimp only [State.pipeMark]
  split
  · exact h.modPipe
  · exact h.event

theorem State.MemOk.pipeRoom {p gen : Nat} (h : s.MemOk) : (s.pipeRoom p gen).MemOk := h.modPipe

theorem State.MemOk.pbindStep {mode v : Nat} (h : s.MemOk) : (s.pbindStep mode v).2.MemOk := by
  dsimp only [State.pbindStep]
  split
  · split
    · exact h
    · split
      · exact h
      · dsimp only
        exact h.modPipe
  · split
    · exact h
    · split
      · exact h
      · dsimp only
        exact h.modPipe
  · exact h

theorem State.MemOk.pipeBind {id mode : Nat} {v : Word} (h : s.MemOk) : (s.pipeBind t id mode v).MemOk := h.pbindStep.modTile (by rfl)

theorem State.MemOk.popEntry {p : Nat} (h : s.MemOk) : (s.popEntry p).MemOk := h.modPipe.schedule

end Sys2Proof.Machine
end

section
/-! SUPPORT. O59: the state operations of tasks and casks keep memory in canonical form. -/

namespace Sys2Proof.Machine

variable {s : State} {t : Tid}

theorem State.MemOk.createTasks {recs : List (BitVec 1536)} {pdom : BitVec 16} {pri : Option Nat} {root : Bool} (h : s.MemOk) :
    (s.createTasks recs pdom pri root).2.MemOk := by
  unfold State.createTasks
  extract_lets is first es failed s1
  have he : ∀ e ∈ es, e.2.ShadowsOk := by
    intro e he
    obtain ⟨j, hj, rfl⟩ := List.mem_mapIdx.mp he
    exact (shadowsOk_nil (by rfl))
  refine (h.same (u := s1) rfl).foldl fun _ hs e hm => ?_
  clear_value failed
  cases failed with
  | some k =>
    have hq : ({ e.2 with st := .failed k } : TaskEnt).ShadowsOk := he e hm
    exact (hs.putTask hq).rootEnds.event
  | none => exact (hs.putTask (he e hm)).plan

theorem State.MemOk.tspawn {id : Nat} {recs : List (BitVec 1536)} {pdom : BitVec 16} {sv : Bool} (h : s.MemOk) :
    (s.tspawn t id recs pdom sv).MemOk := by
  dsimp only [State.tspawn]
  refine State.MemOk.modTile ?_ (by rfl)
  split
  · exact h.createTasks
  · exact h

theorem State.MemOk.noteReady (h : s.MemOk) : s.noteReady.MemOk := by
  refine h.foldl fun _ hs e he => ?_
  split
  · have hq : ({ e.2 with since := true } : TaskEnt).ShadowsOk := shadowsOk_of_mem h he
    exact (hs.putTask hq).plan
  · exact hs

theorem State.MemOk.askYield {ts : List Nat} (h : s.MemOk) : (s.askYield ts).MemOk := h.foldl (fun _ hs _ _ => hs.modTile (by rfl))

theorem State.MemOk.askFor {a : State × List Nat} {g : List (Nat × TaskEnt)} (h : a.1.MemOk) : (State.askFor a g).1.MemOk := by
  unfold State.askFor
  split
  · exact h
  · extract_lets asked
    split
    · exact State.MemOk.askYield h
    · exact h

theorem State.MemOk.requestVictims (h : s.MemOk) : s.requestVictims.MemOk := by
  unfold State.requestVictims
  extract_lets s1 pool
  exact List.foldlRecOn (motive := fun a : State × List Nat => a.1.MemOk) _ _ h.askYield fun _ ha _ _ =>
    State.MemOk.askFor ha

theorem State.MemOk.startMember {i : Nat} (h : s.MemOk) : (s.startMember i t).MemOk := by
  unfold State.startMember
  split
  · exact h
  · next e _ =>
    have hq : ({ e with st := .running, tile := some t, bypass := 0, shadows := s.makeShadows e } : TaskEnt).ShadowsOk :=
      shadowsOk_makeShadows s e
    exact ((h.putTask hq).modTile (by rfl)).prefill

theorem State.MemOk.spend {e : TaskEnt} (h : s.MemOk) : (s.spend e).MemOk := by
  unfold State.spend
  split
  · exact h
  · exact h.foldl (fun _ hs _ _ => hs.modTask (by intro _; rfl))

theorem State.MemOk.retireEntry {i : Nat} (h : s.MemOk) : (s.retireEntry i).MemOk := by
  unfold State.retireEntry
  split
  · exact h
  · next e he =>
    split
    · exact h.spend.clearTask.rootEnds
    · have hq : ({ e with st := .retired, tile := none } : TaskEnt).ShadowsOk := shadowsOk_of_task (e := e) h he
      exact (h.spend.putTask hq).rootEnds

theorem State.MemOk.retire (h : s.MemOk) : (s.retire t).MemOk := by
  dsimp only [State.retire]
  split
  · exact h
  · refine State.MemOk.retireEntry ?_
    split
    · exact h.clearL1.leaveTile.schedule
    · exact h.clearL1.leaveTile

theorem State.MemOk.switchTile {h : Shadow} (hok : s.MemOk) : (s.switchTile h).MemOk := hok.foldl (fun _ hs _ _ => hs.memWrite)

theorem State.MemOk.failPart {i : Nat} (h : s.MemOk) : (s.failPart i).MemOk := by
  dsimp only [State.failPart]
  split
  · split
    · exact h.failTask.event
    · exact h.failTask
  · exact h.failTask

theorem State.MemOk.counterWrite {k : Nat} {set_ : Bool} {v : Word} (h : s.MemOk) : (s.counterWrite k set_ v).MemOk := by
  unfold State.counterWrite
  split
  · exact h.setCounter
  · exact h.addCounter

theorem State.MemOk.counterRead {id k : Nat} (h : s.MemOk) : (s.counterRead t id k).MemOk := h.modTile (by rfl)

theorem State.MemOk.relAct {rel : Bool} (h : s.MemOk) : (s.relAct rel).MemOk := by
  unfold State.relAct
  split
  · exact h.closeCombine
  · exact h

theorem State.MemOk.teffect {v : Bool} (h : s.MemOk) : (s.teffect t v).MemOk := by
  unfold State.teffect
  split
  · exact h
  · exact h.modTask (by intro _; rfl)

theorem State.MemOk.putCaskRow {pages : SMap Nat} {va i : Nat} {v : Reg 32} (h : s.MemOk) : (s.putCaskRow pages va i v).MemOk := by
  unfold State.putCaskRow
  split
  · exact h.memWrites
  · exact h

theorem State.MemOk.setHeader {pages : SMap Nat} {va : Nat} {f : Nat × Nat} {v : Nat} (h : s.MemOk) :
    (s.setHeader pages va f v).MemOk := by
  unfold State.setHeader
  split
  · exact h.memWrites
  · exact h

theorem State.MemOk.capture (h : s.MemOk) : (s.capture t).MemOk := h.modTile (capture_pad _)

theorem State.MemOk.endR203 (h : s.MemOk) : (s.endR203 t).MemOk := by
  unfold State.endR203
  split
  · exact h.clearL1
  · exact h

theorem State.MemOk.caskSections {row : Nat} (h : s.MemOk) : (s.caskSections t row).MemOk := by
  unfold State.caskSections
  extract_lets s₁ x
  have h₁ : s₁.MemOk := h.endR203
  split
  · split
    · exact h₁
    · extract_lets img u s₂ s₃
      have h₂ : s₂.MemOk := memOk_ite (h₁.modTile (by rfl)) h₁
      have h₃ : s₃.MemOk := by
        unfold s₃
        split
        · exact memOk_ite h₂ h₂.putCaskRow
        · exact h₂
      exact memOk_ite h₃.schedule h₃
  · exact h₁

theorem State.MemOk.anchorOps {u : Susp} (h : s.MemOk) : (s.anchorOps t u).MemOk := h.same (by rfl)

theorem State.MemOk.entrySuspended {u : Susp} (h : s.MemOk) : (s.entrySuspended t u).MemOk := by
  unfold State.entrySuspended
  split
  · exact h
  · exact (h.modTask (by intro _; rfl)).schedule

theorem State.MemOk.gangHeader {g : Nat} {ms : List (Tid × TaskEnt × Susp)} (h : s.MemOk) : (s.gangHeader g ms).MemOk := by
  dsimp only [State.gangHeader]
  split
  · exact h
  · exact ((h.putCaskRow.foldl (fun _ hs _ _ => hs.putCaskRow)).same (by rfl)).foldl (fun _ hs _ _ => hs.entrySuspended)

theorem State.MemOk.tileFree (h : s.MemOk) : (s.tileFree t).MemOk := by
  unfold State.tileFree
  split
  · exact State.MemOk.same (s := (s.clearL1 t).modTile t Tile.vacate) (h.clearL1.modTile rfl) rfl
  · exact h

theorem State.MemOk.lowerOutst {pages : SMap Nat} {va : Nat} (h : s.MemOk) : (s.lowerOutst pages va).MemOk := by
  dsimp only [State.lowerOutst]
  split
  · exact h.setHeader.setHeader
  · exact h.setHeader

theorem State.MemOk.caskHandle {a : Anchor} {h : Nat} {f : Handle → Handle} (hok : s.MemOk) : (s.caskHandle a h f).MemOk := by
  dsimp only [State.caskHandle]
  split
  · exact hok.memWrites
  · exact hok

theorem State.MemOk.restoreHeld {pages : SMap Nat} {va h : Nat} (hok : s.MemOk) : (s.restoreHeld pages va h t).MemOk := by
  dsimp only [State.restoreHeld]
  split
  · exact hok
  · refine hok.foldl (fun _ hs _ _ => ?_)
    split
    · exact hs.same (by rfl)
    · exact hs.same (by rfl)

theorem State.MemOk.restoreTile {i va : Nat} {pdom : BitVec 16} {home : Bool} (h : s.MemOk) : (s.restoreTile t i va pdom home).MemOk := by
  unfold State.restoreTile
  extract_lets h0 pages off c x0 x1 x2 x3 gid x4 w3 x5 x6 x7 hs x8 eng x9 x10 x11 f s1 s2
  have h9 : x9.pad = (s.tileAt t).pad :=
    calc x9.pad = x8.pad := (setEngine_pad _ _).trans (setEngine_pad _ _)
      _ = x7.pad := putHandles_pad _
      _ = x6.pad := putInflight_pad _
      _ = x5.pad := putCycle_pad _ _ _ _
      _ = x4.pad := setSt_pad stTDL true
      _ = x3.pad := ite_pad rfl ((setSreg_pad _ _ _).trans (setSreg_pad _ _ _))
      _ = x2.pad := putSregs_pad _
      _ = x1.pad := restoreRegs_pad s pages va (off 0) (off 1)
      _ = (s.tileAt t).pad := resume_pad i
  have hw : Memory.wf x9.pad := by
    rw [h9]
    exact h.2.1 t
  have h11 : Memory.wf x11.pad := restoreTrap_pad (x := x10) s pages va h0 ▸ restoreMatrix_wf s pages va h0 x9 hw
  have hs2 : s2.MemOk := memOk_setTile t x11 h11 (h.same (u := s1) rfl).walkLogs
  exact (hs2.modTask (by intro _; rfl)).restoreHeld.setHeader.prefill

theorem State.MemOk.captureGang {ts : List Tid} (h : s.MemOk) : (s.captureGang ts).MemOk := by
  unfold State.captureGang
  extract_lets lead
  refine h.foldl fun _ hs _ _ => ?_
  split
  · exact hs
  · refine State.MemOk.capture (hs.modTile ?_)
    dsimp only
    exact tick_pad

theorem State.MemOk.cede (h : s.MemOk) : (s.cede t).MemOk := by
  unfold State.cede
  split
  · exact h
  · split
    · extract_lets g s1
      have h1 : s1.MemOk := h.foldl fun _ hs _ _ => hs.modTask (by intro _; rfl)
      exact (h1.same (u := { s1 with spawns := s1.spawns + 1 }) rfl).askYield
    · exact h

theorem State.MemOk.claimed {c : Claim} {h : Nat} (hok : s.MemOk) : (s.claimed c h).2.MemOk := by
  dsimp only [State.claimed]
  split
  · split
    · exact hok.setHeader.modTask (by intro _; rfl)
    · exact hok.setHeader
  · split
    · exact hok.setHeader.modTask (by intro _; rfl)
    · exact hok.setHeader

theorem State.MemOk.claimEnd (h : s.MemOk) : (s.claimEnd t).MemOk := by
  unfold State.claimEnd
  refine h.modTile ?_
  split
  · rfl
  · rfl

theorem State.MemOk.beginRestore {i : Nat} {c : Claim} {at_ : Nat} (h : s.MemOk) : (s.beginRestore t i c at_).MemOk := (h.modTile (by rfl)).plan

theorem State.MemOk.handOver {i : Nat} {e : TaskEnt} {c : Claim} (h : s.MemOk) : (s.handOver t i e c).MemOk := by
  unfold State.handOver
  split
  · split
    · split
      · next q _ =>
        refine h.foldl fun _ hs m hm => ?_
        split
        · have hq : ({ m.2 with st := .ready, startAt := none } : TaskEnt).ShadowsOk := shadowsOk_of_mem h (List.mem_of_mem_filter hm)
          exact hs.putTask hq
        · exact hs
      · exact h
    · exact h.same (by rfl)
  · split
    · exact h.beginRestore
    · extract_lets s1 s2
      have h1 : s1.MemOk := by
        unfold s1
        split
        · next q j l hq _ => exact h.putTask (shadowsOk_of_task h hq)
        · exact h
      have h2 : s2.MemOk := h1.putTask (shadowsOk_nil (by rfl))
      exact (h2.same (u := { s2 with spawns := s2.spawns + 1 }) rfl).beginRestore

theorem State.MemOk.startCasks {ms : List ((Nat × TaskEnt) × Tid)} (hm : ∀ m ∈ ms, m.1.2.ShadowsOk) (h : s.MemOk) :
    (s.startCasks ms).MemOk := by
  unfold State.startCasks
  split
  · extract_lets cs at_
    refine h.foldl fun s' hs c hc => ?_
    obtain ⟨m, hmem, rfl⟩ := List.mem_map.mp hc
    extract_lets e s1
    have h1 : s1.MemOk := by
      unfold s1
      split
      · exact hs.setHeader
      · exact hs
    have hq : ({ m.1.2 with st := .running, tile := some m.2, bypass := 0, pre := false } : TaskEnt).ShadowsOk := hm m hmem
    exact (h1.putTask hq).beginRestore
  · exact h.foldl fun _ hs _ _ => hs.modTask (by intro _; rfl)

theorem State.MemOk.startGang {g : List (Nat × TaskEnt)} {ts : List Nat} (hg : ∀ e ∈ g, e.2.ShadowsOk) (h : s.MemOk) :
    (s.startGang g ts).MemOk := by
  unfold State.startGang
  extract_lets ms
  split
  · exact h.foldl fun _ hs _ _ => hs.startMember
  · exact h.startCasks fun m hm => hg m.1 (List.of_mem_zip hm).1

theorem State.MemOk.enterGang (h : s.MemOk) : s.enterGang.MemOk := by
  unfold State.enterGang
  split
  · exact h
  · extract_lets pages n is
    split
    · exact h
    · refine (h.same (by rfl)).foldl fun _ hs m hm => hs.putTask ?_
      obtain ⟨j, hj, rfl⟩ := List.mem_mapIdx.mp hm
      exact (shadowsOk_nil (by rfl))

theorem State.MemOk.caskdup {id src dst : Nat} {pdom : BitVec 16} {sv : Bool} {iss : Nat} (h : s.MemOk) :
    (s.caskdup t id src dst pdom sv iss).MemOk := by
  dsimp only [State.caskdup]
  split
  · exact h.walkLogs.schedule
  · split
    · exact h.walkLogs.schedule
    · split
      · exact h.walkLogs.schedule
      · split
        · exact h.walkLogs.schedule
        · split
          · exact h.walkLogs.schedule
          · split
            · exact h.walkLogs.schedule
            · exact (h.walkLogs.same (by rfl)).schedule.plan

theorem State.MemOk.dupRow {id row : Nat} (h : s.MemOk) : (s.dupRow id row).MemOk := by
  dsimp only [State.dupRow]
  split
  · exact h
  · split
    · exact h
    · exact h.putCaskRow.schedule

theorem State.MemOk.giveUp {v : Nat} (h : s.MemOk) : (s.giveUp v).MemOk := by
  dsimp only [State.giveUp]
  refine State.MemOk.schedule ?_
  split
  · split
    · exact (h.same (by rfl)).same (by rfl)
    · exact h.same (by rfl)
  · split
    · exact (h.same (by rfl)).same (by rfl)
    · exact h.same (by rfl)

theorem State.MemOk.discardHome {pages : SMap Nat} {va h : Nat} (hok : s.MemOk) : (s.discardHome pages va h).MemOk := by
  dsimp only [State.discardHome]
  split
  · split
    · split
      · exact hok.failTask
      · exact hok
    · exact hok
  · refine State.MemOk.foldl ?_ (fun _ hs _ _ => hs.giveUp)
    split
    · split
      · exact hok.failTask
      · exact hok
    · exact hok

theorem State.MemOk.caskdisc {id va : Nat} {pdom : BitVec 16} {sv : Bool} (h : s.MemOk) : (s.caskdisc t id va pdom sv).MemOk := by
  unfold State.caskdisc
  extract_lets s₁ pages c st s₂ all s₃ s₄
  have h₁ : s₁.MemOk := h.walkLogs
  have h₂ : s₂.MemOk := h₁.setHeader
  have h₃ : s₃.MemOk := h₂.discardHome
  have h₄ : s₄.MemOk := by
    refine memOk_ite h₁ (memOk_ite h₂ (memOk_ite h₃ ?_))
    exact h₃.foldl fun _ hs _ _ => hs.discardHome
  exact h₄.modTile (by rfl)

theorem State.MemOk.caskq {id va : Nat} {pdom : BitVec 16} {sv : Bool} (h : s.MemOk) :
    (s.caskq t id va pdom sv).MemOk := h.walkLogs.modTile (by rfl)

end Sys2Proof.Machine
end

section
/-! SUPPORT. O59: the state operations of collectives, the fabric and the host keep memory in canonical form. -/

namespace Sys2Proof.Machine

variable {s : State} {t : Tid}

theorem State.MemOk.raiseM {low : BitVec 4} {info : Word} (h : s.MemOk) : (s.raiseM t low info).MemOk := by
  dsimp only [State.raiseM, State.drawNat]
  refine (h.same (by rfl)).modTile ?_
  split
  · rfl
  · rfl

theorem State.MemOk.portM {p : Nat} {low : BitVec 4} {ts : List Tid} (h : s.MemOk) :
    (s.portM p low ts).MemOk := h.event.foldl (fun _ hs _ _ => hs.raiseM)

theorem State.MemOk.planRestart (h : s.MemOk) : s.planRestart.MemOk := by
  dsimp only [State.planRestart]
  refine h.foldl (fun _ hs _ _ => ?_)
  split
  · exact hs
  · exact hs.plan

theorem State.MemOk.restartTiles {ts : List Tid} {timed : Bool} (h : s.MemOk) :
    (s.restartTiles ts timed).MemOk := h.captureGang.foldl (fun _ hs _ _ => hs.modTile (restart_pad _))

theorem State.MemOk.modColl {opn : Nat} {f : CollRec → CollRec} (h : s.MemOk) : (s.modColl opn f).MemOk := h.same (by rfl)

theorem State.MemOk.collSend {rank : Nat} {m : CollMsg} (h : s.MemOk) : (s.collSend rank m).MemOk := by
  dsimp only [State.collSend]
  split
  · split
    · exact h.plan
    · exact h.plan
    · exact h.plan
    · exact h.plan
    · exact h.plan
  · exact h.same (by rfl)

theorem State.MemOk.modPort {p : Fin 9} {f : Port → Port} (h : s.MemOk) : (s.modPort p f).MemOk := h.same (by rfl)

theorem State.MemOk.serveGrants (n : Nat) {s : State} (h : s.MemOk) : (State.serveGrants n s).MemOk := by
  induction n generalizing s with
  | zero => exact h
  | succ n ih =>
    unfold State.serveGrants
    split
    · exact h
    · split
      · exact ih (h.same (by rfl))
      · extract_lets s1
        have h1 : s1.MemOk := (h.same (by rfl)).modColl.foldl fun _ hs _ _ => hs.modPort
        split
        · exact h
        · exact ih h1.collSend

theorem State.MemOk.dropColl {opn : Nat} (h : s.MemOk) : (s.dropColl opn).MemOk := by
  unfold State.dropColl
  split
  · exact h
  · exact (h.same (by rfl)).serveGrants _

theorem State.MemOk.failColl {opn code : Nat} (h : s.MemOk) : (s.failColl opn code).MemOk := by
  unfold State.failColl
  split
  · exact h
  · exact h.opFail.dropColl

theorem State.MemOk.finishColl {opn : Nat} (h : s.MemOk) : (s.finishColl opn).MemOk := by
  dsimp only [State.finishColl]
  split
  · exact h
  · split
    · split
      · refine State.MemOk.dropColl (State.MemOk.opLevel ?_)
        split
        · exact h.modOp
        · exact h
      · exact h.failColl
    · exact h

theorem State.MemOk.collDone {opn : Nat} {written : Bool} {code : Nat} (h : s.MemOk) :
    (s.collDone opn written code).MemOk := h.modColl.finishColl

theorem State.MemOk.collPut {c : CollRec} {src : Nat} {p : CPath} {x : Nat × Nat} {v : List Gran} (h : s.MemOk) :
    (s.collPut c src p x v).MemOk := by
  dsimp only [State.collPut]
  split
  · exact h.modWindow.event.schedule
  · exact h.rindEvents.modWindow.schedule

theorem State.MemOk.collPutAt {opn src chunk path piece : Nat} {v : List Gran} (h : s.MemOk) :
    (s.collPutAt opn src chunk path piece v).MemOk := by
  unfold State.collPutAt
  split
  · exact h
  · split
    · exact h
    · split
      · exact h
      · exact h.collPut

theorem State.MemOk.collWrite {opn win : Nat} {ws : List (Nat × Nat × Reg 32)} {poisoned : Bool} (h : s.MemOk) :
    (s.collWrite opn win ws poisoned).MemOk := by
  dsimp only [State.collWrite]
  split
  · exact h
  · exact ((h.foldl (fun _ hs _ _ => hs.applyPut)).modWindow).schedule

theorem State.MemOk.sendPart {c : CollRec} {e : Passed} {f : Flit} {late : Nat} (h : s.MemOk) : (s.sendPart c e f late).MemOk := by
  unfold State.sendPart
  extract_lets f' away s1
  have h1 : s1.MemOk := h.schedule
  split
  · exact h.modColl
  · split
    · exact h.same (by rfl)
    · split
      · exact h1
      · exact (h1.same (u := s1.drawBit.2) rfl).schedule

theorem State.MemOk.takeStep {opn chunk pi : Nat} {p : CPath} {q : CRule} {xi : Nat} {x : Nat × Nat} {hop : Nat} (h : s.MemOk) :
    (s.takeStep opn chunk pi p q xi x hop).MemOk := by
  unfold State.takeStep
  split
  · exact h
  · split
    · exact h
    · exact h
    · extract_lets r t first acc made met s₁ s₂ src put s₃ late pass s₄
      have h₂ : s₂.MemOk := h.rindEvents.modColl
      have hp : ∀ w, (put s₂ w).MemOk := fun w => memOk_ite h₂.collPut h₂.schedule
      have h₃ : s₃.MemOk := by
        unfold s₃
        split
        · exact h₂
        · exact hp _
        · exact hp _
        · exact hp _
      have h₄ : s₄.MemOk := h₃.foldl fun _ hs _ _ => hs.sendPart
      exact memOk_ite h₄.sendPart h₄

theorem State.MemOk.runChunk {opn chunk : Nat} (h : s.MemOk) : (s.runChunk opn chunk).MemOk := by
  unfold State.runChunk
  split
  · exact h
  · exact h.foldl (fun _ hs _ _ => hs.foldl (fun _ hs' _ _ => hs'.foldl (fun _ hs' _ _ => hs'.takeStep)))

theorem State.MemOk.takePart {c : CollRec} {f : Flit} {hop : Nat} (h : s.MemOk) : (s.takePart c f hop).MemOk := by
  dsimp only [State.takePart]
  split
  · exact h
  · split
    · split
      · split
        · exact h.collPutAt
        · exact h
      · exact h
    · split
      · exact h.modColl
      · split
        · exact h.modColl.takeStep
        · exact h.modColl

theorem State.MemOk.stageChunk {opn : Nat} {v : SMap Gran} (h : s.MemOk) : (s.stageChunk opn v).MemOk := by
  dsimp only [State.stageChunk]
  split
  · exact h
  · split
    · exact h.modColl.runChunk.opLevel.finishColl
    · exact h.modColl.runChunk

theorem State.MemOk.stageNext {opn : Nat} (h : s.MemOk) : (s.stageNext opn).MemOk := by
  unfold State.stageNext
  split
  · exact h
  · split
    · exact h.stageChunk
    · exact h

theorem State.MemOk.streamStage {opn : Nat} (h : s.MemOk) : (s.streamStage opn).MemOk := by
  dsimp only [State.streamStage]
  split
  · exact h
  · split
    · exact h.modColl.foldl (fun _ hs _ _ => hs.stageChunk)
    · exact h.modColl.opLevel.finishColl

theorem State.MemOk.collBegin {opn : Nat} (h : s.MemOk) : (s.collBegin opn).MemOk := h.modColl.opLevel.finishColl

theorem State.MemOk.streamSlot {p : Fin 9} {sid : Nat} (h : s.MemOk) : (s.streamSlot p sid).2.MemOk := by
  dsimp only [State.streamSlot]
  split
  · exact h
  · split
    · exact h
    · split
      · exact h
      · split
        · dsimp only
          exact h.schedule.modColl
        · split
          · dsimp only
            exact h.schedule
          · dsimp only
            exact h.schedule

theorem State.MemOk.streamTake {p : Fin 9} {c : CollRec} {m : Nat} {f : Flit} {hop : Nat} (h : s.MemOk) :
    (s.streamTake p c m f hop).MemOk := by
  dsimp only [State.streamTake]
  split
  · split
    · exact h
    · split
      · exact h
      · split
        · exact h
        · split
          · exact h.collPutAt
          · exact h.schedule
  · split
    · split
      · exact h.takePart
      · exact h
    · split
      · exact h
      · split
        · exact h
        · exact h.takePart

theorem State.MemOk.streamArrive {p : Fin 9} {sid at_ : Nat} {f : Flit} {hop : Nat} (h : s.MemOk) :
    (s.streamArrive p sid at_ f hop).MemOk := by
  unfold State.streamArrive
  split
  · exact h.streamTake
  · exact h.modPort

theorem State.MemOk.takeHeld {r : BitVec 512} (h : s.MemOk) :
    (s.takeHeld r).MemOk := h.foldl (fun _ hs _ _ => hs.modPort.foldl (fun _ hs' _ _ => hs'.streamArrive))

theorem State.MemOk.nextNum {r : BitVec 512} (h : s.MemOk) : (s.nextNum r).2.MemOk := by
  dsimp only [State.nextNum]
  exact h.same (by rfl)

theorem State.MemOk.stageVoid {opn : Nat} (h : s.MemOk) : (s.stageVoid opn).MemOk := by
  unfold State.stageVoid
  split
  · exact h
  · split
    · exact h.foldl (fun _ hs _ _ => hs.stageChunk)
    · exact h

theorem State.MemOk.collLaunch {f : CF} {r : BitVec 512} {pages : SMap Nat} (h : s.MemOk) : (s.collLaunch t f r pages).MemOk := by
  unfold State.collLaunch
  extract_lets late o s1
  have h1 : s1.MemOk := h.issueOp
  split
  · exact h1.opFail
  · split
    · exact h1.opFail
    · have h2 : (s1.nextNum r).2.MemOk := h1.nextNum
      generalize s1.nextNum r = p at h2
      obtain ⟨idn, s2⟩ := p
      dsimp -zeta only
      extract_lets own gone sends c s3 s4 s5
      have h4 : s4.MemOk := (h2.same (u := s3) rfl).collSend
      have h5 : s5.MemOk := h4.schedule
      split
      · exact h4
      · split
        · exact h5.opLevel.stageVoid.takeHeld
        · split
          · exact h5.streamStage
          · exact h5.plan

theorem State.MemOk.collStart {f : CF} {r : BitVec 512} {pc : Word} (h : s.MemOk) : (s.collStart t f r pc).MemOk := by
  dsimp only [State.collStart]
  split
  · exact h.collLaunch
  · split
    · exact h.collLaunch
    · exact h.modTile (by rfl)
    · split
      · exact h.startWalk.modTile (by rfl)
      · exact h.startWalk.schedule

theorem State.MemOk.failLink {p : Fin 9} (h : s.MemOk) : (s.failLink p).MemOk := by
  dsimp only [State.failLink]
  split
  · exact h
  · split
    · exact h.modPort.plan.portM
    · exact h.modPort.plan.event

theorem State.MemOk.failFar {j : Nat} (h : s.MemOk) : (s.failFar j).MemOk := (h.same (by rfl)).plan

theorem State.MemOk.setLink {p : Fin 9} {l : LinkState} (h : s.MemOk) : (s.setLink p l).MemOk := h.modPort

theorem State.MemOk.bringUpFar {j : Nat} (h : s.MemOk) : (s.bringUpFar j).MemOk := h.same (by rfl)

theorem State.MemOk.startExchange {p : Fin 9} (h : s.MemOk) : (s.startExchange p).MemOk := (((((h.same (by rfl)).same (by rfl)).same (by rfl)).same (by rfl)).same (by rfl)).modPort

theorem State.MemOk.answerExchange {p : Fin 9} {e : Nat} (h : s.MemOk) : (s.answerExchange p e).MemOk := h.modPort

theorem State.MemOk.keyed {p : Fin 9} (h : s.MemOk) : (s.keyed p).MemOk := h.setLink.modPort

theorem State.MemOk.setConn {c : Conn} (h : s.MemOk) : (s.setConn c).MemOk := h.same (by rfl)

theorem State.MemOk.acked {l : List Flit} (h : s.MemOk) : (s.acked l).MemOk := by
  unfold State.acked
  refine h.foldl (fun _ hs _ _ => ?_)
  split
  · split
    · exact hs.collDone
    · exact hs
  · exact hs

theorem State.MemOk.takeAck {pkg : Nat} {tag : BitVec 16} (h : s.MemOk) : (s.takeAck pkg tag).MemOk := by
  dsimp only [State.takeAck]
  split
  · exact h
  · split
    · exact h
    · exact h.setConn.acked

theorem State.MemOk.sequence {pkg : Nat} {f : Flit} (h : s.MemOk) : (s.sequence pkg f).2.MemOk := by
  dsimp only [State.sequence]
  exact h.setConn

theorem State.MemOk.resendFlit {pkg : Nat} {f : Flit} {l : List Flit} (h : s.MemOk) : (s.resendFlit pkg f l).2.MemOk := by
  dsimp only [State.resendFlit]
  exact h.setConn

theorem State.MemOk.unqueue {q : Queued} (h : s.MemOk) : (s.unqueue q).MemOk := h.same (by rfl)

theorem State.MemOk.standingFlit {pkg : Nat} (h : s.MemOk) : (s.standingFlit pkg).2.MemOk := by
  dsimp only [State.standingFlit]
  split
  · exact h.resendFlit
  · split
    · split
      · dsimp only
        exact h.setConn
      · exact h
    · split
      · split
        · exact (h.same (by rfl)).sequence
        · exact (h.same (by rfl)).sequence
      · split
        · exact h.unqueue.sequence
        · split
          · dsimp only
            exact h.setConn
          · exact h

theorem State.MemOk.streamHead {peer : Nat} (h : s.MemOk) : (s.streamHead peer).2.MemOk := by
  dsimp only [State.streamHead]
  split
  · exact h
  · split
    · split
      · exact h.resendFlit
      · exact h
    · split
      · split
        · exact h
        · exact h.unqueue.sequence
      · exact h

theorem State.MemOk.slotFlit {p : Fin 9} {i : Nat} {e : BitVec 32} (h : s.MemOk) : (s.slotFlit p i e).2.MemOk := by
  dsimp only [State.slotFlit]
  split
  · split
    · exact h.streamSlot
    · exact h.streamHead
    · exact h
    · exact h
  · split
    · exact h.standingFlit
    · exact h
  · exact h

theorem State.MemOk.countSlot {p : Fin 9} (h : s.MemOk) : (s.countSlot p).MemOk := by
  dsimp only [State.countSlot]
  split
  · exact h.modPort.plan
  · split
    · exact h.modPort.plan
    · exact h.modPort

theorem State.MemOk.sendMgmt {p : Fin 9} (h : s.MemOk) : (s.sendMgmt p).MemOk := by
  unfold State.sendMgmt
  split
  · exact h
  · extract_lets s1
    have h1 : s1.MemOk := h.modPort
    split
    · exact (h1.same (u := { s1 with ftOn := true }) rfl).leave
    · exact h1.leave

theorem State.MemOk.authSlot {p : Fin 9} (h : s.MemOk) : (s.authSlot p).MemOk := by
  dsimp only [State.authSlot]
  split
  · exact h.sendMgmt.keyed
  · exact h.sendMgmt

theorem State.MemOk.noteLink {p : Fin 9} {f : Flit} (h : s.MemOk) : (s.noteLink p f).MemOk := by
  dsimp only [State.noteLink]
  split
  · split
    · exact h
    · exact h.same (by rfl)
  · exact h

theorem State.MemOk.forward {f : Flit} (h : s.MemOk) : (s.forward f).MemOk := by
  dsimp only [State.forward]
  split
  · split
    · split
      · exact h
      · exact h.arriveAt
    · refine State.MemOk.leave ?_
      split
      · exact h
      · exact h.arriveAt
  · split
    · exact h.arriveAt
    · split
      · exact h.leave
      · exact h.event

theorem State.MemOk.tagFailure {p : Fin 9} (h : s.MemOk) : (s.tagFailure p).MemOk := by
  dsimp only [State.tagFailure]
  split
  · exact h.modPort.failLink
  · exact h.modPort

theorem State.MemOk.askResend {pkg : Nat} (h : s.MemOk) : (s.askResend pkg).MemOk := h.setConn

theorem State.MemOk.standingArrive {p : Fin 9} {f : Flit} {tagOk : Bool} (h : s.MemOk) : (s.standingArrive p f tagOk).MemOk := by
  unfold State.standingArrive
  extract_lets s1
  have h1 : s1.MemOk := by
    unfold s1
    split
    · exact h
    · exact h.tagFailure.event
  split
  · exact h1.event
  · next pkg _ =>
    split
    · split
      · exact h1.event
      · exact h1
    · split
      · split
        · exact h1.plan
        · exact h1.askResend
      · split
        · have hr : (if f.kind = 2 then (true, s1) else s1.drawBit).2.MemOk := by
            split
            · exact h1
            · exact h1.same (by rfl)
          generalize (if f.kind = 2 then (true, s1) else s1.drawBit) = d at hr
          obtain ⟨room, s2⟩ := d
          dsimp -zeta only
          extract_lets c s3 s4
          have h4 : s4.MemOk := by
            unfold s4
            split
            · exact (State.MemOk.setConn hr).takeAck
            · exact State.MemOk.setConn hr
          split
          · split
            · exact h4.event
            · exact h4.forward
          · exact State.MemOk.askResend hr
        · exact h1.askResend

theorem State.MemOk.voidArrivals (h : s.MemOk) : s.voidArrivals.MemOk := by
  dsimp only [State.voidArrivals]
  split
  · exact h
  · refine h.foldl (fun _ hs _ _ => ?_)
    split
    · exact hs
    · split
      · exact hs.plan
      · exact hs

theorem State.MemOk.modHost {f : HostPort → HostPort} (h : s.MemOk) : (s.modHost f).MemOk := h.same (by rfl)

theorem State.MemOk.hostEvent {kind detail : Nat} (h : s.MemOk) : (s.hostEvent kind detail).MemOk := h.event

theorem State.MemOk.endCommand {ok : Bool} (h : s.MemOk) : (s.endCommand ok).MemOk := (h.same (by rfl)).modHost.plan

theorem State.MemOk.invalidate {hit : TlbEnt → Bool} {walk : Walk → Bool} (h : s.MemOk) : (s.invalidate hit walk).MemOk :=
  State.MemOk.runWalks (h.mapTiles rfl (fun _ => rfl) rfl rfl)

theorem State.MemOk.endJob {j : Nat} (h : s.MemOk) : (s.endJob j).MemOk := h.failGangs.modHost

theorem State.MemOk.throttle {g : List (Nat × TaskEnt)} (h : s.MemOk) : (s.throttle g).MemOk := by
  dsimp only [State.throttle]
  split
  · exact h
  · exact ((h.foldl (fun _ hs _ _ => hs.modTile (by rfl))).event).plan

theorem State.MemOk.failUnstarted {j : Nat} (h : s.MemOk) : (s.failUnstarted j).MemOk := h.failGangs

theorem State.MemOk.thaw {w : Wait} (h : s.MemOk) : (s.thaw t w).MemOk := h.modTile (by rfl)

theorem State.MemOk.trapAt {q : TrapReq} (h : s.MemOk) : (s.trapAt q).MemOk := h.raise

theorem State.MemOk.lateBundle (h : s.MemOk) : s.lateBundle.MemOk := by
  dsimp only [State.lateBundle]
  split
  · exact (h.same (by rfl)).onTile (by rfl)
  · exact h

theorem State.MemOk.issueMissing (h : s.MemOk) : s.issueMissing.MemOk := by
  dsimp only [State.issueMissing]
  split
  · exact h.trapAt
  · split
    · refine State.MemOk.trapAt ?_
      split
      · exact h.startWalk
      · exact h
    · exact h.fetchMiss.freeze

theorem State.MemOk.endRest {before : Tile} (h : s.MemOk) : (s.endRest before).MemOk := by
  dsimp only [State.endRest]
  split
  · exact ((h.onTile advance_pad).onTile (by rfl)).pickHeld
  · exact (h.onTile advance_pad).onTile tick_pad

theorem State.MemOk.finishReturn (h : s.MemOk) : s.finishReturn.MemOk := by
  unfold State.finishReturn
  extract_lets x y ls
  have h1 : ((s.onTile fun _ => y).prefill s.cur ls).MemOk := State.MemOk.prefill (h.onTile (f := fun _ => y) rfl)
  refine memOk_modTile _ _ (fun _ => ?_) h1
  rw [trapReturn_pad]
  exact h.2.1 s.cur

theorem State.MemOk.stopSweep (h : s.MemOk) : s.stopSweep.MemOk := by
  dsimp only [State.stopSweep]
  split
  · exact h
  · split
    · exact h.modHost.endCommand
    · exact h.modTile (by rfl)
    · split
      · exact h
      · exact h.modTile (by rfl)
    · exact h

theorem State.MemOk.rootSweep (h : s.MemOk) : s.rootSweep.MemOk := by
  unfold State.rootSweep
  split
  · exact h.plan
  · exact h

theorem State.MemOk.cleaned (h : s.MemOk) : s.cleaned.MemOk := h.foldl (fun _ hs _ _ => hs.clearL1.modTile (by rfl))

theorem State.MemOk.sweep (h : s.MemOk) : s.sweep.MemOk := h.cleaned.noteReady.enterGang.rootSweep.requestVictims.stopSweep

theorem State.MemOk.retirements (h : s.MemOk) : s.retirements.MemOk := h.foldl (fun _ hs _ _ => hs.plan)

theorem State.MemOk.holdThrottled (h : s.MemOk) : s.holdThrottled.MemOk := by
  unfold State.holdThrottled
  split
  · exact h
  · refine h.mapTiles rfl (fun x => ?_) rfl rfl
    split <;> rfl

theorem State.MemOk.endCycle (h : s.MemOk) : s.endCycle.MemOk := by
  unfold State.endCycle
  extract_lets s1
  have h1 : s1.MemOk := h.holdThrottled
  clear_value s1
  refine h1.mapTiles rfl (fun x => ?_) rfl rfl
  extract_lets y z
  have hy : y.pad = x.pad := ite_pad (Eq.refl x.pad) (Eq.refl x.pad)
  have hz : z.pad = x.pad := ite_pad hy hy
  exact ite_pad hz hz

end Sys2Proof.Machine
end

section
/-! SUPPORT. O59: the outcomes, waits and gates of an instruction keep memory in canonical form. -/

namespace Sys2Proof.Machine

variable {s : State} {t : Tid}

/-- An outcome whose next state, if it has one, keeps memory in canonical form. -/
def OutOk (o : Out State) : Prop := ∀ t, o = .next t → t.MemOk

/-- A wait whose state keeps memory in canonical form. -/
def WaitOk (w : Option (Wait × State)) : Prop := ∀ p, w = some p → p.2.MemOk

theorem State.MemOk.next (h : s.MemOk) : OutOk (.next s) := fun _ ht => Host.Outcome.next.inj ht ▸ h

theorem outOk_fault {e : Fault} : OutOk (.fault e) := fun _ hp => by cases hp

theorem outOk_refused {r : Refusal} : OutOk (.refused r) := fun _ hp => by cases hp

theorem waitOk_none : WaitOk none := fun _ hp => by cases hp

theorem waitOk_some {w : Wait} (h : s.MemOk) : WaitOk (some (w, s)) := fun _ hp => Option.some.inj hp ▸ h

theorem waitOk_ite {c : Prop} [Decidable c] {w : Wait} (h : s.MemOk) : WaitOk (if c then some (w, s) else none) := by
  split
  · exact waitOk_some h
  · exact waitOk_none

theorem OutOk.ite {c : Prop} [Decidable c] {a b : Out State} (ha : OutOk a) (hb : OutOk b) : OutOk (if c then a else b) := by
  split
  · exact ha
  · exact hb

theorem State.MemOk.acted (h : s.MemOk) : OutOk s.acted := h.note.next

theorem State.MemOk.raised {f : Flt} (h : s.MemOk) : OutOk (s.raised f) := h.raise.next

/-- The end of an instruction of a bundle: what its fault, its wait and its act leave. -/
theorem State.MemOk.issueFix {i : Instr} {dyn : List EncErr} {cond : Bool} {faults : List Flt} {fix : Flt → State}
    {wait : Option (Wait × State)} {act : State} (h : s.MemOk) (ha : act.MemOk) (hw : WaitOk wait) (hf : ∀ f, (fix f).MemOk) :
    OutOk (s.issueFix i dyn cond faults fix wait act) := by
  unfold State.issueFix
  split
  · exact h.raised
  · split
    · split
      · exact (hf _).raised
      · split
        · exact State.MemOk.next (State.MemOk.freeze (hw _ rfl))
        · exact ha.acted
    · exact h.acted

theorem State.MemOk.issueSlot {i : Instr} {dyn : List EncErr} {cond : Bool} {faults : List Flt} {wait : Option (Wait × State)} {act : State}
    (h : s.MemOk) (ha : act.MemOk) (hw : WaitOk wait) : OutOk (s.issueSlot i dyn cond faults wait act) :=
  h.issueFix ha hw fun _ => h

/-- An instruction that waits for nothing. -/
theorem State.MemOk.issueNow {i : Instr} {dyn : List EncErr} {cond : Bool} {faults : List Flt} {act : State} (h : s.MemOk)
    (ha : act.MemOk) : OutOk (s.issueSlot i dyn cond faults none act) := h.issueSlot ha waitOk_none

theorem State.MemOk.releaseGate {slot scope : Nat} {c : Bool} (h : s.MemOk) : WaitOk (s.releaseGate slot scope c).2 := by
  dsimp only [State.releaseGate]
  split
  · exact waitOk_none
  · split
    · exact waitOk_none
    · exact waitOk_some h.startRelease

theorem State.MemOk.lateWait {rows : List Nat} (h : s.MemOk) : WaitOk (s.lateWait rows) := by
  dsimp only [State.lateWait]
  split
  · exact waitOk_none
  · intro p hp
    obtain ⟨_, _, rfl⟩ := Option.map_eq_some_iff.mp hp
    exact h

theorem State.MemOk.missGate {slot va : Nat} (h : s.MemOk) : WaitOk (s.missGate slot va).2 := by
  dsimp only [State.missGate]
  split
  · exact waitOk_none
  · exact waitOk_some h.startWalk

theorem State.MemOk.chamberGate {f : CF} {full : Bool} (h : s.MemOk) : WaitOk (s.chamberGate f full).2 := by
  unfold State.chamberGate
  split
  · exact waitOk_none
  · split
    · exact waitOk_none
    · exact waitOk_some h

theorem State.MemOk.relGate {rel : Bool} {number : Nat} (h : s.MemOk) : WaitOk (s.relGate rel number).2 := by
  unfold State.relGate
  split
  · exact waitOk_none
  · split
    · exact waitOk_none
    · exact h.releaseGate

theorem State.MemOk.collGate {f : CF} (h : s.MemOk) : WaitOk (s.collGate f).2 := by
  dsimp only [State.collGate]
  split
  · exact waitOk_none
  · have hg : WaitOk (if bit f.x.toNat 0 = true then s.releaseGate 6 2 false else ([], none)).2 := by
      split
      · exact h.releaseGate
      · exact waitOk_none
    dsimp only
    split
    case h_1 w hw => exact fun p hp => hg p (hw.trans hp)
    case h_2 => exact waitOk_ite h

/-- An access of global memory: the act runs on the state of issue. -/
theorem State.MemOk.globalSlot {i : Instr} {cond : Bool} {slot va need : Nat} {own : List Flt} {gate : List Flt × Option (Wait × State)}
    {act : State → Nat → State} (h : s.MemOk) (ha : ∀ a, (act s a).MemOk) (hg : WaitOk gate.2) :
    OutOk (s.globalSlot i cond slot va need own gate act) := by
  unfold State.globalSlot
  split
  · exact h.issueFix (ha _) hg fun _ => h
  · exact h.issueFix h.laterT hg fun _ => h
  · exact h.issueFix h h.missGate fun _ => h.walkOnMiss


/-- An access of global memory without a gate. -/
theorem State.MemOk.globalNow {i : Instr} {cond : Bool} {slot va need : Nat} {own : List Flt} {act : State → Nat → State} (h : s.MemOk)
    (ha : ∀ a, (act s a).MemOk) : OutOk (s.globalSlot i cond slot va need own noGate act) := h.globalSlot ha waitOk_none

/-- A command of the host: what it does while the basin is up. -/
theorem State.MemOk.hosted {act : State} (h : s.MemOk) (ha : act.MemOk) : OutOk (s.hosted act) := by
  unfold State.hosted
  refine State.MemOk.next ?_
  split
  · exact ha
  · exact h

theorem State.MemOk.command' {run : State → State × Option Bool} (h : s.MemOk) (hr : ∀ s, s.MemOk → (run s).1.MemOk) :
    OutOk (s.command' run) := by
  refine h.hosted ?_
  have hc := hr _ (State.MemOk.modHost (f := fun p => { p with cmdst := 1, cmdRind := 0 }) h)
  split
  · exact h.hostEvent
  · generalize run _ = r at hc
    split
    · exact State.MemOk.endCommand hc
    · exact hc

theorem State.MemOk.controlSlot {i : Instr} {f : CF} {faults : List Flt} {wait : Option (Wait × State)} {act : Nat → State}
    (h : s.MemOk) (ha : ∀ w, (act w).MemOk) (hw : WaitOk wait) : OutOk (s.controlSlot i f faults wait act) :=
  h.issueSlot (ha _) hw

theorem State.MemOk.controlNow {i : Instr} {f : CF} {faults : List Flt} {act : Nat → State} (h : s.MemOk) (ha : ∀ w, (act w).MemOk) :
    OutOk (s.controlSlot i f faults none act) := h.controlSlot ha waitOk_none

theorem State.MemOk.padAmo {i : Instr} {f : TF} {a : Amo} {gate : List Flt × Option (Wait × State)} (h : s.MemOk)
    (hg : WaitOk gate.2) : OutOk (s.padAmo i f a gate) := by
  dsimp only [State.padAmo, State.newId]
  refine h.issueFix (State.MemOk.schedule (State.MemOk.landWaiting (State.MemOk.onTile (State.MemOk.claim (State.MemOk.claim ?_)) (by rfl)))) ?_
    fun _ => h.bcol
  · split
    · exact (h.same (by rfl)).acquireTile
    · exact h.same (by rfl)
  · split
    next w hw => exact fun p hp => hg p (hw.trans hp)
    next => exact h.lateWait

theorem State.MemOk.globalAmo {i : Instr} {f : TF} {a : Amo} {gate : List Flt × Option (Wait × State)} (h : s.MemOk)
    (hg : WaitOk gate.2) : OutOk (s.globalAmo i f a gate) := by
  dsimp only [State.globalAmo, State.newId]
  refine h.globalSlot (fun _ => State.MemOk.schedule (State.MemOk.schedule (State.MemOk.landHeld ?_))) hg
  split
  · exact (h.markEffect.same (by rfl)).acquireTile
  · exact h.markEffect.same (by rfl)

theorem State.MemOk.amoSlot {i : Instr} {f : TF} {op : Nat} (h : s.MemOk) : OutOk (s.amoSlot i f op) := by
  dsimp only [State.amoSlot]
  have hg : WaitOk (if (s.tile.amo op f).rel = true then s.releaseGate 5 (s.tile.amo op f).scope false else noGate).2 := by
    split
    · exact h.releaseGate
    · exact waitOk_none
  split
  · exact h.globalAmo hg
  · exact h.padAmo hg

theorem State.MemOk.suspSlot {i : Instr} {f : YF} {dyn : List EncErr} {n : Nat} {wait : Option (Wait × State)} {act : SMap Nat → State}
    (h : s.MemOk) (ha : ∀ m, (act m).MemOk) (hw : WaitOk wait) : OutOk (s.suspSlot i f dyn n wait act) := by
  dsimp only [State.suspSlot]
  split
  · exact h.issueSlot (ha _) hw
  · exact h.issueNow h
  · refine h.issueFix h ?_ fun _ => ?_
    · split
      · exact waitOk_none
      · exact waitOk_some h.startWalk
    · split
      · exact h.startWalk
      · exact h

end Sys2Proof.Machine
end

section
/-! SUPPORT. O59: the instructions of the scalar, vector, scratchpad, matrix and sequencer slots keep memory in canonical form. -/

namespace Sys2Proof.Machine

variable {s : State} {t : Tid}

theorem State.MemOk.execTranslationWalkEnd (h : s.MemOk) : OutOk (execTranslationWalkEnd s) := h.endWalk.next

theorem State.MemOk.execFetchLineArrival (h : s.MemOk) : OutOk (execFetchLineArrival s) := by
  dsimp only [Machine.execFetchLineArrival]
  split
  · exact h.fillLine.next
  · exact h.next

theorem State.MemOk.vElementwise {i : Instr} {f : VF} {lat : Nat} {srcs : List (Nat × Nat)} {res : List Res} (h : s.MemOk) :
    OutOk (s.vElementwise i f lat srcs res) := h.issueNow h.vLandF

theorem State.MemOk.sBin {i : Instr} {f : SF} {lat : Nat} {g : Nat → Nat → Nat} (h : s.MemOk) :
    OutOk (s.sBin i f lat g) := h.issueNow h.sScalar

theorem State.MemOk.sBinImm {i : Instr} {f : SF} {lat : Nat} {g : Nat → Nat → Nat} (h : s.MemOk) :
    OutOk (s.sBinImm i f lat g) := h.issueNow h.sScalar

theorem State.MemOk.sDiv {i : Instr} {f : SF} {g : Nat → Nat → Nat} (h : s.MemOk) : OutOk (s.sDiv i f g) := h.issueNow h.divLand
theorem State.MemOk.sDivImm {i : Instr} {f : SF} {g : Nat → Nat → Nat} (h : s.MemOk) : OutOk (s.sDivImm i f g) := h.issueNow h.divLand
theorem State.MemOk.sUn {i : Instr} {f : SF} {g : Nat → Nat} (h : s.MemOk) : OutOk (s.sUn i f g) := h.issueNow h.sScalar
theorem State.MemOk.sPred2 {i : Instr} {f : SF} {g : Nat → Nat → Nat} (h : s.MemOk) : OutOk (s.sPred2 i f g) := h.issueNow h.land
theorem State.MemOk.sPredS {i : Instr} {f : SF} {g : Nat → Nat} (h : s.MemOk) : OutOk (s.sPredS i f g) := h.issueNow h.sScalar
theorem State.MemOk.execBfi {f : SF} (h : s.MemOk) : OutOk (execBfi f s) := h.issueNow h.sScalar
theorem State.MemOk.execBfiImmediate {f : SF} (h : s.MemOk) : OutOk (execBfiImmediate f s) := h.issueNow h.sScalar
theorem State.MemOk.execCmp {f : SF} (h : s.MemOk) : OutOk (execCmp f s) := h.issueNow h.land
theorem State.MemOk.execCmpImmediate {f : SF} (h : s.MemOk) : OutOk (execCmpImmediate f s) := h.issueNow h.land
theorem State.MemOk.execSel {f : SF} (h : s.MemOk) : OutOk (execSel f s) := h.issueNow h.sScalar
theorem State.MemOk.execSelImmediate {f : SF} (h : s.MemOk) : OutOk (execSelImmediate f s) := h.issueNow h.sScalar
theorem State.MemOk.execMovi {f : SF} (h : s.MemOk) : OutOk (execMovi f s) := h.issueNow h.sScalar
theorem State.MemOk.execMovhi {f : SF} (h : s.MemOk) : OutOk (execMovhi f s) := h.issueNow h.sScalar
theorem State.MemOk.execPnot {f : SF} (h : s.MemOk) : OutOk (execPnot f s) := h.issueNow h.land
theorem State.MemOk.execPcnt {f : SF} (h : s.MemOk) : OutOk (execPcnt f s) := h.sPredS
theorem State.MemOk.execPfirst {f : SF} (h : s.MemOk) : OutOk (execPfirst f s) := h.sPredS
theorem State.MemOk.execPlast {f : SF} (h : s.MemOk) : OutOk (execPlast f s) := h.sPredS
theorem State.MemOk.execPfrom {f : SF} (h : s.MemOk) : OutOk (execPfrom f s) := h.issueNow h.land
theorem State.MemOk.execPlen {f : SF} (h : s.MemOk) : OutOk (execPlen f s) := h.issueNow h.land
theorem State.MemOk.execPtos {f : SF} (h : s.MemOk) : OutOk (execPtos f s) := h.issueNow h.sScalar
theorem State.MemOk.execMfsr {f : SF} (h : s.MemOk) : OutOk (execMfsr f s) := h.issueNow h.sScalar
theorem State.MemOk.execMtsr {f : SF} (h : s.MemOk) : OutOk (execMtsr f s) := h.issueNow h.land
theorem State.MemOk.vOp1 {i : Instr} {f : VF} {lat : Nat} {g : Nat → Res} (h : s.MemOk) : OutOk (s.vOp1 i f lat g) := h.vElementwise
theorem State.MemOk.vOp2 {i : Instr} {f : VF} {lat : Nat} {g : Nat → Nat → Res} (h : s.MemOk) : OutOk (s.vOp2 i f lat g) := h.vElementwise

theorem State.MemOk.vOp3 {i : Instr} {f : VF} {lat : Nat} {g : Nat → Nat → Nat → Res} (h : s.MemOk) : OutOk (s.vOp3 i f lat g) :=
  h.vElementwise

theorem State.MemOk.vArith {i : Instr} {f : VF} {gf : Nat → Nat → Nat → Nat → Nat → Res} {gi : ℤ → ℤ → ℤ} (h : s.MemOk) :
    OutOk (s.vArith i f gf gi) := h.vOp2

theorem State.MemOk.vFused {i : Instr} {f : VF} {np nc : Bool} (h : s.MemOk) : OutOk (s.vFused i f np nc) := h.vOp3
theorem State.MemOk.vMinMax {i : Instr} {f : VF} {mx num : Bool} (h : s.MemOk) : OutOk (s.vMinMax i f mx num) := h.vOp2
theorem State.MemOk.vBits {i : Instr} {f : VF} {g : Nat → Nat → Nat} (h : s.MemOk) : OutOk (s.vBits i f g) := h.vOp2

theorem State.MemOk.vPermute {i : Instr} {f : VF} {extra : List Flt} {picks : Picks} (h : s.MemOk) :
    OutOk (s.vPermute i f extra picks) := h.issueNow h.vLand

theorem State.MemOk.execVadd {f : VF} (h : s.MemOk) : OutOk (execVadd f s) := h.vArith
theorem State.MemOk.execVsub {f : VF} (h : s.MemOk) : OutOk (execVsub f s) := h.vArith
theorem State.MemOk.execVmul {f : VF} (h : s.MemOk) : OutOk (execVmul f s) := h.vArith
theorem State.MemOk.execVfma {f : VF} (h : s.MemOk) : OutOk (execVfma f s) := h.vFused
theorem State.MemOk.execVfms {f : VF} (h : s.MemOk) : OutOk (execVfms f s) := h.vFused
theorem State.MemOk.execVfnma {f : VF} (h : s.MemOk) : OutOk (execVfnma f s) := h.vFused
theorem State.MemOk.execVabd {f : VF} (h : s.MemOk) : OutOk (execVabd f s) := h.vArith
theorem State.MemOk.execVmin {f : VF} (h : s.MemOk) : OutOk (execVmin f s) := h.vMinMax
theorem State.MemOk.execVmax {f : VF} (h : s.MemOk) : OutOk (execVmax f s) := h.vMinMax
theorem State.MemOk.execVminn {f : VF} (h : s.MemOk) : OutOk (execVminn f s) := h.vMinMax
theorem State.MemOk.execVmaxn {f : VF} (h : s.MemOk) : OutOk (execVmaxn f s) := h.vMinMax
theorem State.MemOk.execVabs {f : VF} (h : s.MemOk) : OutOk (execVabs f s) := h.vOp1
theorem State.MemOk.execVneg {f : VF} (h : s.MemOk) : OutOk (execVneg f s) := h.vOp1
theorem State.MemOk.execVadds {f : VF} (h : s.MemOk) : OutOk (execVadds f s) := h.vOp2
theorem State.MemOk.execVsubs {f : VF} (h : s.MemOk) : OutOk (execVsubs f s) := h.vOp2
theorem State.MemOk.execVmulh {f : VF} (h : s.MemOk) : OutOk (execVmulh f s) := h.vOp2
theorem State.MemOk.execVavg {f : VF} (h : s.MemOk) : OutOk (execVavg f s) := h.vOp2
theorem State.MemOk.execVclamp {f : VF} (h : s.MemOk) : OutOk (execVclamp f s) := h.vOp3
theorem State.MemOk.execVdot4 {f : VF} (h : s.MemOk) : OutOk (execVdot4 f s) := h.issueNow h.vLand
theorem State.MemOk.execVand {f : VF} (h : s.MemOk) : OutOk (execVand f s) := h.vBits
theorem State.MemOk.execVor {f : VF} (h : s.MemOk) : OutOk (execVor f s) := h.vBits
theorem State.MemOk.execVxor {f : VF} (h : s.MemOk) : OutOk (execVxor f s) := h.vBits
theorem State.MemOk.execVandn {f : VF} (h : s.MemOk) : OutOk (execVandn f s) := h.vBits
theorem State.MemOk.execVnot {f : VF} (h : s.MemOk) : OutOk (execVnot f s) := h.vOp1
theorem State.MemOk.execVshl {f : VF} (h : s.MemOk) : OutOk (execVshl f s) := h.vBits
theorem State.MemOk.execVshr {f : VF} (h : s.MemOk) : OutOk (execVshr f s) := h.vBits
theorem State.MemOk.execVsra {f : VF} (h : s.MemOk) : OutOk (execVsra f s) := h.vBits
theorem State.MemOk.execVrol {f : VF} (h : s.MemOk) : OutOk (execVrol f s) := h.vBits
theorem State.MemOk.execVpopc {f : VF} (h : s.MemOk) : OutOk (execVpopc f s) := h.vOp1
theorem State.MemOk.execVclz {f : VF} (h : s.MemOk) : OutOk (execVclz f s) := h.vOp1
theorem State.MemOk.execVcmp {f : VF} (h : s.MemOk) : OutOk (execVcmp f s) := h.issueNow h.vLandF
theorem State.MemOk.execVclass {f : VF} (h : s.MemOk) : OutOk (execVclass f s) := h.issueNow h.vLand
theorem State.MemOk.execVsel {f : VF} (h : s.MemOk) : OutOk (execVsel f s) := h.issueNow h.vLand

theorem State.MemOk.execVmov {f : VF} (h : s.MemOk) : OutOk (execVmov f s) := by
  dsimp only [Machine.execVmov]
  split
  · exact h.issueNow h.vCarry
  · exact h.vOp1

theorem State.MemOk.execVmovi {f : VF} (h : s.MemOk) : OutOk (execVmovi f s) := by
  dsimp only [Machine.execVmovi]
  split
  · exact h.vElementwise
  · exact h.vElementwise

theorem State.MemOk.execVext {f : VF} (h : s.MemOk) : OutOk (execVext f s) := by
  dsimp only [Machine.execVext]
  refine h.issueNow ?_
  split
  · exact h.land
  · exact h

theorem State.MemOk.execVins {f : VF} (h : s.MemOk) : OutOk (execVins f s) := by
  dsimp only [Machine.execVins]
  refine h.issueNow ?_
  split
  · exact h.vLand
  · exact h

theorem State.MemOk.execVcvt {f : VF} (h : s.MemOk) : OutOk (execVcvt f s) := h.issueNow h.vLandF
theorem State.MemOk.execVpack {f : VF} (h : s.MemOk) : OutOk (execVpack f s) := h.issueNow h.vLand
theorem State.MemOk.execVunpk {f : VF} (h : s.MemOk) : OutOk (execVunpk f s) := h.issueNow h.vLand
theorem State.MemOk.execVperm {f : VF} (h : s.MemOk) : OutOk (execVperm f s) := h.vPermute
theorem State.MemOk.execVshuf {f : VF} (h : s.MemOk) : OutOk (execVshuf f s) := h.vPermute
theorem State.MemOk.execVslide {f : VF} (h : s.MemOk) : OutOk (execVslide f s) := h.vPermute
theorem State.MemOk.execVbcast {f : VF} (h : s.MemOk) : OutOk (execVbcast f s) := h.vPermute
theorem State.MemOk.execVcomp {f : VF} (h : s.MemOk) : OutOk (execVcomp f s) := h.issueNow h.vLand
theorem State.MemOk.execVexpd {f : VF} (h : s.MemOk) : OutOk (execVexpd f s) := h.issueNow h.vLand
theorem State.MemOk.execVrchk {f : VF} (h : s.MemOk) : OutOk (execVrchk f s) := h.issueNow h.land

theorem State.MemOk.padLoad {i : Instr} {f : LF} {lat lim : Nat} {cond : Bool} {own : List Flt} {legal : Bool} {wb : Nat}
    {one chk : Bool} {l : PadLoad} {ws : List RWrite} (h : s.MemOk) : OutOk (s.padLoad i f lat lim cond own legal wb one chk l ws) := by
  dsimp only [State.padLoad, State.newId]
  refine h.issueFix ?_ ?_ (fun _ => h.bcol)
  · split
    · split
      · exact h
      · exact h.land
    · exact (h.same (by rfl)).claim.landWaiting.schedule
  · split
    · exact waitOk_none
    · exact h.lateWait

theorem State.MemOk.padRun {i : Instr} {f : LF} {step : Bool} (h : s.MemOk) : OutOk (s.padRun i f step) := h.padLoad

theorem State.MemOk.padMany {i : Instr} {f : LF} {lat lim : Nat} {own : List Flt} {chk : Bool} {el : Nat → Nat × Bool}
    (h : s.MemOk) : OutOk (s.padMany i f lat lim own chk el) := h.padLoad

theorem State.MemOk.execLdtag {f : LF} (h : s.MemOk) : OutOk (execLdtag f s) := h.issueNow h.land

theorem State.MemOk.padStore {i : Instr} {lim : Nat} {cond : Bool} {own : List Flt} {legal : Bool} {wb : Nat} {one : Bool}
    {addrs : List Nat} {ws : List GWrite} {nibs : List Nib} (h : s.MemOk) :
        OutOk (s.padStore i lim cond own legal wb one addrs ws nibs) := by
  dsimp only [State.padStore]
  refine h.issueFix ?_ waitOk_none (fun _ => h.bcol)
  split
  · exact h
  · exact h.claim.padRows

theorem State.MemOk.execSttag {f : TF} (h : s.MemOk) : OutOk (execSttag f s) := h.issueNow (h.onTile (by rfl)).schedule

theorem State.MemOk.execRinj {f : SF} (h : s.MemOk) : OutOk (execRinj f s) := by
  dsimp only [Machine.execRinj]
  split
  · exact h.issueNow h.land
  · exact h.issueNow h.land
  · exact h.issueNow h.land
  · exact h.issueNow (h.claim.claim.onTile (by rfl)).schedule

theorem State.MemOk.execVqnt {f : VF} (h : s.MemOk) : OutOk (execVqnt f s) := by
  dsimp only [Machine.execVqnt]
  refine h.issueFix ?_ waitOk_none (fun _ => h.bcol)
  split
  · split
    · exact h.claim.landFlags
    · exact h.claim.landFlags.outlierWrites
  · split
    · exact h.claim.landFlags
    · exact h.claim.landFlags.outlierWrites

theorem State.MemOk.execVdqnt {f : VF} (h : s.MemOk) : OutOk (execVdqnt f s) := h.issueNow h.vLandF
theorem State.MemOk.execVmacw {f : VF} (h : s.MemOk) : OutOk (execVmacw f s) := h.issueNow h.vLandF
theorem State.MemOk.execZmovn {f : VF} (h : s.MemOk) : OutOk (execZmovn f s) := h.issueNow h.vLandF

theorem State.MemOk.execZmovw {f : VF} (h : s.MemOk) : OutOk (execZmovw f s) := by
  dsimp only [Machine.execZmovw]
  split
  · refine h.issueNow ?_
    split
    · exact h
    · exact h.land.regEvents
  · exact h.issueNow h.vCarry

theorem State.MemOk.mIssue {i : Instr} {c : MCmd} {own t e : List Flt} (h : s.MemOk) : OutOk (s.mIssue i c own t e) := by
  refine h.issueNow (State.MemOk.onTile (h.same (by rfl)) ?_)
  dsimp only
  split
  · split
    · simp only [dropCmd_pad]
      rfl
    · rfl
  · rfl

theorem State.MemOk.mLoad {i : Instr} {f : MF} {op : Nat} (h : s.MemOk) : OutOk (s.mLoad i f op) := h.mIssue
theorem State.MemOk.mStream {i : Instr} {f : MF} {op : Nat} (h : s.MemOk) : OutOk (s.mStream i f op) := h.mIssue

theorem State.MemOk.execMxsave {f : MF} (h : s.MemOk) :
    OutOk (execMxsave f s) := h.issueNow (((h.same (by rfl)).onTile (by rfl)).foldl (fun _ hs _ _ => hs.schedule))

theorem State.MemOk.execMxrest {f : MF} (h : s.MemOk) : OutOk (execMxrest f s) := h.issueNow (h.onTile (by rfl)).schedule
theorem State.MemOk.execTileCycle (h : s.MemOk) : OutOk (execTileCycle s) := h.tileCycle.next
theorem State.MemOk.execBr {f : YF} (h : s.MemOk) : OutOk (execBr f s) := h.issueNow h.transfer
theorem State.MemOk.execBrp {f : YF} (h : s.MemOk) : OutOk (execBrp f s) := h.issueNow h.transfer

theorem State.MemOk.execBrs {f : YF} (h : s.MemOk) : OutOk (execBrs f s) := by
  dsimp only [Machine.execBrs]
  refine h.issueNow ?_
  split
  · exact h.transfer
  · exact h

theorem State.MemOk.execJr {f : YF} (h : s.MemOk) : OutOk (execJr f s) := h.issueNow h.transfer
theorem State.MemOk.execCall {f : YF} (h : s.MemOk) : OutOk (execCall f s) := h.issueNow h.link.transfer
theorem State.MemOk.execCallr {f : YF} (h : s.MemOk) : OutOk (execCallr f s) := h.issueNow h.link.transfer
theorem State.MemOk.execRet {f : YF} (h : s.MemOk) : OutOk (execRet f s) := h.issueNow h.transfer
theorem State.MemOk.execLoop {f : YF} (h : s.MemOk) : OutOk (execLoop f s) := h.issueNow (h.onTile (openLoop_pad _ _))
theorem State.MemOk.execLoopi {f : YF} (h : s.MemOk) : OutOk (execLoopi f s) := h.issueNow (h.onTile (openLoop_pad _ _))

theorem State.MemOk.execFence {f : YF} (h : s.MemOk) : OutOk (execFence f s) := by
  dsimp only [Machine.execFence]
  refine h.issueSlot ?_ ?_
  · split
    · refine State.MemOk.acquireTile ?_
      split
      · exact h.closeCombine
      · exact h
    · split
      · exact h.closeCombine
      · exact h
  · split
    · exact h.releaseGate
    · dsimp only
      exact waitOk_none

theorem State.MemOk.execTrap {f : YF} (h : s.MemOk) : OutOk (execTrap f s) := h.issueNow (h.onTile (by rfl))

theorem State.MemOk.execEret {f : YF} (h : s.MemOk) : OutOk (execEret f s) := by
  dsimp only [Machine.execEret]
  refine h.issueNow ?_
  split
  · exact h.failTile
  · exact h.onTile (by rfl)

theorem State.MemOk.execHalt {f : YF} (h : s.MemOk) : OutOk (execHalt f s) := by
  dsimp only [Machine.execHalt]
  refine h.issueNow ?_
  split
  · exact h.failTile
  · exact h.startHalt

theorem State.MemOk.execBkpt {f : YF} (h : s.MemOk) : OutOk (execBkpt f s) := by
  dsimp only [Machine.execBkpt]
  refine h.issueNow ?_
  split
  · exact h
  · exact h.onTile (by rfl)

end Sys2Proof.Machine
end

section
/-! SUPPORT. O59: the global accesses, copies, bindings, windows and pipes keep memory in canonical form. -/

namespace Sys2Proof.Machine

variable {s : State} {t : Tid}

theorem State.MemOk.execRevocation (h : s.MemOk) : OutOk (execRevocation s) := by
  unfold Machine.execRevocation
  refine State.MemOk.next ?_
  split
  · exact h.revoke
  · exact h

theorem State.MemOk.execOwnershipGrant (h : s.MemOk) : OutOk (execOwnershipGrant s) := by
  unfold Machine.execOwnershipGrant
  extract_lets t word b s₁ s₂
  split
  · exact h.next
  · extract_lets s₃ s₄
    split
    · exact h.next
    · have h₄ : s₄.MemOk := by
        have h₃ : s₃.MemOk := State.MemOk.modTile (State.MemOk.same (s := s₁) h.takeWord (by rfl)) (by rfl)
        unfold s₄
        split
        · exact h₃.schedule
        · exact h₃
      refine State.MemOk.next ?_
      split
      · exact State.MemOk.schedule (State.MemOk.same (s := s₄) h₄ (by rfl))
      · exact State.MemOk.same (s := s₄) h₄ (by rfl)

theorem State.MemOk.execL1Fill (h : s.MemOk) : OutOk (execL1Fill s) := by
  unfold Machine.execL1Fill
  refine State.MemOk.next ?_
  split
  · exact h.fillSector
  · exact h

theorem State.MemOk.execGld {f : LF} (h : s.MemOk) : OutOk (execGld f s) := by
  dsimp only [Machine.execGld, State.newId]
  exact h.globalNow (fun _ => (h.same (by rfl)).landHeld.schedule)

theorem State.MemOk.execGldv {f : LF} (h : s.MemOk) : OutOk (execGldv f s) := by
  dsimp only [Machine.execGldv, State.newId]
  split
  · refine h.issueNow ?_
    split
    · exact h
    · exact h.land
  · exact h.globalNow (fun _ => (h.same (by rfl)).landHeld.schedule)

theorem State.MemOk.execGpref {f : LF} (h : s.MemOk) : OutOk (execGpref f s) := by
  dsimp only [Machine.execGpref]
  refine h.issueNow ?_
  split
  · exact h.startWalk.schedule
  · exact h.prefetch

theorem State.MemOk.execGst {f : TF} (h : s.MemOk) : OutOk (execGst f s) := by
  dsimp only [Machine.execGst]
  exact h.globalNow (fun _ => h.globalStore)

theorem State.MemOk.execGstv {f : TF} (h : s.MemOk) : OutOk (execGstv f s) := by
  dsimp only [Machine.execGstv]
  split
  · exact h.issueNow h
  · exact h.globalNow (fun _ => h.globalStore)

theorem State.MemOk.flushSlot {f : TF} {own : List Flt} {line : Option Nat} (h : s.MemOk) : OutOk (s.flushSlot f own line) := by
  dsimp only [State.flushSlot]
  refine h.issueSlot ?_ (waitOk_ite h.schedule)
  split
  · exact h.flushInv
  · exact h

theorem State.MemOk.execGflush {f : TF} (h : s.MemOk) : OutOk (execGflush f s) := by
  dsimp only [Machine.execGflush]
  split
  · exact h.flushSlot
  · split
    · exact h.flushSlot
    · exact h.globalNow (fun _ => h)

theorem State.MemOk.execGlobalAtomicReturn (h : s.MemOk) : OutOk (execGlobalAtomicReturn s) := (h.modTile (by rfl)).next

theorem State.MemOk.execLateRowWrite (h : s.MemOk) : OutOk (execLateRowWrite s) := by
  unfold Machine.execLateRowWrite
  split
  · exact h.next
  · refine State.MemOk.next ?_
    split
    · exact h.copyPut
    · exact h

theorem State.MemOk.execWriteQueueRowWrite (h : s.MemOk) : OutOk (execWriteQueueRowWrite s) := by
  dsimp only [Machine.execWriteQueueRowWrite]
  refine State.MemOk.next ?_
  split
  · exact (h.queueRows _ _).planQueue
  · exact h.queueRows _ _

theorem State.MemOk.execDelayedSourceRead (h : s.MemOk) : OutOk (execDelayedSourceRead s) := (h.readHead _).next

theorem State.MemOk.execCopyEmission (h : s.MemOk) : OutOk (execCopyEmission s) := by
  unfold Machine.execCopyEmission
  refine State.MemOk.next ?_
  split
  · exact h.copyEmit
  · exact h

theorem State.MemOk.execCloop {f : CF} (h : s.MemOk) : OutOk (execCloop f s) := h.issueNow (h.onTile (by rfl))
theorem State.MemOk.execCbase {f : CF} (h : s.MemOk) : OutOk (execCbase f s) := h.issueNow (h.onTile (by rfl))
theorem State.MemOk.cgoTensor {f : CF} {busy : List Flt} (h : s.MemOk) : OutOk (s.cgoTensor f busy) := h.issueNow h.freshCopy

theorem State.MemOk.execCgo {f : CF} (h : s.MemOk) : OutOk (execCgo f s) := by
  dsimp only [Machine.execCgo]
  split
  · exact h.issueNow h.armCopy
  · split
    · exact h.cgoTensor
    · exact h.issueNow h.freshCopy

theorem State.MemOk.execCstop {f : CF} (h : s.MemOk) : OutOk (execCstop f s) := h.issueNow (h.onTile (by rfl))
theorem State.MemOk.execCquery {f : CF} (h : s.MemOk) : OutOk (execCquery f s) := h.issueNow (h.same (by rfl)).land
theorem State.MemOk.execTbind {f : CF} (h : s.MemOk) : OutOk (execTbind f s) := h.issueNow h.unitScalar
theorem State.MemOk.execTunbind {f : CF} (h : s.MemOk) : OutOk (execTunbind f s) := h.issueNow h.unitScalar
theorem State.MemOk.execTflush {f : CF} (h : s.MemOk) : OutOk (execTflush f s) := h.issueNow h.schedule

theorem State.MemOk.execGetData (h : s.MemOk) : OutOk (execGetData s) := by
  dsimp only [Machine.execGetData]
  split
  · exact h.next
  · exact (h.foldl (fun _ hs _ _ => hs.landRow)).next

theorem State.MemOk.execAtomicOldValue (h : s.MemOk) : OutOk (execAtomicOldValue s) := by
  dsimp only [Machine.execAtomicOldValue]
  split
  · exact h.next
  · exact h.landRow.next

theorem State.MemOk.execNotices (h : s.MemOk) : OutOk (execNotices s) := (h.foldl (fun _ hs _ _ => hs.notice)).next

theorem State.MemOk.execPost (h : s.MemOk) : OutOk (execPost s) := by
  dsimp only [Machine.execPost]
  split
  · exact (h.same (by rfl)).next
  · exact (h.same (by rfl)).opLevel.depart.next

theorem State.MemOk.execChamberQueueTimeout (h : s.MemOk) : OutOk (execChamberQueueTimeout s) := by
  dsimp only [Machine.execChamberQueueTimeout]
  split
  · exact h.next
  · exact (((h.same (by rfl)).foldl (fun _ hs _ _ => hs.opFail)).depart).next

theorem State.MemOk.execFenceDone (h : s.MemOk) : OutOk (execFenceDone s) := by
  unfold Machine.execFenceDone
  split
  · exact h.next
  · exact h.opLevel.next

theorem State.MemOk.execGrant (h : s.MemOk) : OutOk (execGrant s) := by
  dsimp only [Machine.execGrant]
  split
  · exact h.next
  · refine State.MemOk.next (State.MemOk.opLevel ?_)
    split
    · exact h.same (by rfl)
    · exact h

theorem State.MemOk.execCompletionNoticeSend (h : s.MemOk) : OutOk (execCompletionNoticeSend s) := h.letGo.next
theorem State.MemOk.execFenceArrivalSend (h : s.MemOk) : OutOk (execFenceArrivalSend s) := h.letGo.next
theorem State.MemOk.execReleaseSend (h : s.MemOk) : OutOk (execReleaseSend s) := h.letGo.next
theorem State.MemOk.execPutRequest (h : s.MemOk) : OutOk (execPutRequest s) := h.checked.next
theorem State.MemOk.execGetRequest (h : s.MemOk) : OutOk (execGetRequest s) := h.checked.next
theorem State.MemOk.execAccumulateRequest (h : s.MemOk) : OutOk (execAccumulateRequest s) := h.checked.next
theorem State.MemOk.execAtomicRequest (h : s.MemOk) : OutOk (execAtomicRequest s) := h.checked.next
theorem State.MemOk.execFutureFill (h : s.MemOk) : OutOk (execFutureFill s) := h.checked.next
theorem State.MemOk.execTaggedAccumulate (h : s.MemOk) : OutOk (execTaggedAccumulate s) := h.tagged.next

theorem State.MemOk.execRemoteApply (h : s.MemOk) : OutOk (execRemoteApply s) := by
  dsimp only [Machine.execRemoteApply]
  split
  · exact h.next
  · refine State.MemOk.next ?_
    split
    · exact h.modWindow.applyPut.visibleNotice
    · exact h.modWindow.applyGet
    · split
      · exact h.modWindow.applyAmo
      · exact h.modWindow.applyAcc.visibleNotice

theorem State.MemOk.execCompletion (h : s.MemOk) : OutOk (execCompletion s) := by
  unfold Machine.execCompletion
  refine State.MemOk.next ?_
  split
  · exact h.event.controlFails
  · split
    · exact h.event.controlFails
    · extract_lets e s₁ s₂
      have h₂ : s₂.MemOk := State.MemOk.same (s := s₁) h.modWindow.notify (by rfl)
      split
      · exact h₂.schedule
      · exact h₂

theorem State.MemOk.execFenceArrival (h : s.MemOk) : OutOk (execFenceArrival s) := by
  dsimp only [Machine.execFenceArrival]
  refine State.MemOk.next ?_
  split
  · exact h.controlFails
  · exact h.modWindow.planFence

theorem State.MemOk.execLockRequest (h : s.MemOk) : OutOk (execLockRequest s) := by
  dsimp only [Machine.execLockRequest]
  refine State.MemOk.next ?_
  split
  · exact h.plan
  · split
    · exact h.controlFails
    · split
      · exact h.controlFails
      · exact h.modWindow.notify.grantAll

theorem State.MemOk.execRelease (h : s.MemOk) : OutOk (execRelease s) := by
  unfold Machine.execRelease
  refine State.MemOk.next ?_
  split
  · exact h.controlFails
  · split
    · exact h.controlFails
    · extract_lets s₁
      exact State.MemOk.grantAll (State.MemOk.same (s := s₁) h.modWindow.notify (by rfl))

theorem State.MemOk.execWindowEntryFreed (h : s.MemOk) : OutOk (execWindowEntryFreed s) := by
  dsimp only [Machine.execWindowEntryFreed]
  split
  · exact h.next
  · split
    · refine State.MemOk.next ?_
      split
      · exact (h.same (by rfl)).modTile (by rfl)
      · exact h.same (by rfl)
    · exact h.next

theorem State.MemOk.execWfence {f : CF} (h : s.MemOk) : OutOk (execWfence f s) := by
  dsimp only [Machine.execWfence]
  refine h.controlNow (fun _ => ?_)
  split
  · exact h.startOp.schedule
  · exact h.startOp

theorem State.MemOk.execWpost {f : CF} (h : s.MemOk) : OutOk (execWpost f s) := h.controlNow (fun _ => h.issueOp.opLevel.schedule)
theorem State.MemOk.execWdone {f : CF} (h : s.MemOk) : OutOk (execWdone f s) := h.controlNow (fun _ => h.issueOp.opLevel.schedule)
theorem State.MemOk.execWstart {f : CF} (h : s.MemOk) : OutOk (execWstart f s) := h.controlSlot (fun _ => h.openAccess) h.chamberGate
theorem State.MemOk.execWcompl {f : CF} (h : s.MemOk) : OutOk (execWcompl f s) := h.controlNow (fun _ => (h.same (by rfl)).startOp)
theorem State.MemOk.execWlock {f : CF} (h : s.MemOk) : OutOk (execWlock f s) := h.controlNow (fun _ => h.startOp)

theorem State.MemOk.execWunlock {f : CF} (h : s.MemOk) : OutOk (execWunlock f s) := by
  dsimp only [Machine.execWunlock]
  refine h.controlNow (fun _ => State.MemOk.startOp ?_)
  split
  · exact h.same (by rfl)
  · exact h

theorem State.MemOk.remoteSlot {i : Instr} {f : CF} {kind : OpKind} {len al need : Nat} {glob : Bool} {tag : Nat → Nat}
    (h : s.MemOk) : OutOk (s.remoteSlot i f kind len al need glob tag) := by
  dsimp only [State.remoteSlot]
  split
  · split
    · exact h.issueSlot h.remoteIssue h.chamberGate
    · exact h.issueSlot h.laterT h.chamberGate
    · exact h.issueFix h h.missGate (fun _ => h.walkOnMiss)
  · exact h.issueSlot h.remoteIssue h.chamberGate

theorem State.MemOk.execWput {f : CF} (h : s.MemOk) : OutOk (execWput f s) := h.remoteSlot
theorem State.MemOk.execWget {f : CF} (h : s.MemOk) : OutOk (execWget f s) := h.remoteSlot

theorem State.MemOk.execWacc {f : CF} (h : s.MemOk) : OutOk (execWacc f s) := by
  unfold Machine.execWacc
  exact h.remoteSlot

theorem State.MemOk.execWamo {f : CF} (h : s.MemOk) : OutOk (execWamo f s) := by
  dsimp only [Machine.execWamo]
  exact h.remoteSlot

theorem State.MemOk.execWflush {f : CF} (h : s.MemOk) : OutOk (execWflush f s) := h.issueSlot h.closeCombine (waitOk_ite h.closeCombine)
theorem State.MemOk.execWcreate {f : CF} (h : s.MemOk) : OutOk (execWcreate f s) := h.issueNow h.unitScalar

theorem State.MemOk.execWfree {f : CF} (h : s.MemOk) : OutOk (execWfree f s) := by
  dsimp only [Machine.execWfree, State.newId]
  exact h.issueNow (h.same (by rfl)).landWaiting.schedule

theorem State.MemOk.execWtest {f : CF} (h : s.MemOk) : OutOk (execWtest f s) := h.issueNow h.land
theorem State.MemOk.execHinit {f : CF} (h : s.MemOk) : OutOk (execHinit f s) := h.issueNow h.schedule
theorem State.MemOk.execHtest {f : CF} (h : s.MemOk) : OutOk (execHtest f s) := h.issueNow h.land
theorem State.MemOk.execHread {f : CF} (h : s.MemOk) : OutOk (execHread f s) := h.issueNow h.land
theorem State.MemOk.execWaith {f : YF} (h : s.MemOk) : OutOk (execWaith f s) := h.issueSlot h.acquireTile (waitOk_ite h)
theorem State.MemOk.execPbind {f : CF} (h : s.MemOk) : OutOk (execPbind f s) := h.issueNow h.unitScalar
theorem State.MemOk.execPpush {f : TF} (h : s.MemOk) : OutOk (execPpush f s) := h.issueSlot h.markEffect.modPipe.schedule (waitOk_ite h)
theorem State.MemOk.execPeos {f : TF} (h : s.MemOk) : OutOk (execPeos f s) := h.issueNow h.markEffect.schedule

theorem State.MemOk.execPpop {f : LF} (h : s.MemOk) : OutOk (execPpop f s) := by
  dsimp only [Machine.execPpop]
  refine h.issueSlot (State.MemOk.land ?_) (waitOk_ite h)
  split
  · exact h.popEntry
  · exact h

end Sys2Proof.Machine
end

section
/-! SUPPORT. O59: tasks, casks, collectives, the fabric and the host keep memory in canonical form, and so every instruction. -/

namespace Sys2Proof.Machine

variable {s : State} {t : Tid}

theorem State.MemOk.execRootSlotCopy (h : s.MemOk) : OutOk (execRootSlotCopy s) := by
  dsimp only [Machine.execRootSlotCopy]
  split
  · exact (h.same (by rfl)).createTasks.next
  · exact h.next

theorem State.MemOk.execTaskReady (h : s.MemOk) : OutOk (execTaskReady s) := by
  unfold Machine.execTaskReady
  dsimp only
  split
  · exact h.next
  next e he =>
    have hp : ∀ r b, (s.setTask s.arg.n (some { e with st := r, since := b })).MemOk := fun r b =>
      h.putTask (e := { e with st := r, since := b }) fun k hk => shadowsOk_of_task h he k hk
    refine State.MemOk.next ?_
    split
    · exact hp _ _
    · split
      · exact hp _ _
      · exact h
    · exact h

theorem State.MemOk.execRedirectSwitch (h : s.MemOk) : OutOk (execRedirectSwitch s) := by
  unfold Machine.execRedirectSwitch
  dsimp only
  split
  · exact h.next
  next e he =>
    split
    · exact h.next
    · have hf := h.foldl (l := e.shadows.filter fun k => s.maySwitch e k) (f := fun s k => s.switchTile k) fun _ hs _ _ => hs.switchTile
      refine State.MemOk.next ?_
      split
      · exact hf.clearTask
      · exact hf.putTask fun k hk => shadowsOk_of_task h he k (List.mem_of_mem_filter hk)

theorem State.MemOk.execReachJobStart (h : s.MemOk) : OutOk (execReachJobStart s) := by
  unfold Machine.execReachJobStart
  refine (h.foldl (fun _ hs _ _ => ?_)).next
  split
  · split
    · exact hs.modTile (by rfl)
    · exact hs
  · exact hs

theorem State.MemOk.execPartNotReady (h : s.MemOk) : OutOk (execPartNotReady s) := by
  dsimp only [Machine.execPartNotReady]
  refine (h.foldl (fun _ hs _ _ => ?_)).next
  split
  · exact hs.failPart
  · exact hs

theorem State.MemOk.execCinc {f : CF} (h : s.MemOk) : OutOk (execCinc f s) := h.issueSlot h.relAct.markEffect.schedule h.relGate

theorem State.MemOk.execCread {f : CF} (h : s.MemOk) : OutOk (execCread f s) := by
  dsimp only [Machine.execCread, State.newId]
  exact h.issueNow (h.same (by rfl)).landWaiting.schedule

theorem State.MemOk.execCset {f : CF} (h : s.MemOk) : OutOk (execCset f s) := h.issueNow h.schedule
theorem State.MemOk.execWaitc {f : YF} (h : s.MemOk) : OutOk (execWaitc f s) := h.issueSlot h.acquireTile (waitOk_ite h)

theorem State.MemOk.execTeffect {f : CF} (h : s.MemOk) : OutOk (execTeffect f s) := by
  dsimp only [Machine.execTeffect]
  refine h.issueNow ?_
  split
  · exact h.land
  · exact h.schedule

theorem State.MemOk.execTspawn {f : CF} (h : s.MemOk) : OutOk (execTspawn f s) := h.issueSlot h.relAct.markEffect.unitScalar h.relGate

theorem State.MemOk.execSuspensionDrainEnd (h : s.MemOk) : OutOk (execSuspensionDrainEnd s) := by
  dsimp only [Machine.execSuspensionDrainEnd]
  split
  · refine State.MemOk.next (State.MemOk.plan (State.MemOk.schedule (State.MemOk.modTile ?_ (by rfl))))
    split
    · exact h.startRelease.modTask (by intro _; rfl)
    · exact h.startRelease
  · exact h.next

theorem State.MemOk.execCaskWritten (h : s.MemOk) : OutOk (execCaskWritten s) := by
  unfold Machine.execCaskWritten
  extract_lets t x out
  split
  · split
    · exact h.next
    · extract_lets st s₁ s₂ s₃ s₄ s₅
      have h₁ : s₁.MemOk := by
        unfold s₁
        split
        · exact h.foldl fun _ hs _ _ => hs.putCaskRow
        · exact h
      have h₃ : s₃.MemOk := State.MemOk.same (s := s₂) h₁.putCaskRow (by rfl)
      have h₅ : s₅.MemOk := by
        refine State.MemOk.modTile ?_ (by rfl)
        unfold s₄
        split
        · exact h₃.same (by rfl)
        · exact h₃.anchorOps
      refine State.MemOk.next ?_
      split
      · exact h₅.entrySuspended
      · split
        · exact h₅.gangHeader
        · exact h₅
  · exact h.next

theorem State.MemOk.execCaskNoticeLanding (h : s.MemOk) : OutOk (execCaskNoticeLanding s) := by
  unfold Machine.execCaskNoticeLanding
  extract_lets lvl code
  split
  · exact h.next
  next o _ =>
    extract_lets s₁
    have h₁ : s₁.MemOk := by
      unfold s₁
      split
      · exact h
      next a _ =>
        extract_lets s₂ s₃ s₄
        have h₂ : s₂.MemOk := h.caskHandle
        have h₄ : s₄.MemOk := by
          unfold s₄
          split
          · exact h₂.lowerOutst.lowerOutst
          · exact h₂.lowerOutst
        split
        · exact h₂
        · split
          · exact h₄
          · exact h₄.same (by rfl)
    exact OutOk.ite h.next h₁.modOp.next

theorem State.MemOk.execSusp {f : YF} (h : s.MemOk) : OutOk (execSusp f s) := by
  dsimp only [Machine.execSusp]
  exact h.suspSlot (fun _ => h.onTile (by rfl)) (waitOk_ite h)

theorem State.MemOk.execSuspg {f : YF} (h : s.MemOk) : OutOk (execSuspg f s) := by
  dsimp only [Machine.execSuspg]
  exact h.suspSlot (fun _ => h.startRelease.onTile (by rfl)) (waitOk_ite h)

theorem State.MemOk.preempted {u : Susp} (h : s.MemOk) :
    (s.modTile t fun x => { x with susp := some u, atYield := false, preempt := false }).MemOk := h.modTile (by rfl)

theorem State.MemOk.execPreemption (h : s.MemOk) : OutOk (execPreemption s) := by
  unfold Machine.execPreemption
  extract_lets t x n u
  clear_value u n
  split
  · exact h.next
  · exact h.walkLogs.preempted.next

theorem State.MemOk.execYield {f : YF} (h : s.MemOk) : OutOk (execYield f s) := by
  dsimp only [Machine.execYield]
  refine h.issueNow ?_
  split
  · refine State.MemOk.onTile ?_ (by rfl)
    split
    · exact h.cede
    · exact h
  · exact h

theorem State.MemOk.execRsm {f : YF} (h : s.MemOk) : OutOk (execRsm f s) := by
  unfold Machine.execRsm
  extract_lets x a own src walk
  have hw : walk.MemOk := h.startWalk
  split
  · exact h.issueFix h.startHalt waitOk_none fun _ => h.onTile (by rfl)
  · split
    · extract_lets c go
      have ho : OutOk (s.issueSlot (.rsm f) [] (x.yCond f) own none go) := h.issueNow (h.onTile (by rfl)).plan
      split
      next r hr =>
        refine State.MemOk.next ?_
        split
        · exact (ho r hr).note
        · exact ho r hr
      next => exact ho
    · exact h.issueNow h
    · refine h.issueFix h ?_ fun _ => ?_
      · split
        · exact waitOk_none
        · exact waitOk_some hw
      · split
        · exact hw
        · exact h

theorem State.MemOk.execRsmClaim (h : s.MemOk) : OutOk (execRsmClaim s) := by
  unfold Machine.execRsmClaim
  extract_lets t x finish src wait
  have hf : ∀ (c : Claim) (s : State), s.MemOk → (finish c s).MemOk := fun c s hs => (hs.modTile (by rfl)).schedule
  have hw : wait.MemOk := h.plan
  split
  · exact h.next
  · split
    · exact h.next
    · extract_lets r anchored
      refine State.MemOk.next ?_
      split
      · exact hw
      · split
        · exact hf _ _ h
        · split
          · exact hw
          · exact hf _ _ h.claimed

theorem State.MemOk.execTaskRetire (h : s.MemOk) : OutOk (execTaskRetire s) := by
  dsimp only [Machine.execTaskRetire]
  split
  · refine State.MemOk.next ?_
    split
    · exact h.failTile
    · split
      · exact h.failTile
      · split
        · exact h.retire
        · exact h.retire.handOver
  · exact h.next

theorem State.MemOk.execRestoreComplete (h : s.MemOk) : OutOk (execRestoreComplete s) := by
  dsimp only [Machine.execRestoreComplete]
  split
  · split
    · exact h.next
    · split
      · exact (h.modTile (by rfl)).next
      · refine State.MemOk.next (State.MemOk.restoreTile ?_)
        split
        · exact h.setHeader
        · exact h
  · refine State.MemOk.next ?_
    split
    · exact h.modTile (by rfl)
    · exact h

theorem insGang_sub {g : List (Nat × TaskEnt)} {before : TaskEnt → TaskEnt → Bool} {l : List (List (Nat × TaskEnt))} :
    ∀ k ∈ insGang g before l, k = g ∨ k ∈ l := by
  induction l with
  | nil => simp [insGang]
  | cons a l ih =>
    intro k hk
    unfold insGang at hk
    split at hk
    · split at hk
      · rcases List.mem_cons.mp hk with rfl | hk
        · simp
        · exact (ih k hk).imp_right fun h => List.mem_cons_of_mem _ h
      · exact List.mem_cons.mp hk
    · exact List.mem_cons.mp hk

theorem gangs_sub {g : List (Nat × TaskEnt)} (hg : g ∈ s.gangs) : ∀ e ∈ g, e ∈ s.taskList := by
  have key : ∀ (l : List Nat) (acc : List (List (Nat × TaskEnt))), (∀ k ∈ acc, ∀ e ∈ k, e ∈ s.taskList) → ∀ k ∈ l.foldl (fun acc o =>
      insGang (s.liveGang o) (fun a b => decide (b.pri < a.pri) || (a.pri == b.pri && decide (a.place ≤ b.place))) acc) acc,
      ∀ e ∈ k, e ∈ s.taskList := by
    intro l
    induction l with
    | nil => exact fun _ h => h
    | cons o l ih =>
      refine fun acc ha => ih _ fun k hk => ?_
      rcases insGang_sub k hk with rfl | hk
      · exact fun e he => List.mem_of_mem_filter (List.mem_of_mem_filter he)
      · exact ha k hk
  exact key _ [] (by simp) g hg

theorem pickGang_mem {l : List (List (Nat × TaskEnt))} {p : List Nat} {q : List (Nat × TaskEnt) × List Nat}
    (hq : s.pickGang l p = some q) : q.1 ∈ l := by
  induction l generalizing p with
  | nil => cases hq
  | cons g l ih =>
    unfold State.pickGang at hq
    split at hq
    · cases hq
      exact List.mem_cons_self
    · split at hq
      · cases hq
      · exact List.mem_cons_of_mem _ (ih hq)

theorem nextStart_sub {g : List (Nat × TaskEnt)} {p : List Nat} (hg : s.nextStart = some (g, p)) : ∀ e ∈ g, e ∈ s.taskList := by
  unfold State.nextStart at hg
  dsimp only at hg
  split at hg
  next k hk =>
    cases hg
    exact gangs_sub (List.mem_of_find?_eq_some hk)
  next => exact gangs_sub (List.mem_of_mem_filter (pickGang_mem hg))

theorem State.MemOk.execTaskStart (h : s.MemOk) : OutOk (execTaskStart s) := by
  unfold Machine.execTaskStart
  dsimp only
  split
  · exact h.next
  next hg =>
    split
    · exact h.next
    · exact State.MemOk.next (State.MemOk.startGang (fun e he => shadowsOk_of_mem h (nextStart_sub hg e he))
        (h.foldl fun _ hs _ _ => hs.modTask (by intro _; rfl)))

theorem State.MemOk.execCaskdup {f : CF} (h : s.MemOk) : OutOk (execCaskdup f s) := by
  dsimp only [Machine.execCaskdup, State.newId]
  split
  · exact h.globalNow (fun _ => (h.same (by rfl)).landWaiting.schedule)
  · exact h.globalNow (fun _ => (h.same (by rfl)).landWaiting.schedule)

theorem State.MemOk.caskSlot {i : Instr} {f : CF} {need : Nat} {ev : Nat → Nat → Ev} (h : s.MemOk) : OutOk (s.caskSlot i f need ev) := by
  dsimp only [State.caskSlot, State.newId]
  exact h.globalNow (fun _ => (h.same (by rfl)).landWaiting.schedule)

theorem State.MemOk.execCaskdisc {f : CF} (h : s.MemOk) : OutOk (execCaskdisc f s) := h.caskSlot
theorem State.MemOk.execCaskq {f : CF} (h : s.MemOk) : OutOk (execCaskq f s) := h.caskSlot

theorem State.MemOk.execCaskdupCopyDone (h : s.MemOk) : OutOk (execCaskdupCopyDone s) := by
  dsimp only [Machine.execCaskdupCopyDone]
  split
  · exact h.next
  · exact ((h.same (by rfl)).putCaskRow.setHeader.setHeader.setHeader.modTile (by rfl)).next

theorem State.MemOk.execVred {f : VF} (h : s.MemOk) : OutOk (execVred f s) := h.issueNow h.vLandF
theorem State.MemOk.execVscan {f : VF} (h : s.MemOk) : OutOk (execVscan f s) := h.issueNow h.vLandF
theorem State.MemOk.execVsegscan {f : VF} (h : s.MemOk) : OutOk (execVsegscan f s) := h.issueNow h.vLandF
theorem State.MemOk.execVrec {f : VF} (h : s.MemOk) : OutOk (execVrec f s) := h.issueNow h.vLandF
theorem State.MemOk.sfu {i : Instr} {f : VF} {k : Sfu} (h : s.MemOk) : OutOk (s.sfu i f k) := h.vOp1
theorem State.MemOk.execVrcp {f : VF} (h : s.MemOk) : OutOk (execVrcp f s) := h.sfu
theorem State.MemOk.execVrsq {f : VF} (h : s.MemOk) : OutOk (execVrsq f s) := h.sfu
theorem State.MemOk.execVexp2 {f : VF} (h : s.MemOk) : OutOk (execVexp2 f s) := h.sfu
theorem State.MemOk.execVlog2 {f : VF} (h : s.MemOk) : OutOk (execVlog2 f s) := h.sfu
theorem State.MemOk.execVexp {f : VF} (h : s.MemOk) : OutOk (execVexp f s) := h.sfu
theorem State.MemOk.execVtanh {f : VF} (h : s.MemOk) : OutOk (execVtanh f s) := h.sfu
theorem State.MemOk.execVsigm {f : VF} (h : s.MemOk) : OutOk (execVsigm f s) := h.sfu
theorem State.MemOk.execVsint {f : VF} (h : s.MemOk) : OutOk (execVsint f s) := h.sfu
theorem State.MemOk.execVcost {f : VF} (h : s.MemOk) : OutOk (execVcost f s) := h.sfu
theorem State.MemOk.execVsqrt {f : VF} (h : s.MemOk) : OutOk (execVsqrt f s) := h.vOp1
theorem State.MemOk.execVdiv {f : VF} (h : s.MemOk) : OutOk (execVdiv f s) := h.vOp2
theorem State.MemOk.execClassMEvent (h : s.MemOk) : OutOk (execClassMEvent s) := h.raiseM.next
theorem State.MemOk.execSync {f : YF} (h : s.MemOk) : OutOk (execSync f s) := h.issueNow (h.startRelease.onTile (by rfl))

theorem State.MemOk.execSyncArrival (h : s.MemOk) : OutOk (execSyncArrival s) := by
  dsimp only [Machine.execSyncArrival]
  split
  · exact h.next
  · exact (h.modTile (by rfl)).planRestart.next

theorem State.MemOk.execSyncRestart (h : s.MemOk) : OutOk (execSyncRestart s) := h.restartTiles.next

theorem State.MemOk.execSyncResult (h : s.MemOk) : OutOk (execSyncResult s) := by
  dsimp only [Machine.execSyncResult]
  split
  · exact h.portM.next
  · split
    · exact h.next
    · refine (h.foldl (fun _ hs _ _ => ?_)).next
      split
      · exact hs
      · split
        · exact hs.restartTiles
        · exact hs.plan

theorem State.MemOk.execTowpathPartial (h : s.MemOk) : OutOk (execTowpathPartial s) := by
  dsimp only [Machine.execTowpathPartial]
  split
  · exact h.event.next
  · split
    · exact h.event.next
    · exact h.takePart.next

theorem State.MemOk.execChunkStaging (h : s.MemOk) : OutOk (execChunkStaging s) := by
  unfold Machine.execChunkStaging
  refine State.MemOk.next ?_
  split
  · exact h
  · exact h.stageNext

theorem State.MemOk.execStreamStaging (h : s.MemOk) : OutOk (execStreamStaging s) := by
  unfold Machine.execStreamStaging
  refine State.MemOk.next ?_
  split
  · exact h
  · exact h.streamStage

theorem State.MemOk.execLaunchNotice (h : s.MemOk) : OutOk (execLaunchNotice s) := by
  dsimp only [Machine.execLaunchNotice]
  split
  · exact (h.same (by rfl)).next
  · split
    · exact ((h.same (by rfl)).foldl (fun _ hs _ _ => hs.collSend)).next
    · split
      · exact (h.same (by rfl)).next
      · exact (h.same (by rfl)).collSend.next

theorem State.MemOk.execReservationRequest (h : s.MemOk) : OutOk (execReservationRequest s) := ((h.same (by rfl)).serveGrants _).next

theorem State.MemOk.execReservationGrant (h : s.MemOk) : OutOk (execReservationGrant s) := by
  dsimp only [Machine.execReservationGrant]
  split
  · exact h.collSend.next
  · exact (h.foldl (fun _ hs _ _ => hs.collSend)).next

theorem State.MemOk.execGo (h : s.MemOk) : OutOk (execGo s) := by
  dsimp only [Machine.execGo]
  split
  · exact h.next
  · split
    · exact h.failColl.next
    · refine State.MemOk.next ?_
      split
      · exact h.modColl.opLevel.foldl (fun _ hs _ _ => hs.stageNext)
      · exact h.modColl.opLevel.opLevel.finishColl

theorem State.MemOk.execColl {f : CF} (h : s.MemOk) : OutOk (execColl f s) := by
  unfold Machine.execColl
  extract_lets x a addr r errs own g s₁ go
  have hg : WaitOk g.2 := h.collGate
  have hgo : ∀ pages, (go pages).MemOk := by
    intro pages
    dsimp only [go]
    split
    · exact h.relAct.markEffect.collLaunch
    · exact h.relAct.markEffect.schedule
  split
  · split
    · exact h.issueSlot (hgo _) hg
    · exact h.issueSlot h.laterT hg
    · exact h.issueFix h h.missGate fun _ => h.walkOnMiss
  · exact h.issueSlot (hgo _) hg

theorem State.MemOk.execLinkFailureTimeout (h : s.MemOk) :
    OutOk (execLinkFailureTimeout s) := (((h.same (by rfl)).foldl (fun _ hs _ _ => hs.opFail)).foldl (fun _ hs _ _ => hs.failColl)).next

theorem State.MemOk.execLaneLockLoss (h : s.MemOk) : OutOk (execLaneLockLoss s) := by
  unfold Machine.execLaneLockLoss
  refine State.MemOk.next ?_
  split
  · exact h.failFar
  · split
    · exact h.failLink
    · exact h

theorem State.MemOk.execReferenceLockLoss (h : s.MemOk) :
    OutOk (execReferenceLockLoss s) := (h.portM.foldl (fun _ hs _ _ => hs.failLink)).next

theorem State.MemOk.execLaneLock (h : s.MemOk) : OutOk (execLaneLock s) := by
  unfold Machine.execLaneLock
  refine State.MemOk.next ?_
  split
  · exact h.bringUpFar
  · split
    · exact h.setLink
    · exact h

theorem State.MemOk.execTrainingTimeout (h : s.MemOk) : OutOk (execTrainingTimeout s) := by
  dsimp only [Machine.execTrainingTimeout]
  refine State.MemOk.next ?_
  split
  · exact h.failLink
  · exact h

theorem State.MemOk.execAlignment (h : s.MemOk) : OutOk (execAlignment s) := by
  dsimp only [Machine.execAlignment]
  refine State.MemOk.next ?_
  split
  · split
    · exact h.setLink.startExchange
    · exact h.failLink
  · exact h

theorem State.MemOk.execKeyExchange (h : s.MemOk) : OutOk (execKeyExchange s) := by
  dsimp only [Machine.execKeyExchange]
  refine State.MemOk.next ?_
  split
  · split
    · split
      · exact h
      · exact h.answerExchange.modPort
    · exact h.failLink
  · split
    · exact h.answerExchange.modPort
    · exact h
  · split
    · exact h.answerExchange.modPort
    · exact h
  · exact h

theorem State.MemOk.execRekeyStart (h : s.MemOk) : OutOk (execRekeyStart s) := by
  dsimp only [Machine.execRekeyStart]
  refine State.MemOk.next ?_
  split
  · exact h.modPort.startExchange
  · exact h

theorem State.MemOk.execRekeyCommit (h : s.MemOk) : OutOk (execRekeyCommit s) := by
  dsimp only [Machine.execRekeyCommit]
  refine State.MemOk.next ?_
  split
  · exact h
  · split
    · exact h.modPort
    · split
      · exact h.failLink
      · exact h

theorem State.MemOk.execEpoch (h : s.MemOk) : OutOk (execEpoch s) := by
  dsimp only [Machine.execEpoch]
  refine State.MemOk.next ?_
  split
  · split
    · exact h.same (by rfl)
    · exact h
  · exact h.same (by rfl)

theorem State.MemOk.execTableActivation (h : s.MemOk) : OutOk (execTableActivation s) := by
  dsimp only [Machine.execTableActivation]
  split
  · exact h.next
  · split
    · exact h.next
    · split
      · exact h.modPort.event.next
      · exact (h.same (by rfl)).modPort.next

theorem State.MemOk.execFabricSlot (h : s.MemOk) : OutOk (execFabricSlot s) := by
  dsimp only [Machine.execFabricSlot]
  refine State.MemOk.next ?_
  split
  · exact h.leave
  · exact h.authSlot
  · exact h.countSlot.sendMgmt
  · split
    · exact h.countSlot.sendMgmt
    · split
      · exact h.countSlot.sendMgmt
      · split
        · exact h.countSlot.slotFlit
        · exact h.countSlot.slotFlit.noteLink.leave
  · exact h

theorem State.MemOk.execStandingFlitArrival (h : s.MemOk) : OutOk (execStandingFlitArrival s) := h.standingArrive.next

theorem State.MemOk.execAcknowledgementOnly (h : s.MemOk) : OutOk (execAcknowledgementOnly s) := by
  unfold Machine.execAcknowledgementOnly
  split
  · exact h.acked.next
  · split
    · exact h.next
    · exact h.takeAck.next

theorem State.MemOk.execScheduledFlitArrival (h : s.MemOk) : OutOk (execScheduledFlitArrival s) := by
  unfold Machine.execScheduledFlitArrival
  extract_lets p f
  split
  · exact h.next
  · extract_lets e sid st good s₁ f₁
    have h₁ : s₁.MemOk := by
      unfold s₁
      split
      · exact h
      · refine State.MemOk.event ?_
        split
        · exact h.tagFailure
        · exact h
    split
    · exact h.next
    · refine State.MemOk.next ?_
      split
      · exact h₁.streamArrive
      · split
        · exact h₁.standingArrive
        · split
          · split
            · exact h₁
            · exact h₁.askResend
          · exact h₁
      · exact h₁.plan
      · exact h₁

theorem reset_memOk : State.reset.MemOk := Tests.witness_EveryStepKeepsMemory.1
theorem State.MemOk.execPowerUp : OutOk (execPowerUp s) := State.MemOk.next (State.MemOk.same reset_memOk rfl)
theorem State.MemOk.execAttestation (h : s.MemOk) : OutOk (execAttestation s) := (h.same (by rfl)).next

theorem State.MemOk.execRootrec (h : s.MemOk) : OutOk (execRootrec s) := by
  unfold Machine.execRootrec
  refine h.hosted ?_
  split
  · exact h.modHost
  · exact h.hostEvent

theorem State.MemOk.execRootarm (h : s.MemOk) : OutOk (execRootarm s) := by
  unfold Machine.execRootarm
  refine h.hosted ?_
  split
  · exact h.hostEvent
  · split
    · exact h.hostEvent
    · extract_lets s₁
      have h₁ : s₁.MemOk := h.modHost
      split
      · exact h₁
      · exact h₁.plan

theorem State.MemOk.execRpool (h : s.MemOk) : OutOk (execRpool s) := by
  dsimp only [Machine.execRpool]
  refine h.hosted ?_
  split
  · exact h.hostEvent
  · exact h.modHost

theorem State.MemOk.execEqbase (h : s.MemOk) : OutOk (execEqbase s) := h.hosted h.modHost
theorem State.MemOk.execEqsize (h : s.MemOk) : OutOk (execEqsize s) := h.hosted h.modHost

theorem State.MemOk.execRjstart (h : s.MemOk) : OutOk (execRjstart s) := by
  unfold Machine.execRjstart
  refine h.hosted ?_
  split
  · exact h
  · exact h.modHost

theorem State.MemOk.execRjctlArm (h : s.MemOk) : OutOk (execRjctlArm s) := by
  dsimp only [Machine.execRjctlArm]
  refine h.hosted ?_
  split
  · exact h
  · split
    · exact h.modHost.hostEvent
    · exact h.modHost

theorem State.MemOk.execRjctlDisarm (h : s.MemOk) : OutOk (execRjctlDisarm s) := h.hosted h.modHost
theorem State.MemOk.execHostRegisterWrite (h : s.MemOk) : OutOk (execHostRegisterWrite s) := h.hosted h.modHost

theorem State.MemOk.execHostCommandDone (h : s.MemOk) : OutOk (execHostCommandDone s) := by
  unfold Machine.execHostCommandDone
  refine State.MemOk.next ?_
  split
  · exact h.modHost
  · exact h

theorem State.MemOk.execCmdOtherCode (h : s.MemOk) : OutOk (execCmdOtherCode s) := by
  unfold Machine.execCmdOtherCode
  refine h.hosted ?_
  split
  · exact h.hostEvent
  · exact h.modHost

theorem State.MemOk.execInvalidatePage (h : s.MemOk) : OutOk (execInvalidatePage s) := by
  dsimp only [Machine.execInvalidatePage]
  refine h.command' (fun _ hs => ?_)
  dsimp only
  exact hs.invalidate

theorem State.MemOk.execInvalidateDomain (h : s.MemOk) : OutOk (execInvalidateDomain s) := by
  unfold Machine.execInvalidateDomain
  refine h.command' (fun _ hs => ?_)
  dsimp only
  exact hs.invalidate

theorem State.MemOk.execInvalidateAll (h : s.MemOk) : OutOk (execInvalidateAll s) := by
  unfold Machine.execInvalidateAll
  refine h.command' (fun _ hs => ?_)
  dsimp only
  exact hs.invalidate

theorem State.MemOk.execDebugStop (h : s.MemOk) : OutOk (execDebugStop s) := by
  unfold Machine.execDebugStop
  refine h.command' (fun _ hs => ?_)
  dsimp only
  exact hs.modHost

theorem State.MemOk.execDebugResume (h : s.MemOk) : OutOk (execDebugResume s) := by
  dsimp only [Machine.execDebugResume]
  refine h.command' (fun _ hs => ?_)
  split
  · dsimp only
    exact hs.modTile (by rfl)
  · exact hs

theorem State.MemOk.execReadState (h : s.MemOk) : OutOk (execReadState s) := by
  dsimp only [Machine.execReadState]
  refine h.command' (fun _ hs => ?_)
  split
  · dsimp only
    exact hs.modHost
  · exact hs

theorem State.MemOk.execWriteState (h : s.MemOk) : OutOk (execWriteState s) := by
  dsimp only [Machine.execWriteState]
  refine h.command' (fun _ hs => ?_)
  split
  · dsimp only
    exact hs.modTile (putSelected_pad _ _ _)
  · exact hs

theorem State.MemOk.execFreeFailedTask (h : s.MemOk) : OutOk (execFreeFailedTask s) := by
  dsimp only [Machine.execFreeFailedTask]
  refine h.command' (fun _ hs => ?_)
  split
  · split
    · dsimp only
      exact hs.clearTask
    · exact hs
  · exact hs

theorem State.MemOk.execLinkBringUp (h : s.MemOk) : OutOk (execLinkBringUp s) := by
  dsimp only [Machine.execLinkBringUp]
  refine h.command' (fun _ hs => ?_)
  split
  · exact hs
  · split
    · exact hs
    · split
      · dsimp only
        exact hs.setLink.plan
      · exact hs

theorem State.MemOk.execLoadShadowDepartureTable (h : s.MemOk) : OutOk (execLoadShadowDepartureTable s) := by
  dsimp only [Machine.execLoadShadowDepartureTable]
  refine h.command' (fun _ hs => ?_)
  split
  · exact hs
  · split
    · dsimp only
      exact hs.event
    · split
      · dsimp only
        exact hs.event
      · dsimp only
        exact hs.modPort

theorem State.MemOk.execSetCounter (h : s.MemOk) : OutOk (execSetCounter s) := by
  unfold Machine.execSetCounter
  refine h.command' (fun _ hs => ?_)
  dsimp only
  exact hs.setCounter

theorem State.MemOk.execReadCounter (h : s.MemOk) : OutOk (execReadCounter s) := by
  dsimp only [Machine.execReadCounter]
  refine h.command' (fun _ hs => ?_)
  dsimp only
  exact hs.modHost

theorem State.MemOk.execEndReachJob (h : s.MemOk) : OutOk (execEndReachJob s) := by
  dsimp only [Machine.execEndReachJob]
  refine h.command' (fun _ hs => ?_)
  split
  · exact hs
  · dsimp only
    exact hs.endJob

theorem State.MemOk.execApertureRead (h : s.MemOk) : OutOk (execApertureRead s) := by
  unfold Machine.execApertureRead
  extract_lets a n
  split
  · exact h.next
  · split
    · exact outOk_fault
    · refine State.MemOk.next (h.foldl fun _ hs _ _ => ?_)
      extract_lets v s₁
      refine State.MemOk.modHost ?_
      unfold s₁
      split
      · exact hs.hostEvent
      · exact hs

theorem State.MemOk.execApertureWrite (h : s.MemOk) : OutOk (execApertureWrite s) := by
  dsimp only [Machine.execApertureWrite]
  split
  · exact h.next
  · split
    · exact outOk_fault
    · exact h.memWrites.modHost.next

theorem State.MemOk.execPowerMeasurement (h : s.MemOk) : OutOk (execPowerMeasurement s) := by
  dsimp only [Machine.execPowerMeasurement]
  refine State.MemOk.next ?_
  split
  · exact h
  · split
    · exact h.modHost
    · split
      · exact h.throttle.modHost
      · split
        · exact h.modHost.plan
        · exact h.modHost

theorem State.MemOk.execThrottleEnd (h : s.MemOk) : OutOk (execThrottleEnd s) := by
  unfold Machine.execThrottleEnd
  refine (h.foldl (fun _ hs _ _ => hs.modTile ?_)).next
  split
  · split
    · rfl
    · rfl
  · rfl

theorem State.MemOk.execEmergencyPowerStop (h : s.MemOk) :
    OutOk (execEmergencyPowerStop s) := (((h.event.foldl (fun _ hs _ _ => hs.raiseM)).foldl (fun _ hs _ _ => hs.failUnstarted)).modHost).next

theorem State.MemOk.execFreezeEnd (h : s.MemOk) : OutOk (execFreezeEnd s) := by
  dsimp only [Machine.execFreezeEnd]
  refine State.MemOk.next ?_
  split
  · split
    · exact h.thaw
    · exact h
  · exact h

/-- Every instruction and every event keeps memory in canonical form. -/
theorem State.MemOk.exec (h : s.MemOk) (i : Instr) : OutOk (exec i s) := by
  cases i with
  | nop _ => exact h.acted
  | add _ | sub _ | mul _ | mulhi _ | mulhn _ | and _ | or _ | xor _ | andn _ | shl _ | shr _ | sra _ | rol _ | mini _ | maxi _ | minn _
  | maxn _ | adds _ | subs _ | bfx _ => exact h.sBin
  | divi _ | divn _ | remi _ | remn _ => exact h.sDiv
  | bfi _ => exact h.execBfi
  | cmp _ => exact h.execCmp
  | sel _ => exact h.execSel
  | addImmediate _ | subImmediate _ | mulImmediate _ | mulhiImmediate _ | mulhnImmediate _ | andImmediate _ | orImmediate _
  | xorImmediate _ | andnImmediate _ | shlImmediate _ | shrImmediate _ | sraImmediate _ | rolImmediate _ | miniImmediate _
  | maxiImmediate _ | minnImmediate _ | maxnImmediate _ | addsImmediate _ | subsImmediate _ | bfxImmediate _ => exact h.sBinImm
  | diviImmediate _ | divnImmediate _ | remiImmediate _ | remnImmediate _ => exact h.sDivImm
  | bfiImmediate _ => exact h.execBfiImmediate
  | cmpImmediate _ => exact h.execCmpImmediate
  | selImmediate _ => exact h.execSelImmediate
  | movi _ => exact h.execMovi
  | movhi _ => exact h.execMovhi
  | clz _ | ctz _ | popc _ | brev _ | sext _ => exact h.sUn
  | pand _ | por _ | pxor _ | pandn _ => exact h.sPred2
  | pnot _ => exact h.execPnot
  | pcnt _ => exact h.execPcnt
  | pfirst _ => exact h.execPfirst
  | plast _ => exact h.execPlast
  | pfrom _ => exact h.execPfrom
  | plen _ => exact h.execPlen
  | ptos _ => exact h.execPtos
  | mfsr _ => exact h.execMfsr
  | mtsr _ => exact h.execMtsr
  | rinj _ => exact h.execRinj
  | vadd _ => exact h.execVadd
  | vsub _ => exact h.execVsub
  | vmul _ => exact h.execVmul
  | vfma _ => exact h.execVfma
  | vfms _ => exact h.execVfms
  | vfnma _ => exact h.execVfnma
  | vmin _ => exact h.execVmin
  | vmax _ => exact h.execVmax
  | vminn _ => exact h.execVminn
  | vmaxn _ => exact h.execVmaxn
  | vabs _ => exact h.execVabs
  | vneg _ => exact h.execVneg
  | vabd _ => exact h.execVabd
  | vadds _ => exact h.execVadds
  | vsubs _ => exact h.execVsubs
  | vmulh _ => exact h.execVmulh
  | vdot4 _ => exact h.execVdot4
  | vavg _ => exact h.execVavg
  | vclamp _ => exact h.execVclamp
  | vand _ => exact h.execVand
  | vor _ => exact h.execVor
  | vxor _ => exact h.execVxor
  | vandn _ => exact h.execVandn
  | vnot _ => exact h.execVnot
  | vshl _ => exact h.execVshl
  | vshr _ => exact h.execVshr
  | vsra _ => exact h.execVsra
  | vrol _ => exact h.execVrol
  | vpopc _ => exact h.execVpopc
  | vclz _ => exact h.execVclz
  | vcmp _ => exact h.execVcmp
  | vclass _ => exact h.execVclass
  | vsel _ => exact h.execVsel
  | vmov _ => exact h.execVmov
  | vmovi _ => exact h.execVmovi
  | vext _ => exact h.execVext
  | vins _ => exact h.execVins
  | vcvt _ => exact h.execVcvt
  | vqnt _ => exact h.execVqnt
  | vdqnt _ => exact h.execVdqnt
  | vpack _ => exact h.execVpack
  | vunpk _ => exact h.execVunpk
  | vperm _ => exact h.execVperm
  | vshuf _ => exact h.execVshuf
  | vslide _ => exact h.execVslide
  | vbcast _ => exact h.execVbcast
  | vcomp _ => exact h.execVcomp
  | vexpd _ => exact h.execVexpd
  | vred _ => exact h.execVred
  | vscan _ => exact h.execVscan
  | vsegscan _ => exact h.execVsegscan
  | vrec _ => exact h.execVrec
  | vmacw _ => exact h.execVmacw
  | zmovn _ => exact h.execZmovn
  | zmovw _ => exact h.execZmovw
  | vrcp _ => exact h.execVrcp
  | vrsq _ => exact h.execVrsq
  | vsqrt _ => exact h.execVsqrt
  | vdiv _ => exact h.execVdiv
  | vexp2 _ => exact h.execVexp2
  | vlog2 _ => exact h.execVlog2
  | vexp _ => exact h.execVexp
  | vtanh _ => exact h.execVtanh
  | vsigm _ => exact h.execVsigm
  | vsint _ => exact h.execVsint
  | vcost _ => exact h.execVcost
  | vrchk _ => exact h.execVrchk
  | mldb _ | mldbt _ => exact h.mLoad
  | mma _ | mmaz _ | mrowsum _ => exact h.mStream
  | mmac _ | mzero _ | mzset _ | mzpc _ | mdrain _ | mzld _ => exact h.mIssue
  | mxsave _ => exact h.execMxsave
  | mxrest _ => exact h.execMxrest
  | vld _ | vldb _ => exact h.padRun
  | vlds _ | vldg _ => exact h.padMany
  | lds _ | pld _ => exact h.padLoad
  | gld _ => exact h.execGld
  | gldv _ => exact h.execGldv
  | ppop _ => exact h.execPpop
  | ldtag _ => exact h.execLdtag
  | gpref _ => exact h.execGpref
  | vst _ | vsts _ | vstx _ | sts _ | pst _ => exact h.padStore
  | gst _ => exact h.execGst
  | gstv _ => exact h.execGstv
  | aadd _ | aaddf _ | amin _ | amax _ | aand _ | aor _ | axor _ | aswp _ | acas _ => exact h.amoSlot
  | ppush _ => exact h.execPpush
  | peos _ => exact h.execPeos
  | sttag _ => exact h.execSttag
  | gflush _ => exact h.execGflush
  | cloop _ => exact h.execCloop
  | cbase _ => exact h.execCbase
  | cgo _ => exact h.execCgo
  | cstop _ => exact h.execCstop
  | cquery _ => exact h.execCquery
  | tbind _ => exact h.execTbind
  | tunbind _ => exact h.execTunbind
  | tflush _ => exact h.execTflush
  | wcreate _ => exact h.execWcreate
  | wfree _ => exact h.execWfree
  | wfence _ => exact h.execWfence
  | wpost _ => exact h.execWpost
  | wstart _ => exact h.execWstart
  | wcompl _ => exact h.execWcompl
  | wdone _ => exact h.execWdone
  | wlock _ => exact h.execWlock
  | wunlock _ => exact h.execWunlock
  | wput _ => exact h.execWput
  | wget _ => exact h.execWget
  | wacc _ => exact h.execWacc
  | wamo _ => exact h.execWamo
  | wflush _ => exact h.execWflush
  | wtest _ => exact h.execWtest
  | hinit _ => exact h.execHinit
  | htest _ => exact h.execHtest
  | hread _ => exact h.execHread
  | coll _ => exact h.execColl
  | cinc _ => exact h.execCinc
  | cread _ => exact h.execCread
  | cset _ => exact h.execCset
  | tspawn _ => exact h.execTspawn
  | pbind _ => exact h.execPbind
  | teffect _ => exact h.execTeffect
  | caskdup _ => exact h.execCaskdup
  | caskdisc _ => exact h.execCaskdisc
  | caskq _ => exact h.execCaskq
  | br _ => exact h.execBr
  | brp _ => exact h.execBrp
  | brs _ => exact h.execBrs
  | jr _ => exact h.execJr
  | call _ => exact h.execCall
  | callr _ => exact h.execCallr
  | ret _ => exact h.execRet
  | loop _ => exact h.execLoop
  | loopi _ => exact h.execLoopi
  | sync _ => exact h.execSync
  | waitc _ => exact h.execWaitc
  | waith _ => exact h.execWaith
  | fence _ => exact h.execFence
  | yield _ => exact h.execYield
  | susp _ => exact h.execSusp
  | suspg _ => exact h.execSuspg
  | rsm _ => exact h.execRsm
  | trap _ => exact h.execTrap
  | eret _ => exact h.execEret
  | halt _ => exact h.execHalt
  | bkpt _ => exact h.execBkpt
  | tileCycle => exact h.execTileCycle
  | freezeEnd => exact h.execFreezeEnd
  | l1Fill => exact h.execL1Fill
  | ownershipGrant => exact h.execOwnershipGrant
  | revocation => exact h.execRevocation
  | globalAtomicReturn => exact h.execGlobalAtomicReturn
  | translationWalkEnd => exact h.execTranslationWalkEnd
  | fetchLineArrival => exact h.execFetchLineArrival
  | copyEmission => exact h.execCopyEmission
  | lateRowWrite => exact h.execLateRowWrite
  | writeQueueRowWrite => exact h.execWriteQueueRowWrite
  | delayedSourceRead => exact h.execDelayedSourceRead
  | putRequest => exact h.execPutRequest
  | getRequest => exact h.execGetRequest
  | accumulateRequest => exact h.execAccumulateRequest
  | taggedAccumulate => exact h.execTaggedAccumulate
  | atomicRequest => exact h.execAtomicRequest
  | futureFill => exact h.execFutureFill
  | remoteApply => exact h.execRemoteApply
  | getData => exact h.execGetData
  | atomicOldValue => exact h.execAtomicOldValue
  | notices => exact h.execNotices
  | acknowledgementOnly => exact h.execAcknowledgementOnly
  | post => exact h.execPost
  | completion => exact h.execCompletion
  | fenceArrival => exact h.execFenceArrival
  | fenceDone => exact h.execFenceDone
  | lockRequest => exact h.execLockRequest
  | grant => exact h.execGrant
  | release => exact h.execRelease
  | completionNoticeSend => exact h.execCompletionNoticeSend
  | fenceArrivalSend => exact h.execFenceArrivalSend
  | releaseSend => exact h.execReleaseSend
  | chamberQueueTimeout => exact h.execChamberQueueTimeout
  | windowEntryFreed => exact h.execWindowEntryFreed
  | fabricSlot => exact h.execFabricSlot
  | standingFlitArrival => exact h.execStandingFlitArrival
  | scheduledFlitArrival => exact h.execScheduledFlitArrival
  | syncResult => exact h.execSyncResult
  | epoch => exact h.execEpoch
  | referenceLockLoss => exact h.execReferenceLockLoss
  | laneLock => exact h.execLaneLock
  | trainingTimeout => exact h.execTrainingTimeout
  | alignment => exact h.execAlignment
  | keyExchange => exact h.execKeyExchange
  | tableActivation => exact h.execTableActivation
  | laneLockLoss => exact h.execLaneLockLoss
  | linkFailureTimeout => exact h.execLinkFailureTimeout
  | rekeyStart => exact h.execRekeyStart
  | rekeyCommit => exact h.execRekeyCommit
  | launchNotice => exact h.execLaunchNotice
  | reservationRequest => exact h.execReservationRequest
  | reservationGrant => exact h.execReservationGrant
  | go => exact h.execGo
  | chunkStaging => exact h.execChunkStaging
  | streamStaging => exact h.execStreamStaging
  | towpathPartial => exact h.execTowpathPartial
  | rootSlotCopy => exact h.execRootSlotCopy
  | taskReady => exact h.execTaskReady
  | taskStart => exact h.execTaskStart
  | preemption => exact h.execPreemption
  | reachJobStart => exact h.execReachJobStart
  | partNotReady => exact h.execPartNotReady
  | taskRetire => exact h.execTaskRetire
  | redirectSwitch => exact h.execRedirectSwitch
  | syncArrival => exact h.execSyncArrival
  | syncRestart => exact h.execSyncRestart
  | classMEvent => exact h.execClassMEvent
  | powerMeasurement => exact h.execPowerMeasurement
  | throttleEnd => exact h.execThrottleEnd
  | emergencyPowerStop => exact h.execEmergencyPowerStop
  | suspensionDrainEnd => exact h.execSuspensionDrainEnd
  | caskWritten => exact h.execCaskWritten
  | caskNoticeLanding => exact h.execCaskNoticeLanding
  | rsmClaim => exact h.execRsmClaim
  | restoreComplete => exact h.execRestoreComplete
  | caskdupCopyDone => exact h.execCaskdupCopyDone
  | powerUp => exact State.MemOk.execPowerUp
  | attestation => exact h.execAttestation
  | apertureRead => exact h.execApertureRead
  | apertureWrite => exact h.execApertureWrite
  | rootrec => exact h.execRootrec
  | rootarm => exact h.execRootarm
  | rpool => exact h.execRpool
  | eqbase => exact h.execEqbase
  | eqsize => exact h.execEqsize
  | rjstart => exact h.execRjstart
  | rjctlArm => exact h.execRjctlArm
  | rjctlDisarm => exact h.execRjctlDisarm
  | hostRegisterWrite => exact h.execHostRegisterWrite
  | invalidatePage => exact h.execInvalidatePage
  | invalidateDomain => exact h.execInvalidateDomain
  | invalidateAll => exact h.execInvalidateAll
  | debugStop => exact h.execDebugStop
  | debugResume => exact h.execDebugResume
  | readState => exact h.execReadState
  | writeState => exact h.execWriteState
  | freeFailedTask => exact h.execFreeFailedTask
  | linkBringUp => exact h.execLinkBringUp
  | loadShadowDepartureTable => exact h.execLoadShadowDepartureTable
  | setCounter => exact h.execSetCounter
  | readCounter => exact h.execReadCounter
  | endReachJob => exact h.execEndReachJob
  | hostCommandDone => exact h.execHostCommandDone
  | cmdOtherCode => exact h.execCmdOtherCode

end Sys2Proof.Machine
end

section
/-! O59: a turn of the step function keeps memory in canonical form. -/

namespace Sys2Proof.Machine

variable {s : State} {t : Tid}

/-- What a step over a list of instructions keeps. -/
theorem foldOut_keeps {α β : Type} {f : α → β → Out α} {p : α → Prop} (hf : ∀ a b c, p a → f a b = .next c → p c) :
    ∀ (l : List β) (a c : α), p a → foldOut f l a = .next c → p c := by
  intro l
  induction l with
  | nil => exact fun a c ha hc => Host.Outcome.next.inj hc ▸ ha
  | cons b l ih =>
    intro a c ha hc
    unfold foldOut at hc
    split at hc
    next a' hb => exact ih a' c (hf a b a' ha hb) hc
    next => cases hc
    next => cases hc

theorem State.MemOk.runSlot {i : Slotted} (h : s.MemOk) : OutOk (s.runSlot i) := by
  unfold State.runSlot
  dsimp only
  split
  · exact h.exec _
  next e _ =>
    have hx : OutOk (Machine.exec i.1 (s.onTile fun x => x.withLog e)) := (h.onTile (by rfl)).exec _
    split
    next u hu => exact ((hx u hu).onTile (by rfl)).next
    next => exact hx

/-- The states that a trial holds keep memory in canonical form. -/
structure Trial.Ok (a : Trial) : Prop where
  trap : ∀ r, a.trap = some r → r.2.MemOk
  froze : ∀ u, a.froze = some u → u.MemOk

theorem trialOk_empty (resv : List (Nat × Nat × Nat)) : Trial.Ok { resv, grow := 0, trap := none, froze := none } where
  trap _ hr := by cases hr
  froze _ hu := by cases hu

theorem Trial.Ok.ofTrap {a : Trial} (h : a.Ok) {r : Nat} {keep : State} (hk : keep.MemOk) :
    Trial.Ok { a with trap := match a.trap with
      | some (q, t) => if q ≤ r then some (q, t) else some (r, keep)
      | none => some (r, keep) } where
  trap := by
    intro p hp
    dsimp only at hp
    split at hp
    next q u hq =>
      split at hp
      · exact h.trap p (hq.trans hp)
      · exact Option.some.inj hp ▸ hk
    next => exact Option.some.inj hp ▸ hk
  froze := h.froze

theorem Trial.Ok.ofFroze {a : Trial} (h : a.Ok) {keep : State} (hk : keep.MemOk) :
    Trial.Ok { a with froze := match a.froze with
      | some t => some t
      | none => some keep } where
  trap := h.trap
  froze := by
    intro p hp
    dsimp only at hp
    split at hp
    next u hu => exact h.froze p (hu.trans hp)
    next => exact Option.some.inj hp ▸ hk

theorem State.MemOk.trySlot {i : Slotted} (h : s.MemOk) (a c : Trial) (ha : a.Ok) (hc : s.trySlot a i = .next c) : c.Ok := by
  unfold State.trySlot at hc
  have hr : OutOk ((s.onTile fun x => { x with resv := a.resv }).runSlot i) := (h.onTile (by rfl)).runSlot
  split at hc
  next u hu =>
    have hu' : u.MemOk := hr u hu
    dsimp only at hc
    split at hc
    · cases hc
      exact ⟨ha.trap, ha.froze⟩
    · cases hc
      exact ha.ofTrap (hu'.onTile (by rfl))
    · cases hc
      exact ha.ofFroze (hu'.onTile (by rfl))
  next => cases hc
  next => cases hc

theorem State.MemOk.issueSlots {static : List EncErr} {is : List Slotted} {fin : State → State} (h : s.MemOk)
    (hf : ∀ u, u.MemOk → (fin u).MemOk) : OutOk (s.issueSlots static is fin) := by
  unfold State.issueSlots
  split
  · exact outOk_fault
  · exact outOk_refused
  next a ha =>
    have hk : a.Ok := foldOut_keeps (fun b _ c hb hc => h.trySlot b c hb hc) is _ a (trialOk_empty _) ha
    extract_lets n own
    split
    next hr =>
      split
      · exact State.MemOk.next (hk.trap _ hr)
      · exact h.trapAt.next
    next => exact h.trapAt.next
    next hr => exact State.MemOk.next (hk.trap _ hr)
    next =>
      split
      next hu => exact State.MemOk.next (hk.froze _ hu)
      next =>
        have hx : OutOk (foldOut State.runSlot is s) := fun u hu => foldOut_keeps (fun _ _ c hb hc => hb.runSlot c hc) is s u h hu
        split
        next u hu => exact (hf _ (hx u hu).lateBundle).next
        next => exact hx

theorem State.MemOk.issueBundle {b : Nat} (h : s.MemOk) : OutOk (s.issueBundle b) := by
  unfold State.issueBundle
  dsimp only
  split
  · exact h.trapAt.next
  · exact h.issueSlots fun _ hu => hu.onTile (retire_pad _ _ _)

theorem State.MemOk.issueRest (h : s.MemOk) : OutOk s.issueRest := by
  unfold State.issueRest
  exact h.issueSlots fun _ hu => hu.endRest

theorem State.MemOk.issueDue (h : s.MemOk) : OutOk s.issueDue := by
  unfold State.issueDue
  dsimp only
  split
  · exact h.issueRest
  · split
    · exact State.MemOk.next (h.onTile tick_pad)
    · split
      · exact h.trapAt.next
      · split
        · exact h.issueMissing.next
        · exact h.issueBundle

theorem State.MemOk.issueRunning (h : s.MemOk) : OutOk s.issueRunning := by
  unfold State.issueRunning
  dsimp only
  split
  · exact (h.onTile (by rfl)).next
  · exact h.next
  · split
    · refine State.MemOk.next ?_
      split
      · exact h.capture
      · exact h.freeze
    · split
      · split
        · exact h.trapAt.next
        · exact h.freeze.next
      · exact h.issueDue

theorem State.MemOk.issueReturned (h : s.MemOk) : OutOk s.issueReturned := by
  unfold State.issueReturned
  extract_lets r s₁ s₂
  have h₁ : s₁.MemOk := (h.setTile landDue_pad).regEvents
  have h₂ : s₂.MemOk := State.MemOk.pickHeld h₁
  split
  · exact State.MemOk.issueRunning h₁
  · split
    · exact State.MemOk.issueRunning h₂
    · exact State.MemOk.next h₂

theorem State.MemOk.issueTile (h : s.MemOk) : OutOk (s.issueTile t) := by
  unfold State.issueTile
  extract_lets s₁ x
  have h₁ : s₁.MemOk := h.same (by rfl)
  split
  · exact State.MemOk.next h₁
  · split
    · exact State.MemOk.issueRunning h₁
    · split
      · exact (State.MemOk.onTile h₁ (by rfl)).issueRunning
      · exact State.MemOk.next h₁
    · split
      · exact (State.MemOk.finishReturn h₁).issueReturned
      · exact State.MemOk.next h₁
    · exact State.MemOk.next h₁

/-- Every entry of the agenda keeps memory in canonical form. -/
theorem State.MemOk.runEv (h : s.MemOk) (e : Ev) : OutOk (s.runEv e) := by
  cases e with
  | event _ _ => exact State.MemOk.exec (h.same (by rfl)) _
  | padRead _ _ _ _ _ _ => exact h.padRead.next
  | padWrite _ _ _ _ _ => exact h.padWrite.next
  | tagWrite _ _ _ _ => exact h.tagWrite.next
  | padAtomic _ _ _ _ _ _ _ _ _ _ => exact State.MemOk.next (memOk_ite h.atomicLost h.padAtomic)
  | padInject _ _ _ _ _ _ => exact State.MemOk.next (memOk_ite h.retryPorts h.padInject)
  | mxRow _ _ _ => exact h.mxRow.next
  | l1Read _ _ _ _ => exact h.l1Read.next
  | gprefWait _ _ => exact h.gprefWait.next
  | l1Write _ _ _ => exact h.l1Write.next
  | l2Write _ _ _ => exact h.l2Write.next
  | l2Atomic _ _ _ _ _ _ _ _ _ => exact h.l2Atomic.next
  | l2Take _ _ => exact h.l2Take.next
  | wordsBack _ _ => exact h.wordsBack.next
  | l1Leave _ _ => exact h.l1Leave.next
  | l1Back _ _ => exact h.l1Back.next
  | grantDue _ _ => exact h.grantDue.next
  | acquireAgain _ | statusNow _ _ _ => exact (h.modTile (by rfl)).next
  | l2Evict _ => exact h.l2Evict.next
  | copySrc _ _ _ => exact h.copySrc.next
  | copyL2Read _ _ => exact h.copyL2Read.next
  | copyDst _ _ _ => exact h.copyDst.next
  | copyPerform _ _ => exact h.copyPerform.next
  | opSrc _ => exact h.opSrc.next
  | opEnter _ => exact h.opEnter.next
  | landRow _ _ _ => exact h.landRow.next
  | send _ => exact h.sendFlit.next
  | counterWrite _ _ _ _ _ => exact h.counterWrite.next
  | counterSeen _ _ => exact (h.same (by rfl)).next
  | counterRead _ _ _ => exact h.counterRead.next
  | pipePush _ _ _ _ _ _ => exact h.pipePush.next
  | pipeMark _ _ _ _ _ => exact h.pipeMark.next
  | pipeBind _ _ _ _ => exact h.pipeBind.next
  | pipeRoom _ _ => exact h.pipeRoom.next
  | tbind _ _ _ _ => exact h.bind.next
  | tunbind _ _ _ => exact h.unbind.next
  | tflush _ _ => exact h.flushBound.next
  | wcreate _ _ _ _ => exact h.wcreate.next
  | wclose _ _ _ _ _ => exact h.wclose.next
  | wpost _ => exact h.wpost.next
  | wdone _ => exact h.wdone.next
  | opLevel _ _ => exact h.opLevel.next
  | opFail _ _ => exact h.opFail.next
  | hinit _ _ => exact h.hinit.next
  | teffect _ _ => exact h.teffect.next
  | tspawn _ _ _ _ _ => exact h.tspawn.next
  | caskdup _ _ _ _ _ _ _ => exact h.caskdup.next
  | caskdisc _ _ _ _ _ => exact h.caskdisc.next
  | caskq _ _ _ _ _ => exact h.caskq.next
  | caskSections _ _ => exact h.caskSections.next
  | dupRow _ _ => exact h.dupRow.next
  | claimEnd _ => exact h.claimEnd.next
  | tileFree _ => exact h.tileFree.next
  | mxrest _ _ _ _ => exact h.mxrestRow.next
  | coll _ _ _ _ => exact h.collStart.next
  | collPut _ _ _ _ _ _ => exact h.collPutAt.next
  | collWrite _ _ _ _ _ => exact h.collWrite.next
  | collDone _ _ _ => exact h.collDone.next
  | collBegin _ => exact h.collBegin.next
  | fenceEnd _ => exact h.fenceEnd.next
  | forget _ _ => exact h.forget.next
  | postEnd _ => exact h.postEnd.next

theorem State.MemOk.endPoll (h : s.MemOk) : OutOk s.endPoll := by
  unfold State.endPoll
  exact fun u hu => foldOut_keeps (fun _ _ c hb hc => (State.MemOk.same hb (by rfl)).exec .fabricSlot c hc) _ _ u (h.same (by rfl)) hu

theorem State.MemOk.copyTurn {k : Nat} {e : Bool} (h : s.MemOk) : OutOk (s.copyTurn k e) := by
  unfold State.copyTurn
  extract_lets s₁ s₂
  have h₂ : s₂.MemOk := State.MemOk.same (s := s₁) (h.copyAhead 257) (by rfl)
  split
  · exact State.MemOk.exec (State.MemOk.same (s := s₂) h₂ (by rfl)) .copyEmission
  · exact State.MemOk.next h₂

theorem State.MemOk.cycleTurn {k : Nat} (h : s.MemOk) : OutOk (s.cycleTurn k) := State.MemOk.exec (h.same (by rfl)) .tileCycle

theorem State.MemOk.afterIssue {k : Nat} (h : s.MemOk) : OutOk (s.afterIssue k) := by
  unfold State.afterIssue
  extract_lets done
  have hd : ∀ u : State, u.MemOk → (done u).MemOk := fun u hu =>
    State.MemOk.same (s := u.modTile (tid k) fun x => { x with hseen := x.handles }) (hu.modTile rfl) rfl
  split
  · have hx := State.MemOk.exec (s := { s with arg := { EvArg.none with t := tid k } }) (h.same (by rfl)) .suspensionDrainEnd
    split
    next u hu => exact (hd u (hx u hu)).next
    next => exact hx
  · split
    · have hx := State.MemOk.exec (s := { s with arg := { EvArg.none with t := tid k } }) (h.same (by rfl)) .syncArrival
      split
      next u hu => exact (hd u (hx u hu)).next
      next => exact hx
    · exact (hd s h).next

theorem State.MemOk.issueTurn {k : Nat} (h : s.MemOk) : OutOk (s.issueTurn k) := by
  unfold State.issueTurn
  split
  · exact h.endCycle.next
  · have hi : OutOk (s.issueTile (tid k)) := h.issueTile
    split
    next u hu => exact (hi u hu).afterIssue
    next => exact hi

theorem State.MemOk.turnStep (h : s.MemOk) : OutOk s.turnStep := by
  unfold State.turnStep
  split
  · split
    · exact State.MemOk.exec (h.same (by rfl)) .tableActivation
    · exact State.MemOk.exec (h.same (by rfl)) .chunkStaging
    · exact State.MemOk.runEv (h.same (by rfl)) _
    · exact (h.same (by rfl)).next
  · have hm := ((h.foldl (l := List.finRange 32) (f := State.matrixCycle) fun _ hs _ _ => hs.matrixCycle).retirements).voidArrivals
    generalize ((List.finRange 32).foldl State.matrixCycle s).retirements.voidArrivals = u at hm ⊢
    exact State.MemOk.next (hm.same (by rfl))
  · split
    · exact State.MemOk.runEv (h.same (by rfl)) _
    · have hs := h.sweep
      generalize s.sweep = u at hs ⊢
      exact State.MemOk.next (hs.same (by rfl))
  · split
    · exact State.MemOk.exec (h.same (by rfl)) _
    · exact h.endPoll
  · exact h.copyTurn
  · exact h.cycleTurn
  · exact h.issueTurn

/-- Settles O59: every instruction, event and turn is built from the stores that keep memory in canonical form. -/
theorem everyStepKeepsMemory : Obligations.EveryStepKeepsMemory := by
  unfold Obligations.EveryStepKeepsMemory
  exact fun s t h ht => h.turnStep t ht

end Sys2Proof.Machine
end

section
/-! SUPPORT. O39: what an instruction of the sequencer slot does that raises a fault or waits, and the gate of a release. -/

namespace Sys2Proof.Machine

/-- A well-formed instruction whose condition holds raises the fault it has, when it has just one. -/
theorem issueSlot_wf_fault (s : State) (i : Instr) (cond : Bool) (faults : List Flt) (wait : Option (Wait × State)) (act : State) (f : Flt)
    (hw : i.wf = true) (hc : cond = true) (hf : faults = [f]) : s.issueSlot i [] cond faults wait act = .next (s.raise f) := by
  subst hc hf
  exact issueSlot_faults s i [] [f] wait act f (by simp [staticErrs_wf i hw, EncErr.first]) rfl

/-- A well-formed instruction whose condition holds, with no fault, freezes with its wait. -/
theorem issueSlot_wf_wait (s u : State) (i : Instr) (cond : Bool) (faults : List Flt) (w : Wait) (act : State) (hw : i.wf = true)
    (hc : cond = true) (hf : faults = []) : s.issueSlot i [] cond faults (some (w, u)) act = .next (u.freeze w) := by
  subst hc hf
  simp [State.issueSlot, State.issueFix, staticErrs_wf i hw, EncErr.first]

/-- A complete release neither raises nor waits, in both modes (R47, R48). -/
theorem releaseGate_released {s : State} {scope : Nat} {c : Bool} (h : Claims.Released s scope c) (slot : Nat) :
    s.releaseGate slot scope c = ([], none) := by
  obtain ⟨hr, hl⟩ := h
  cases ht : s.tile.timed with
  | true => simp [State.releaseGate, ht, hr]
  | false => simp [State.releaseGate, ht, hr, hl ht]

/-- The actions of a release change no tile. -/
theorem startRelease_tile (s : State) (t : Tid) (scope : Nat) : (s.startRelease t scope).tile = s.tile := by
  unfold State.startRelease
  dsimp only
  split
  · rfl
  · rfl

end Sys2Proof.Machine
end

section
/-! O39: FENCE, SYNC, WAITC and WAITH. -/

namespace Sys2Proof.Machine

open Sys2Proof.Claims Sys2Proof.Check

variable {s : State} {f : YF}

theorem fence_acts (hc : s.tile.yCond f = true) (hw : (Instr.fence f).wf = true)
    (hr : bit f.arg.toNat 1 = true → Claims.Released s (bits f.arg.toNat 2 3) (bit f.arg.toNat 5)) :
    let s1 := if bit f.arg.toNat 1 = true ∧ 2 ≤ bits f.arg.toNat 2 3 then s.closeCombine s.cur else s
    exec (.fence f) s = .next ((if bit f.arg.toNat 0 then s1.acquireTile s.cur s.now else s1).note .acted) := by
  have hg : (if bit f.arg.toNat 1 then s.releaseGate 7 (bits f.arg.toNat 2 3) (bit f.arg.toNat 5) else ([], none)) = ([], none) := by
    split
    next h => exact releaseGate_released (hr h) 7
    next => rfl
  have hb : ∀ j < 2, bit (bits f.arg.toNat 0 2) j = bit f.arg.toNat j := fun j hj => by simp [bit, testBit_bits, hj]
  change execFence f s = _
  simp only [execFence, hb 0 (by decide), hb 1 (by decide), hg]
  rw [issueSlot_wf s _ _ _ _ hw hc rfl]
  simp

/-- What a SYNC names: the tiles of level 2, the stream of level 3. -/
def syncName (s : State) (f : YF) : Nat :=
  if syncLevel f = 3 then (if 2 ≤ syncLevel f then s.tile.sv (YF.a f) else 0) % 2 ^ 12
  else if 2 ≤ syncLevel f then s.tile.sv (YF.a f) else 0

theorem syncName_tiles (h : syncLevel f = 2) : syncName s f = s.tile.sv (YF.a f) := by simp [syncName, h]

theorem syncName_stream (h : syncLevel f = 3) : syncName s f = s.tile.sv (YF.a f) % 2 ^ 12 := by simp [syncName, h]

/-- The state in which a SYNC leaves its tile. -/
def syncStop (s : State) (f : YF) : State :=
  (s.startRelease s.cur (syncScope (syncLevel f))).onTile fun x =>
    { x with run := .sync (BitVec.ofNat 2 (syncLevel f)) (syncTimed f) (BitVec.ofNat 32 (syncName s f)) none }

theorem exec_sync (s : State) (f : YF) : exec (.sync f) s = s.issueSlot (.sync f) [] (s.tile.yCond f)
    ((if 2 ≤ syncLevel f then s.tile.consumeS 7 5 (YF.a f) else []) ++
      (if syncLevel f = 3 ∧ s.reachErr (syncName s f) then [s.tile.classS 7 0xA 0] else [])) none (syncStop s f) := rfl

theorem sync_stops (hc : s.tile.yCond f = true) (hw : (Instr.sync f).wf = true)
    (ha : 2 ≤ syncLevel f → Clean (s.tile.scalar (YF.a f))) (hr : syncLevel f = 3 → s.reachErr (s.tile.sv (YF.a f) % 2 ^ 12) = false) :
    ∃ t m, exec (.sync f) s = .next t ∧ t.tile.issued = .acted ∧ t.tile.run = .sync (BitVec.ofNat 2 (syncLevel f)) (syncTimed f) m none ∧
      (syncLevel f = 2 → m = BitVec.ofNat 32 (s.tile.sv (YF.a f))) ∧ t.tile.s = s.tile.s ∧ t.tile.fq = s.tile.fq := by
  have ho : (if 2 ≤ syncLevel f then s.tile.consumeS 7 5 (YF.a f) else []) = [] := by
    split
    next h => exact consumeS_clean _ _ _ _ (ha h)
    next => rfl
  have he : (if syncLevel f = 3 ∧ s.reachErr (syncName s f) then [s.tile.classS 7 0xA 0] else []) = [] := by
    rw [if_neg]
    rintro ⟨h3, hx⟩
    rw [syncName_stream h3, hr h3] at hx
    cases hx
  have ht : (syncStop s f).tile = { s.tile with
      run := .sync (BitVec.ofNat 2 (syncLevel f)) (syncTimed f) (BitVec.ofNat 32 (syncName s f)) none } := by
    rw [syncStop, tile_onTile, startRelease_tile]
  refine ⟨(syncStop s f).note .acted, BitVec.ofNat 32 (syncName s f), ?_, ?_, ?_, ?_, ?_, ?_⟩
  · rw [exec_sync, ho, he]
    exact issueSlot_wf s _ _ _ _ hw hc rfl
  · simp
  · simp [ht]
  · exact fun h2 => by rw [syncName_tiles h2]
  · simp [ht]
  · simp [ht]

theorem waitc_issues (hc : s.tile.yCond f = true) (hw : (Instr.waitc f).wf = true) (ha : Clean (s.tile.scalar (YF.a f)))
    (hb : Clean (s.tile.scalar (YF.b f))) :
    let k := s.tile.sv (YF.a f) % 4096
    let thr := s.tile.sv (YF.b f)
    (s.counterMet k thr = true → exec (.waitc f) s = .next ((s.acquireTile s.cur s.now).note .acted)) ∧
    (s.counterMet k thr = false → s.tile.timed = false → exec (.waitc f) s = .next (s.freeze (.counter k thr))) ∧
    (s.counterMet k thr = false → s.tile.timed = true → exec (.waitc f) s = .next (s.raise (s.tile.classS 7 0xB (taskInfo 1 k)))) := by
  intro k thr
  have hk : ctrOf (s.tile.sv (YF.a f)) = k := by simp [ctrOf, bits, k]
  have hx : exec (.waitc f) s = s.issueSlot (.waitc f) [] (s.tile.yCond f)
      (if s.tile.timed && !s.counterMet k thr then [s.tile.classS 7 0xB (taskInfo 1 k)] else [])
      (if !s.tile.timed && !s.counterMet k thr then some (.counter k thr, s) else none) (s.acquireTile s.cur s.now) := by
    change execWaitc f s = _
    simp only [execWaitc, hk, consumeS_clean _ _ _ _ ha, consumeS_clean _ _ _ _ hb, List.nil_append]
    rfl
  refine ⟨fun hm => ?_, fun hm ht => ?_, fun hm ht => ?_⟩
  · rw [hx, hm]
    simp only [Bool.not_true, Bool.and_false]
    exact issueSlot_wf s _ _ _ _ hw hc rfl
  · rw [hx, hm, ht]
    exact issueSlot_wf_wait s s _ _ _ _ _ hw hc rfl
  · rw [hx, hm, ht]
    exact issueSlot_wf_fault s _ _ _ _ _ _ hw hc rfl

/-- The class W fault of a handle that has failed (R333). -/
def waithFault (x : Tile) (f : YF) (h : Handle) : Flt :=
  (rankW 7, x.issueTrap clsW (BitVec.ofNat 4 h.ferr.toNat) (h.fidx.toNat * 2 ^ 32 + waithHandle f * 2 ^ 7))

theorem exec_waith {h : Handle} (hh : s.tile.handle (waithHandle f) = h) : exec (.waith f) s =
    s.issueSlot (.waith f) [] (s.tile.yCond f)
      ((if h.settled (waithLevel f) && waithTrap f && h.failed then [waithFault s.tile f h] else []) ++
        (if s.tile.timed && !h.settled (waithLevel f) then [s.tile.classS 7 0xD (winInfo 4 (waithHandle f))] else []))
      (if !s.tile.timed && !h.settled (waithLevel f) then some (.handle (Fin.ofNat 32 (waithHandle f)) (waithLevel f), s) else none)
      (s.acquireTile s.cur s.now) := by
  subst hh
  rfl

theorem waith_issues (hc : s.tile.yCond f = true) (hw : (Instr.waith f).wf = true) :
    let h := s.tile.handle (waithHandle f)
    (h.settled (waithLevel f) = true → (waithTrap f = true → h.failed = false) →
      exec (.waith f) s = .next ((s.acquireTile s.cur s.now).note .acted)) ∧
    (h.settled (waithLevel f) = false → s.tile.timed = false →
      exec (.waith f) s = .next (s.freeze (.handle (Fin.ofNat 32 (waithHandle f)) (waithLevel f)))) ∧
    (h.settled (waithLevel f) = false → s.tile.timed = true →
      exec (.waith f) s = .next (s.raise (s.tile.classS 7 0xD (4 * 2 ^ 12 + waithHandle f * 2 ^ 7)))) ∧
    (h.settled (waithLevel f) = true → waithTrap f = true → h.failed = true →
      ∃ q, exec (.waith f) s = .next (s.raise q) ∧ q.2.cls = clsW ∧ q.2.low = BitVec.ofNat 4 h.ferr.toNat) := by
  intro h
  have hx := exec_waith (h := h) rfl
  clear_value h
  refine ⟨fun hs hf => ?_, fun hs ht => ?_, fun hs ht => ?_, fun hs ht hf => ⟨waithFault s.tile f h, ?_, rfl, rfl⟩⟩
  · have hn : (waithTrap f && h.failed) = false := by
      cases ht : waithTrap f with
      | true => simp [hf ht]
      | false => rfl
    rw [hs, Bool.true_and, hn, Bool.not_true, Bool.and_false, Bool.and_false] at hx
    exact hx.trans (issueSlot_wf s _ _ _ _ hw hc rfl)
  · rw [hs, ht] at hx
    exact hx.trans (issueSlot_wf_wait s s _ _ _ _ _ hw hc rfl)
  · rw [hs, ht, winInfo, Nat.add_comm] at hx
    exact hx.trans (issueSlot_wf_fault s _ _ _ _ _ _ hw hc rfl)
  · rw [hs, ht, hf, Bool.not_true, Bool.and_false, Bool.and_false] at hx
    exact hx.trans (issueSlot_wf_fault s _ _ _ _ _ _ hw hc rfl)

/-- Settles O39: each case is the fault, the wait or the act of its instruction. -/
theorem orderingInstructions : Obligations.OrderingInstructions := by
  unfold Obligations.OrderingInstructions
  exact fun s f hc => ⟨fun hw hr => fence_acts hc hw hr, fun hw ha hr => sync_stops hc hw ha hr, fun hw ha hb => waitc_issues hc hw ha hb,
    fun hw => waith_issues hc hw⟩

end Sys2Proof.Machine
end

section
/-! SUPPORT. O31: the bytes of a register of granules, of a scalar store and of scattered elements. -/

namespace Sys2Proof.Machine

/-! ## Bytes of registers -/

theorem bits_toNat_extract {w : Nat} (d : BitVec w) (lo n : Nat) : bits d.toNat lo n = (d.extractLsb' lo n).toNat := by
  simp [bits, BitVec.extractLsb'_toNat]

/-- A byte of a register is a byte of its granule. -/
theorem byte_reg {n : Nat} (v : Reg n) (b : Nat) : bits v.d.toNat (8 * b) 8 = bits (v.gran (b / 8)).d.toNat (8 * (b % 8)) 8 := by
  apply Nat.eq_of_testBit_eq
  intro j
  have h : 64 * (b / 8) + (8 * (b % 8) + j) = 8 * b + j := by omega
  by_cases hj : j < 8
  · have h64 : 8 * (b % 8) + j < 64 := by omega
    simp only [Reg.gran, testBit_bits, BitVec.toNat_ofNat, Nat.testBit_mod_two_pow, h, h64, decide_true, Bool.true_and]
  · simp only [testBit_bits, hj, decide_false, Bool.false_and]

/-- A granule of a register made of granules. -/
theorem gran_ofGrans_d (l : List Gran) (n j : Nat) (hj : j < n) : ((Reg.ofGrans n l).gran j).d = (l.getD j .zero).d := by
  apply BitVec.eq_of_toNat_eq
  have hp := bits_packNat 64 (l.map (·.d.toNat)) j
  have hb : bits (Reg.ofGrans n l).d.toNat (64 * j) 64 = bits (packNat 64 (l.map (·.d.toNat))) (64 * j) 64 := by
    apply Nat.eq_of_testBit_eq
    intro i
    by_cases hi : i < 64
    · have : 64 * j + i < 64 * n := by omega
      simp [Reg.ofGrans, testBit_bits, hi, Nat.testBit_mod_two_pow, this]
    · simp [testBit_bits, hi]
  have hg : (l.map (·.d.toNat)).getD j 0 = (l.getD j .zero).d.toNat := by
    by_cases h : j < l.length
    · simp [h]
    · simp [h, Gran.zero]
  simp only [Reg.gran, BitVec.toNat_ofNat, hb, hp, hg]
  omega

/-! ## A scalar store -/

/-- A granule write that holds the low `n` bytes of a scalar from byte `a` on, and no other byte. -/
structure ScalarWrite (w : GWrite) (a n : Nat) (v : Reg 1) : Prop where
  gran : w.g = a / 8
  mask : ∀ j < 8, w.mask.getLsbD j = decide (a % 8 ≤ j ∧ j < a % 8 + n)
  data : ∀ k < n, w.d.extractLsb' (8 * (a % 8 + k)) 8 = BitVec.ofNat 8 (bits v.d.toNat (8 * k) 8)

/-- A scalar store of all eight bytes carries the granule. -/
theorem scalarStore_eight (a : Nat) (v : Reg 1) :
    scalarStore a 8 v = [{ g := a / 8, d := (v.gran 0).d, r := (v.gran 0).r, bad := (v.gran 0).bad, mask := 0xFF }] := rfl

/-- An aligned scalar store stays in one granule, and is one granule write (R198). -/
theorem scalarStore_one {a n : Nat} (v : Reg 1) (hn : n ∈ [1, 2, 4, 8]) (ha : a % n = 0) :
    ∃ w, scalarStore a n v = [w] ∧ ScalarWrite w a n v := by
  have hin : a % 8 + n ≤ 8 ∧ 0 < n := by
    fin_cases hn <;> omega
  by_cases h8 : n = 8
  · subst h8
    refine ⟨_, scalarStore_eight a v, rfl, fun j hj => ?_, fun k hk => ?_⟩
    · change (0xFF#8).getLsbD j = _
      rw [ha]
      interval_cases j <;> decide
    · have hb := byte_reg v k
      rw [Nat.div_eq_of_lt hk, Nat.mod_eq_of_lt hk, bits_toNat_extract (v.gran 0).d] at hb
      rw [ha, Nat.zero_add, hb, BitVec.ofNat_toNat, BitVec.setWidth_eq]
  · have hone : ∃ w, scalarStore a n v = [w] ∧ w.g = a / 8 := by
      have hc : (a + n - 1) / 8 - a / 8 + 1 = 1 := by omega
      rw [scalarStore, if_neg h8, gwBytes, if_neg (by omega), hc]
      exact ⟨_, rfl, rfl⟩
    obtain ⟨w, hw, hg⟩ := hone
    have hm : w ∈ gwBytes a n (v.d.toNat % 2 ^ (8 * n)) (v.gran 0).bad := by
      rw [scalarStore, if_neg h8] at hw
      rw [hw]
      exact List.mem_singleton_self w
    refine ⟨w, hw, hg, fun j hj => ?_, fun k hk => ?_⟩
    · rw [(gwBytes_entry hm j hj).1, hg]
      exact decide_eq_decide.mpr (by omega)
    · have hr : 8 * w.g + (a % 8 + k) = a + k := by omega
      have hd := (gwBytes_entry hm (a % 8 + k) (by omega)).2
      rw [hr] at hd
      rw [hd (by omega), Nat.add_sub_cancel_left]
      congr 1
      apply Nat.eq_of_testBit_eq
      intro i
      by_cases hi : i < 8
      · have : 8 * k + i < 8 * n := by omega
        simp only [testBit_bits, Nat.testBit_mod_two_pow, this, decide_true, Bool.true_and]
      · simp only [testBit_bits, hi, decide_false, Bool.false_and]

/-- What a scalar's granule write leaves at every byte. -/
theorem ScalarWrite.byte {w : GWrite} {a n : Nat} {v : Reg 1} (hw : ScalarWrite w a n v) (hin : a % 8 + n ≤ 8) (m : Store) (b : Nat) :
    (m.write w).byte b = if a ≤ b ∧ b < a + n then BitVec.ofNat 8 (bits v.d.toNat (8 * (b - a)) 8) else m.byte b := by
  have hiff : (w.g = b / 8 ∧ w.mask.getLsbD (b % 8) = true) ↔ (a ≤ b ∧ b < a + n) := by
    rw [hw.gran, hw.mask _ (Nat.mod_lt _ (by decide)), decide_eq_true_iff]
    omega
  rw [byte_write]
  by_cases h : a ≤ b ∧ b < a + n
  · have hb : b % 8 = a % 8 + (b - a) := by omega
    rw [if_pos h, if_pos (hiff.mpr h), hb, hw.data _ (by omega)]
  · rw [if_neg h, if_neg (fun hc => h (hiff.mp hc))]

end Sys2Proof.Machine
end

section
/-! SUPPORT. O31: writes to memory of a task without shadow tiles, and what leaves memory and every scratchpad alone. -/

namespace Sys2Proof.Machine

/-! ## Steps that write neither memory nor a scratchpad -/

/-- Memory, every scratchpad and the time are as they were. -/
structure SameStores (s s' : State) : Prop where
  mem : s'.mem = s.mem
  pad : ∀ u, (s'.tileAt u).pad = (s.tileAt u).pad
  now : s'.now = s.now

namespace SameStores

variable {s s₁ s₂ : State}

theorem refl (s : State) : SameStores s s := ⟨rfl, fun _ => rfl, rfl⟩

theorem trans (h₁ : SameStores s s₁) (h₂ : SameStores s₁ s₂) : SameStores s s₂ :=
  ⟨h₂.mem.trans h₁.mem, fun u => (h₂.pad u).trans (h₁.pad u), h₂.now.trans h₁.now⟩

theorem foldl {α : Type} {f : State → α → State} (hf : ∀ s a, SameStores s (f s a)) (l : List α) (s : State) : SameStores s (l.foldl f s) :=
  List.foldlRecOn l f (motive := SameStores s) (refl s) fun t ht a _ => ht.trans (hf t a)

theorem modTile (t : Tid) {f : Tile → Tile} (hf : ∀ x, (f x).pad = x.pad) : SameStores s (s.modTile t f) := by
  refine ⟨rfl, fun u => ?_, rfl⟩
  rw [tileAt_modTile]
  split
  · rename_i hu
    rw [hf, hu]
  · rfl

theorem schedule (n o : Nat) (e : Ev) : SameStores s (s.schedule n o e) := ⟨rfl, fun _ => rfl, rfl⟩

theorem event (s : State) (c i k d : Nat) : SameStores s (s.event c i k d) := ⟨rfl, fun _ => rfl, rfl⟩

theorem rindEvents (c i p : Nat) (gs : List Nat) : SameStores s (s.rindEvents c i p gs) :=
  foldl (f := fun s g => s.event c i evRind (rindDetail p (8 * g))) (fun s _ => event s _ _ _ _) gs s

theorem l1Set (s : State) (t : Tid) (slot : Nat) (l : Option L1Line) : SameStores s (s.modTile t fun x => x.l1Set slot l) :=
  modTile t fun _ => by rfl

theorem allocLine (t : Tid) (line : Nat) : SameStores s (s.allocLine t line).2 := by
  unfold State.allocLine
  dsimp only
  split
  · exact l1Set s t _ _
  · dsimp only
    split
    · refine .trans (?_ : SameStores s (s.relinquishLine t _)) (l1Set _ t _ _)
      exact ⟨rfl, fun _ => rfl, rfl⟩
    · refine .trans (modTile t fun x => ?_) (schedule _ _ _)
      rfl

theorem lineSlot (t : Tid) (line : Nat) : SameStores s (s.lineSlot t line).2 := by
  unfold State.lineSlot
  split
  · exact refl s
  · exact allocLine t line

theorem register (t : Tid) (line words : Nat) : SameStores s (s.register t line words) := by
  refine foldl (fun s i => ?_) _ s
  split
  · exact ⟨rfl, fun _ => rfl, rfl⟩
  · exact refl s

theorem l1Update (t : Tid) (ws : List GWrite) : SameStores s (s.l1Update t ws) := by
  unfold State.l1Update
  split
  · exact refl s
  · split
    · exact refl s
    · exact (modTile t fun x => touch_pad (x := x.l1Set _ _) _).trans (rindEvents _ _ _ _)

theorem acquireLate (t : Tid) (acq : Bool) : SameStores s (s.acquireLate t acq) := by
  unfold State.acquireLate
  split
  · exact modTile t fun _ => rfl
  · exact refl s

end SameStores

/-! ## The tiles that reports and requests leave alone -/

theorem tileAt_rindEvents (s : State) (c i p : Nat) (gs : List Nat) (u : Tid) : (s.rindEvents c i p gs).tileAt u = s.tileAt u :=
  foldl_keeps (State.tileAt · u) (fun s g => s.event c i evRind (rindDetail p (8 * g))) (fun _ _ => rfl) gs s

theorem tileAt_register (s : State) (t : Tid) (line words : Nat) (u : Tid) : (s.register t line words).tileAt u = s.tileAt u := by
  refine foldl_keeps (State.tileAt · u) _ (fun s i => ?_) _ s
  dsimp only
  split <;> rfl

theorem l1_touch (x : Tile) (slot : Nat) : (x.touch slot).l1 = x.l1 := by
  unfold Tile.touch
  split <;> rfl

/-! ## Writes of a task without shadow tiles (R68) -/

/-- No shadow tile of the task of `t` covers a byte. -/
def NoShadow (s : State) (t : Tid) : Prop := ∀ a, s.shadowAt (some t) a = none

section
variable {s : State} {t : Tid} (hs : NoShadow s t)
include hs

theorem memGran_noShadow (g : Nat) : s.memGran (some t) g = s.mem.gran g := by
  have h : ((List.range 8).filterMap fun i => s.shadowAt (some t) (8 * g + i)) = [] := by
    rw [List.filterMap_eq_nil_iff]
    exact fun i _ => hs _
  rw [State.memGran, h]

theorem shadowMask_noShadow (w : GWrite) : s.shadowMask (some t) w = 0 := by
  simp [State.shadowMask, hs _]

end

theorem openWrite_eq (s : State) (w : GWrite) :
    ∃ u l h, s.openWrite w = { s with mem := s.mem.write w, undo := u, memWas := l, host := h } := by
  obtain ⟨u, hu⟩ := keepOld_eq s w
  obtain ⟨l, hl⟩ := keepWas_eq { s with undo := u } w.g
  unfold State.openWrite
  rw [hu, hl]
  dsimp only
  split
  · exact ⟨u, l, _, rfl⟩
  · exact ⟨u, l, s.host, rfl⟩

/-- A write without shadow tiles writes memory, and may note what was there and report. -/
theorem memWrite_open {s : State} {t : Tid} (hs : NoShadow s t) (w : GWrite) :
    ∃ u l h, s.memWrite (some t) w = { s with mem := s.mem.write w, undo := u, memWas := l, host := h } := by
  have hx : w.mask ^^^ (0 : BitVec 8) = w.mask := BitVec.xor_zero
  unfold State.memWrite
  simp only [shadowMask_noShadow hs, if_true, hx]
  split
  · rename_i h
    rw [Store.write, if_pos h]
    exact ⟨s.undo, s.memWas, s.host, rfl⟩
  · exact openWrite_eq s w

theorem memWrites_open {s : State} {t : Tid} (hs : NoShadow s t) (ws : List GWrite) :
    ∃ u l h, s.memWrites (some t) ws = { s with mem := s.mem.writes ws, undo := u, memWas := l, host := h } := by
  induction ws generalizing s with
  | nil => exact ⟨s.undo, s.memWas, s.host, rfl⟩
  | cons w ws ih =>
    obtain ⟨u, l, h, hw⟩ := memWrite_open hs w
    obtain ⟨u', l', h', hws⟩ := ih (s := s.memWrite (some t) w) (by rw [hw]; exact hs)
    refine ⟨u', l', h', hws.trans ?_⟩
    rw [hw]
    rfl

/-- A write at the L2 leaves in memory what its granule writes leave there, and every scratchpad as it was. -/
theorem l2Write_noShadow {s : State} {t : Tid} (hs : NoShadow s t) (ws : List GWrite) :
    (s.l2Write t ws).mem = s.mem.writes ws ∧ (∀ u, ((s.l2Write t ws).tileAt u).pad = (s.tileAt u).pad) ∧ (s.l2Write t ws).now = s.now := by
  obtain ⟨u, l, h, hw⟩ := memWrites_open hs ws
  obtain ⟨hm, hp, hn⟩ := SameStores.l1Update (s := s.memWrites (some t) ws) t ws
  rw [hw] at hm hp hn
  rw [State.l2Write, hw]
  exact ⟨hm, hp, hn⟩

end Sys2Proof.Machine
end

section
/-! SUPPORT. O31: a granule write into an L1 line. -/

namespace Sys2Proof.Machine

/-! ## The granule of a line before a write -/

/-- Numbers below 256 at distinct byte places, added up, give themselves at each place. -/
theorem bits_sum_bytes (z : Nat → Nat) (hz : ∀ i, z i < 2 ^ 8) (n : Nat) :
    ((List.range n).map fun i => z i * 2 ^ (8 * i)).sum < 2 ^ (8 * n) ∧
    ∀ k < n, bits ((List.range n).map fun i => z i * 2 ^ (8 * i)).sum (8 * k) 8 = z k := by
  induction n with
  | zero => simp
  | succ n ih =>
    obtain ⟨hlt, hk⟩ := ih
    simp only [List.range_succ, List.map_append, List.sum_append, List.map_cons, List.map_nil, List.sum_cons, List.sum_nil, Nat.add_zero]
    generalize ((List.range n).map fun i => z i * 2 ^ (8 * i)).sum = x at hlt hk
    have hor : x + z n * 2 ^ (8 * n) = (z n <<< (8 * n)) ||| x := by
      rw [← Nat.shiftLeft_add_eq_or_of_lt hlt, Nat.shiftLeft_eq, Nat.add_comm]
    constructor
    · have hp : 2 ^ (8 * (n + 1)) = 2 ^ 8 * 2 ^ (8 * n) := by rw [← Nat.pow_add, Nat.mul_succ, Nat.add_comm]
      have hzn := Nat.mul_le_mul_right (2 ^ (8 * n)) (Nat.succ_le_of_lt (hz n))
      rw [hp]
      rw [Nat.succ_mul] at hzn
      omega
    · intro k hkn
      rw [hor]
      apply Nat.eq_of_testBit_eq
      intro i
      by_cases hi : i < 8
      · by_cases hlast : k = n
        · subst hlast
          rw [testBit_bits, Nat.testBit_or, Nat.testBit_lt_two_pow (Nat.lt_of_lt_of_le hlt (Nat.pow_le_pow_right (by decide) (Nat.le_add_right _ i)))]
          simp [hi]
        · have := congrArg (Nat.testBit · i) (hk k (by omega))
          simp only [testBit_bits, hi, decide_true, Bool.true_and] at this
          have hsh : ¬8 * n ≤ 8 * k + i := by omega
          rw [testBit_bits, Nat.testBit_or, Nat.testBit_shiftLeft]
          simp [hi, hsh, this]
      · have hzi : (z k).testBit i = false :=
          Nat.testBit_lt_two_pow (Nat.lt_of_lt_of_le (hz k) (Nat.pow_le_pow_right (by decide) (by omega)))
        rw [testBit_bits, hzi]
        simp [hi]

theorem sum_filter_map (p : Nat → Bool) (f : Nat → Nat) (l : List Nat) :
    ((l.filter p).map f).sum = (l.map fun i => if p i then f i else 0).sum := by
  induction l with
  | nil => rfl
  | cons x l ih => cases hx : p x <;> simp [hx, ih]

theorem base_of_valid {l : L1Line} {j : Nat} (h : bits l.v.toNat (2 * j) 2 ≠ 0) : l.base j = l.data.gran j := by
  rw [L1Line.base, if_pos h]

/-- The old granule of a merge keeps every byte of the line that is valid or dirty (R43). -/
theorem base_byte (l : L1Line) (j i : Nat) (hi : i < 8) (h : bits l.v.toNat (2 * j) 2 ≠ 0 ∨ bit (bits l.dirty.toNat (8 * j) 8) i = true) :
    bits (l.base j).d.toNat (8 * i) 8 = bits (l.data.gran j).d.toNat (8 * i) 8 := by
  by_cases hv : bits l.v.toNat (2 * j) 2 ≠ 0
  · rw [base_of_valid hv]
  · have hd := h.resolve_left hv
    have hm : bits l.dirty.toNat (8 * j) 8 ≠ 0 := by
      intro h0
      rw [h0, bit, Nat.zero_testBit] at hd
      exact absurd hd (by decide)
    rw [L1Line.base, if_neg hv]
    dsimp only
    rw [if_neg hm]
    split
    · rfl
    · have hsum := bits_sum_bytes
        (fun i => if bit (bits l.dirty.toNat (8 * j) 8) i then bits (l.data.gran j).d.toNat (8 * i) 8 else 0)
        (fun i => by
          split
          · exact Nat.mod_lt _ (Nat.two_pow_pos 8)
          · exact Nat.two_pow_pos 8) 8
      have heq := sum_filter_map (fun i => bit (bits l.dirty.toNat (8 * j) 8) i) (fun i => bits (l.data.gran j).d.toNat (8 * i) 8 * 2 ^ (8 * i)) (List.range 8)
      have hi2 := hsum.2 i hi
      rw [if_pos hd] at hi2
      rw [← hi2, BitVec.toNat_ofNat, heq]
      simp only [ite_mul, Nat.zero_mul] at hsum ⊢
      rw [Nat.mod_eq_of_lt hsum.1]

/-! ## One write into a line -/

/-- A granule write sets its granule of the line, merged with what was there, and nothing else of the line. -/
theorem put_one (l : L1Line) {w : GWrite} (hm : w.mask ≠ 0) :
    (l.put [w]).1 = { l with data := Reg.ofGrans 32 (l.data.grans.set (w.g % 32) (mergeGran (l.base (w.g % 32)) w)) } := by
  have hf : [w].filter (fun w => w.mask != 0) = [w] := by
    rw [List.filter_singleton, bne_iff_ne.mpr hm, cond_true]
  rw [L1Line.put, hf]
  rfl

/-- A byte of a line whose granule `j` is replaced. -/
theorem byte_setGrain (x : Reg 32) (j : Nat) (g : Gran) (b : Nat) (hb : b < 256) :
    bits (Reg.ofGrans 32 (x.grans.set j g)).d.toNat (8 * b) 8 = if b / 8 = j then bits g.d.toNat (8 * (b % 8)) 8 else bits x.d.toNat (8 * b) 8 := by
  have h32 : b / 8 < 32 := by omega
  rw [byte_reg, gran_ofGrans_d _ _ _ h32, byte_reg x]
  have hlen : (x.grans.set j g).length = 32 := by simp [Reg.grans]
  rw [List.getD_eq_getElem _ _ (by rw [hlen]; exact h32), List.getElem_set]
  by_cases h : j = b / 8
  · rw [if_pos h, if_pos h.symm]
  · rw [if_neg h, if_neg (Ne.symm h)]
    simp [Reg.grans]

/-- A valid byte's word is one of the words of its granule. -/
theorem valid_granule {v : BitVec 64} {b : Nat} (h : v.getLsbD (b / 4) = true) : bits v.toNat (2 * (b / 8)) 2 ≠ 0 := by
  intro h0
  have hb := testBit_bits v.toNat (2 * (b / 8)) 2 (b / 4 - 2 * (b / 8))
  have h1 : 2 * (b / 8) + (b / 4 - 2 * (b / 8)) = b / 4 := by omega
  have h2 : b / 4 - 2 * (b / 8) < 2 := by omega
  rw [h0, h1, BitVec.testBit_toNat, h, Nat.zero_testBit] at hb
  simp [h2] at hb

section
variable {w : GWrite} {a n : Nat} {v : Reg 1} (hw : ScalarWrite w a n v) (hn : 0 < n)
include hw hn

theorem ScalarWrite.mask_ne : w.mask ≠ 0 := by
  intro h
  have := hw.mask (a % 8) (Nat.mod_lt _ (by decide))
  rw [h, show (0 : BitVec 8).getLsbD (a % 8) = false from BitVec.getLsbD_zero, eq_comm, decide_eq_false_iff_not] at this
  omega

/-- Every other byte of the line that was dirty or valid keeps its value. -/
theorem ScalarWrite.put_kept (l : L1Line) (b : Nat) (hb : b < 256) (hout : b < a % 256 ∨ a % 256 + n ≤ b)
    (hk : l.dirty.getLsbD b = true ∨ l.v.getLsbD (b / 4) = true) :
    bits (l.put [w]).1.data.d.toNat (8 * b) 8 = bits l.data.d.toNat (8 * b) 8 := by
  rw [put_one l (hw.mask_ne hn), byte_setGrain _ _ _ _ hb]
  split
  · rename_i hg
    have h8 : b % 8 < 8 := Nat.mod_lt _ (by decide)
    have hm : w.mask.getLsbD (b % 8) = false := by
      rw [hw.mask _ h8, decide_eq_false_iff_not]
      rw [hw.gran] at hg
      omega
    have hbase := base_byte l (b / 8) (b % 8) h8 (by
      rcases hk with hd | hv
      · right
        rw [bit, testBit_bits, BitVec.testBit_toNat, Nat.div_add_mod, hd]
        simp [h8]
      · exact .inl (valid_granule hv))
    rw [← hg, bits_toNat_extract, byte_mergeGran _ _ _ h8, if_neg (by rw [hm]; decide), ← bits_toNat_extract, hbase, byte_reg l.data]
  · rfl

variable (hin : a % 8 + n ≤ 8)
include hin

/-- The bytes that a scalar store has in its line (R43). -/
theorem ScalarWrite.lineMask (b : Nat) (hb : b < 256) :
    (BitVec.ofNat 256 (lineMask [w])).getLsbD b = (decide (a % 256 ≤ b) && decide (b < a % 256 + n)) := by
  have hl : Machine.lineMask [w] = w.mask.toNat <<< (8 * (w.g % 32)) := by simp [Machine.lineMask]
  rw [BitVec.getLsbD_ofNat, hl, Nat.testBit_shiftLeft, BitVec.testBit_toNat, decide_eq_true hb, Bool.true_and, hw.gran, ← Bool.decide_and]
  by_cases h8 : b - 8 * (a / 8 % 32) < 8
  · rw [hw.mask _ h8, ← Bool.decide_and]
    exact decide_eq_decide.mpr (by omega)
  · rw [BitVec.getLsbD_of_ge _ _ (Nat.le_of_not_lt h8), Bool.and_false, eq_comm, decide_eq_false_iff_not]
    omega

/-- The stored bytes stand in the line. -/
theorem ScalarWrite.put_stored (l : L1Line) (k : Nat) (hk : k < n) :
    bits (l.put [w]).1.data.d.toNat (8 * (a % 256 + k)) 8 = bits v.d.toNat (8 * k) 8 := by
  have hg : (a % 256 + k) / 8 = w.g % 32 := by
    rw [hw.gran]
    omega
  have hj : (a % 256 + k) % 8 = a % 8 + k := by omega
  have hd := congrArg BitVec.toNat (hw.data k hk)
  have hm : w.mask.getLsbD (a % 8 + k) = true := by
    rw [hw.mask _ (by omega), decide_eq_true_iff]
    omega
  rw [put_one l (hw.mask_ne hn), byte_setGrain _ _ _ _ (by omega), if_pos hg, hj, bits_toNat_extract, byte_mergeGran _ _ _ (by omega), if_pos hm, hd,
    BitVec.toNat_ofNat, bits, Nat.mod_mod]

end

end Sys2Proof.Machine
end

section
/-! SUPPORT. O31: the bytes of scattered elements. -/

namespace Sys2Proof.Machine

/-! ## Bytes gathered by granule -/

/-- A gathered granule holds a byte at an address. -/
def Gather.Holds (x : Gather) (a : Nat) : Prop := x.g = a / 8 ∧ x.mask.testBit (a % 8) = true

/-- Every granule of the list that holds the byte at an address has this value there. -/
def GatherSays (l : List Gather) (a v : Nat) : Prop := ∀ x ∈ l, x.Holds a → bits x.d (8 * (a % 8)) 8 = v

/-- Some granule of the list holds the byte at an address. -/
def GatherHas (l : List Gather) (a : Nat) : Prop := ∃ x ∈ l, x.Holds a

theorem gatherHas_cons (x : Gather) (l : List Gather) (a : Nat) : GatherHas (x :: l) a ↔ x.Holds a ∨ GatherHas l a := by
  simp [GatherHas]

theorem gatherSays_cons (x : Gather) (l : List Gather) (a v : Nat) :
    GatherSays (x :: l) a v ↔ (x.Holds a → bits x.d (8 * (a % 8)) 8 = v) ∧ GatherSays l a v := List.forall_mem_cons

/-- A byte at its place of a number of eight bytes. -/
theorem bits_shiftedByte {b : Nat} (hb : b < 2 ^ 8) (k i : Nat) : bits (b <<< (8 * k)) (8 * i) 8 = if i = k then b else 0 := by
  apply Nat.eq_of_testBit_eq
  intro j
  have hz : ∀ m, 8 ≤ m → b.testBit m = false := fun m hm =>
    Nat.testBit_lt_two_pow (Nat.lt_of_lt_of_le hb (Nat.pow_le_pow_right (by decide) hm))
  rw [testBit_bits, Nat.testBit_shiftLeft]
  by_cases hj : j < 8
  · by_cases hi : i = k
    · subst hi
      simp [hj]
    · rw [if_neg hi, Nat.zero_testBit]
      by_cases hle : 8 * k ≤ 8 * i + j
      · rw [hz _ (by omega), Bool.and_false, Bool.and_false]
      · simp [hle]
  · split
    · rw [hz j (by omega), decide_eq_false hj, Bool.false_and]
    · rw [Nat.zero_testBit, decide_eq_false hj, Bool.false_and]

/-- A byte of a granule whose byte at place `k` is replaced. -/
theorem bits_replacedByte (d : Nat) {b : Nat} (hb : b < 2 ^ 8) (k i : Nat) (hi : i < 8) :
    bits ((d &&& ((0xFF <<< (8 * k)) ^^^ (2 ^ 64 - 1))) ||| (b <<< (8 * k))) (8 * i) 8 = if i = k then b else bits d (8 * i) 8 := by
  have hkeep : bits (d &&& ((0xFF <<< (8 * k)) ^^^ (2 ^ 64 - 1))) (8 * i) 8 = if i = k then 0 else bits d (8 * i) 8 := by
    apply Nat.eq_of_testBit_eq
    intro j
    have hff : ((0xFF : Nat) <<< (8 * k)).testBit (8 * i + j) = (decide (8 * k ≤ 8 * i + j) && decide (8 * i + j - 8 * k < 8)) := by
      rw [show (0xFF : Nat) = 2 ^ 8 - 1 from rfl, Nat.testBit_shiftLeft, Nat.testBit_two_pow_sub_one]
    rw [testBit_bits, Nat.testBit_and, Nat.testBit_xor, hff, Nat.testBit_two_pow_sub_one, ← Bool.decide_and]
    by_cases hj : j < 8
    · rw [decide_eq_true (show 8 * i + j < 64 by omega), Bool.xor_true]
      by_cases hk : i = k
      · rw [if_pos hk, Nat.zero_testBit, decide_eq_true (show 8 * k ≤ 8 * i + j ∧ 8 * i + j - 8 * k < 8 by omega)]
        simp
      · rw [if_neg hk, testBit_bits, decide_eq_false (show ¬(8 * k ≤ 8 * i + j ∧ 8 * i + j - 8 * k < 8) by omega)]
        simp
    · split <;> simp [testBit_bits, hj]
  have hor : ∀ x y : Nat, bits (x ||| y) (8 * i) 8 = bits x (8 * i) 8 ||| bits y (8 * i) 8 := by
    intro x y
    apply Nat.eq_of_testBit_eq
    intro j
    simp only [testBit_bits, Nat.testBit_or]
    cases decide (j < 8) <;> simp
  rw [hor, hkeep, bits_shiftedByte hb]
  split
  · exact Nat.zero_or b
  · exact Nat.or_zero _

theorem testBit_one_shiftLeft (k i : Nat) : ((1 : Nat) <<< k).testBit i = decide (k = i) := by
  rw [Nat.one_shiftLeft, Nat.testBit_two_pow]

/-- Gathering a byte adds its address to those held. -/
theorem gatherHas_gatherByte (l : List Gather) (addr b sg : Nat) (same : Bool) (a : Nat) :
    GatherHas (gatherByte l addr b sg same) a ↔ a = addr ∨ GatherHas l a := by
  have haddr : (addr / 8 = a / 8 ∧ addr % 8 = a % 8) ↔ a = addr := by omega
  induction l with
  | nil =>
    rw [gatherByte, gatherHas_cons, Gather.Holds, testBit_one_shiftLeft, decide_eq_true_iff, haddr]
  | cons x l ih =>
    rw [gatherByte]
    split
    · rename_i hg
      rw [gatherHas_cons, gatherHas_cons, Gather.Holds, Gather.Holds, hg, Nat.testBit_or, testBit_one_shiftLeft, Bool.or_eq_true, decide_eq_true_iff, ← or_assoc]
      refine or_congr ?_ Iff.rfl
      rw [← haddr]
      tauto
    · rw [gatherHas_cons, gatherHas_cons]
      exact (or_congr Iff.rfl ih).trans or_left_comm

/-- Gathering a byte keeps the value at an address where the new byte, if it goes there, is that value. -/
theorem gatherSays_gatherByte {l : List Gather} {addr b sg : Nat} {same : Bool} {a v : Nat} (hb : b < 2 ^ 8) (hv : a = addr → b = v)
    (hl : GatherSays l a v) : GatherSays (gatherByte l addr b sg same) a v := by
  have h8 : a % 8 < 8 := Nat.mod_lt _ (by decide)
  induction l with
  | nil =>
    rw [gatherByte, gatherSays_cons]
    refine ⟨fun hh => ?_, fun x hx => absurd hx List.not_mem_nil⟩
    obtain ⟨hg, hm⟩ := hh
    rw [testBit_one_shiftLeft, decide_eq_true_iff] at hm
    rw [bits_shiftedByte hb, if_pos hm.symm, hv (by dsimp only at hg; omega)]
  | cons x l ih =>
    obtain ⟨hx, hrest⟩ := (gatherSays_cons x l a v).mp hl
    rw [gatherByte]
    split
    · rename_i hg
      refine (gatherSays_cons _ _ _ _).mpr ⟨fun hh => ?_, hrest⟩
      obtain ⟨hgr, hm⟩ := hh
      rw [bits_replacedByte _ hb _ _ h8]
      split
      · rename_i hk
        exact hv (by dsimp only at hgr; omega)
      · rename_i hk
        rw [Nat.testBit_or, testBit_one_shiftLeft, decide_eq_false (Ne.symm hk), Bool.or_false] at hm
        exact hx ⟨hg.trans hgr, hm⟩
    · exact (gatherSays_cons _ _ _ _).mpr ⟨hx, ih hrest⟩

/-- A byte of a granule's data that is given as a number. -/
theorem extract_ofNat (d : Nat) {i : Nat} (hi : i < 8) : (BitVec.ofNat 64 d).extractLsb' (8 * i) 8 = BitVec.ofNat 8 (bits d (8 * i) 8) := by
  ext j hj
  have h64 : 8 * i + j < 64 := by omega
  simp only [← BitVec.getLsbD_eq_getElem, BitVec.getLsbD_extractLsb', BitVec.getLsbD_ofNat, testBit_bits, hj, h64, decide_true, Bool.true_and]

/-! ## Elements -/

/-- An element of a scatter holds the byte at an address. -/
def ElCovers (e : Nat × Nat × Nat) (a : Nat) : Prop := e.1 ≤ a ∧ a < e.1 + e.2.2

theorem gatherHas_gatherEl (src : Nat) (l : List Gather) (e : Nat × Nat × Nat) (a : Nat) :
    GatherHas (gatherEl src l e) a ↔ ElCovers e a ∨ GatherHas l a := by
  have key : ∀ n, GatherHas ((List.range n).foldl (fun l k =>
      gatherByte l (e.1 + k) (bits src (8 * (e.2.1 + k)) 8) ((e.2.1 + k) / 8) ((e.1 + k) % 8 == (e.2.1 + k) % 8)) l) a ↔
      (e.1 ≤ a ∧ a < e.1 + n) ∨ GatherHas l a := by
    intro n
    induction n with
    | zero =>
      have hno : ¬(e.1 ≤ a ∧ a < e.1 + 0) := by omega
      rw [List.range_zero, List.foldl_nil]
      exact ⟨.inr, fun h => h.resolve_left hno⟩
    | succ n ih =>
      have hsplit : (a = e.1 + n ∨ (e.1 ≤ a ∧ a < e.1 + n)) ↔ (e.1 ≤ a ∧ a < e.1 + (n + 1)) := by omega
      rw [List.range_succ, List.foldl_append, List.foldl_cons, List.foldl_nil, gatherHas_gatherByte, ih, ← or_assoc, hsplit]
  exact key e.2.2

theorem gatherSays_gatherEl {src : Nat} {l : List Gather} {e : Nat × Nat × Nat} {a v : Nat}
    (hv : ElCovers e a → bits src (8 * (e.2.1 + (a - e.1))) 8 = v) (hl : GatherSays l a v) : GatherSays (gatherEl src l e) a v := by
  refine List.foldlRecOn _ _ (motive := fun l => GatherSays l a v) hl fun l hl k hk => ?_
  rw [List.mem_range] at hk
  refine gatherSays_gatherByte (Nat.mod_lt _ (Nat.two_pow_pos 8)) (fun ha => ?_) hl
  have := hv ⟨by omega, by omega⟩
  rwa [ha, Nat.add_sub_cancel_left] at this

theorem gatherHas_elements (src : Nat) (es : List (Nat × Nat × Nat)) (l : List Gather) (a : Nat) :
    GatherHas (es.foldl (gatherEl src) l) a ↔ (∃ e ∈ es, ElCovers e a) ∨ GatherHas l a := by
  induction es generalizing l with
  | nil => simp
  | cons e es ih =>
    rw [List.foldl_cons, ih, gatherHas_gatherEl, ← or_assoc, or_comm (b := ElCovers e a)]
    simp

theorem gatherSays_elements {src : Nat} {es : List (Nat × Nat × Nat)} {a v : Nat}
    (hv : ∀ e ∈ es, ElCovers e a → bits src (8 * (e.2.1 + (a - e.1))) 8 = v) : GatherSays (es.foldl (gatherEl src) []) a v :=
  List.foldlRecOn es _ (motive := fun l => GatherSays l a v) (fun _ hx => absurd hx List.not_mem_nil)
    fun _ hl e he => gatherSays_gatherEl (hv e he) hl

/-! ## The granule writes of a scatter (R198) -/

/-- A granule write of a scatter is of a gathered granule, with its bytes and its data. -/
theorem scatter_entries {n : Nat} (src : Reg n) (es : List (Nat × Nat × Nat)) :
    ∃ f : Gather → GWrite, scatter src es = (es.foldl (gatherEl src.d.toNat) []).map f ∧
      ∀ x, (f x).g = x.g ∧ (f x).d = BitVec.ofNat 64 x.d ∧ (f x).mask = BitVec.ofNat 8 x.mask := by
  refine ⟨_, rfl, fun x => ?_⟩
  dsimp only
  split
  · rename_i hm _
    exact ⟨rfl, rfl, by rw [hm]; rfl⟩
  · exact ⟨rfl, rfl, rfl⟩

/-- What a scatter leaves at an address for which its elements agree on the byte. -/
theorem byte_writes_scatter {n : Nat} (src : Reg n) (es : List (Nat × Nat × Nat)) (m : Store) (a v : Nat)
    (hv : ∀ e ∈ es, ElCovers e a → bits src.d.toNat (8 * (e.2.1 + (a - e.1))) 8 = v) :
    ((∃ e ∈ es, ElCovers e a) → (m.writes (scatter src es)).byte a = BitVec.ofNat 8 v) ∧
    (¬(∃ e ∈ es, ElCovers e a) → (m.writes (scatter src es)).byte a = m.byte a) := by
  obtain ⟨f, hf, hfx⟩ := scatter_entries src es
  have h8 : a % 8 < 8 := Nat.mod_lt _ (by decide)
  have hholds : ∀ x : Gather, ((f x).g = a / 8 ∧ (f x).mask.getLsbD (a % 8) = true) ↔ x.Holds a := by
    intro x
    obtain ⟨hg, -, hm⟩ := hfx x
    rw [hg, hm, BitVec.getLsbD_ofNat, decide_eq_true h8, Bool.true_and, Gather.Holds]
  have hcov : gwCovers (scatter src es) a = true ↔ ∃ e ∈ es, ElCovers e a := by
    have hnil : ¬GatherHas [] a := fun ⟨_, hx, _⟩ => absurd hx List.not_mem_nil
    rw [gwCovers, List.any_eq_true, hf, ← or_iff_left (a := ∃ e ∈ es, ElCovers e a) hnil, ← gatherHas_elements src.d.toNat es [] a]
    simp only [List.mem_map, Bool.and_eq_true, beq_iff_eq]
    constructor
    · rintro ⟨_, ⟨x, hx, rfl⟩, hh⟩
      exact ⟨x, hx, (hholds x).mp hh⟩
    · rintro ⟨x, hx, hh⟩
      exact ⟨f x, ⟨x, hx, rfl⟩, (hholds x).mpr hh⟩
  have hsays := gatherSays_elements hv
  have hw := byte_writes (scatter src es) m a (BitVec.ofNat 8 v) (by
    rw [hf]
    intro w hw hg hm
    obtain ⟨x, hx, rfl⟩ := List.mem_map.mp hw
    rw [(hfx x).2.1]
    rw [extract_ofNat _ h8, hsays x hx ((hholds x).mp ⟨hg, hm⟩)])
  rw [hw]
  exact ⟨fun h => if_pos (hcov.mpr h), fun h => if_neg (fun hc => h (hcov.mp hc))⟩

end Sys2Proof.Machine
end

section
/-! SUPPORT. O31: stores, atomics and copies at basin memory. -/

namespace Sys2Proof.Machine

open Check

/-! ## Stores (R198, R206) -/

/-- An aligned store stays in one granule. -/
theorem aligned_in_granule {a n : Nat} (hn : n ∈ [1, 2, 4, 8]) (ha : a % n = 0) : 0 < n ∧ a % 8 + n ≤ 8 := by
  fin_cases hn <;> omega

/-- A scalar store at the L2 leaves its bytes in memory, and every other byte as it was. -/
theorem l2Write_scalarStore {s : State} {t : Tid} (hs : NoShadow s t) {a n : Nat} (v : Reg 1) (hn : n ∈ [1, 2, 4, 8]) (ha : a % n = 0) (b : Nat) :
    (s.l2Write t (scalarStore a n v)).mem.byte b =
      if a ≤ b ∧ b < a + n then BitVec.ofNat 8 (bits v.d.toNat (8 * (b - a)) 8) else s.mem.byte b := by
  obtain ⟨w, hw, hsw⟩ := scalarStore_one v hn ha
  rw [hw, (l2Write_noShadow hs [w]).1]
  exact hsw.byte (aligned_in_granule hn ha).2 s.mem b

/-- The line after a free-mode store: what the store puts there, with its bytes dirty, and words may wait for ownership (R43, R45). -/
def L1Line.stored (l : L1Line) (w : GWrite) (pend : BitVec 64) : L1Line :=
  { (l.put [w]).1 with dirty := l.dirty ||| BitVec.ofNat 256 (lineMask [w]), pend := pend }

/-- A free-mode store changes its line, and neither memory nor a scratchpad. -/
theorem l1Write_one (s : State) (t : Tid) (w : GWrite) {l : L1Line}
    (hl : ((s.lineSlot t (w.g / 32)).2.tileAt t).l1.get none (s.lineSlot t (w.g / 32)).1 = some l) :
    SameStores s (s.l1Write t [w]) ∧
    ∃ q, ((s.l1Write t [w]).tileAt t).l1.get none (s.lineSlot t (w.g / 32)).1 = some (l.stored w q) := by
  unfold State.l1Write
  dsimp only
  split
  · rename_i hnone
    exact absurd (hnone.symm.trans hl) (by simp)
  · rename_i l' hl'
    obtain rfl := Option.some.inj (hl'.symm.trans hl)
    refine ⟨(SameStores.lineSlot t _).trans (.trans (.trans (.modTile t fun x => touch_pad (x := x.l1Set _ _) _) (.rindEvents ..)) (.register ..)), ?_⟩
    rw [tileAt_register, tileAt_rindEvents, tileAt_modTile, if_pos rfl, l1_touch]
    have hset : ∀ (x : Tile) (k : Nat) (y : Option L1Line), (x.l1Set k y).l1.get none k = y := fun x k y => SMap.get_set_same none k y x.l1
    exact ⟨_, hset ..⟩

/-! ## Atomics (R210, R211) -/

theorem bits_shiftLeft_bytes (x c k : Nat) : bits (x <<< (8 * c)) (8 * (c + k)) 8 = bits x (8 * k) 8 := by
  rw [bits, bits, Nat.mul_add, Nat.shiftRight_add, Nat.shiftLeft_shiftRight]

/-- The granule write of an atomic: the element of `n` bytes at `pa`. -/
theorem byte_write_element (m : Store) {w : GWrite} {pa n new : Nat} (hin : pa % 8 + n ≤ 8) (hg : w.g = pa / 8)
    (hd : w.d = BitVec.ofNat 64 (new <<< (8 * (pa % 8)))) (hm : w.mask = BitVec.ofNat 8 ((2 ^ n - 1) <<< (pa % 8))) (b : Nat) :
    (m.write w).byte b = if pa ≤ b ∧ b < pa + n then BitVec.ofNat 8 (bits new (8 * (b - pa)) 8) else m.byte b := by
  have h8 : b % 8 < 8 := Nat.mod_lt _ (by decide)
  have hiff : (w.g = b / 8 ∧ w.mask.getLsbD (b % 8) = true) ↔ (pa ≤ b ∧ b < pa + n) := by
    rw [hg, hm, BitVec.getLsbD_ofNat, Nat.testBit_shiftLeft, Nat.testBit_two_pow_sub_one, decide_eq_true h8, Bool.true_and, ← Bool.decide_and,
      decide_eq_true_iff]
    omega
  rw [byte_write]
  by_cases h : pa ≤ b ∧ b < pa + n
  · have hb : b % 8 = pa % 8 + (b - pa) := by omega
    rw [if_pos h, if_pos (hiff.mpr h), hd, extract_ofNat _ h8, hb, bits_shiftLeft_bytes]
  · rw [if_neg h, if_neg (fun hc => h (hiff.mp hc))]

/-- The granule write of an atomic. -/
def atomicWrite (g : Gran) (pa w new : Nat) : GWrite :=
  let d : Word := BitVec.ofNat 64 (new <<< (8 * (pa % 8)))
  { g := pa / 8, d := d, r := rindOf g.bad d, bad := g.bad, mask := BitVec.ofNat 8 ((2 ^ (w / 8) - 1) <<< (pa % 8)) }

/-- The state after the write of an atomic, before its report, its acquire and its return. -/
def State.atomicWrites (s : State) (t : Tid) (pa w : Nat) (new : Option Nat) : State :=
  match new with
  | some new => s.l2Write t [atomicWrite (s.mem.gran (pa / 8)) pa w new]
  | none => s

/-- After its write an atomic changes no store, and plans the return of the old value one cycle later or more. -/
theorem l2Atomic_noShadow {s : State} {t : Tid} (hs : NoShadow s t) (id type op pa v cmp : Nat) (acq : Bool) :
    let w := tyWidth type
    let g := s.mem.gran (pa / 8)
    let old := bits g.d.toNat (8 * (pa % 8)) w
    let s₁ := s.atomicWrites t pa w (amoNew op type old v cmp)
    let s' := s.l2Atomic t id type op pa v cmp acq
    SameStores s₁ s' ∧ ∃ e ∈ s'.agenda, s₁.now < e.at_ ∧ ∃ r, e.ev = .event .globalAtomicReturn r ∧ r.t = t ∧ r.n = id ∧
      r.w = if w = 64 then g.d else BitVec.ofNat 64 (amoOld type old) := by
  intro w g old s₁ s'
  let s₂ := if g.bad && (w == 64 || (amoNew op type old v cmp).isNone) then s₁.event srcMem 0 evRind pa else s₁
  let s₃ := s₂.acquireLate t acq
  have h₂ : SameStores s₁ s₂ := by
    unfold s₂
    split
    · exact .event ..
    · exact .refl _
  have h₃ : SameStores s₁ s₃ := h₂.trans (.acquireLate t acq)
  have hr : ∃ r : EvArg, s' = s₃.drawNat.2.plan (s₃.now + 1 + s₃.drawNat.1) ordRead .globalAtomicReturn r ∧ r.t = t ∧ r.n = id ∧
      r.w = if w = 64 then g.d else BitVec.ofNat 64 (amoOld type old) := by
    unfold s' State.l2Atomic
    rw [memGran_noShadow hs]
    refine ⟨_, rfl, rfl, rfl, ?_⟩
    dsimp only
    split <;> rfl
  obtain ⟨r, heq, ht, hn, hw⟩ := hr
  rw [heq]
  refine ⟨h₃.trans ⟨rfl, fun _ => rfl, rfl⟩, _, mem_agenda_plan .., ?_, r, rfl, ht, hn, hw⟩
  rw [h₃.now]
  dsimp only
  omega

/-! ## Copies (R286) -/

/-- Only memory, what was in it and reports differ, and memory only where `hit` allows. -/
structure Wrote (hit : Nat → Prop) (s s' : State) : Prop where
  shape : ∃ m u l h, s' = { s with mem := m, undo := u, memWas := l, host := h }
  bytes : ∀ b, ¬hit b → s'.mem.byte b = s.mem.byte b

namespace Wrote

variable {hit : Nat → Prop} {s s₁ s₂ : State}

theorem refl (s : State) : Wrote hit s s := ⟨⟨s.mem, s.undo, s.memWas, s.host, rfl⟩, fun _ _ => rfl⟩

theorem trans (h₁ : Wrote hit s s₁) (h₂ : Wrote hit s₁ s₂) : Wrote hit s s₂ := by
  obtain ⟨⟨m₁, u₁, l₁, p₁, rfl⟩, hb₁⟩ := h₁
  obtain ⟨⟨m₂, u₂, l₂, p₂, rfl⟩, hb₂⟩ := h₂
  exact ⟨⟨m₂, u₂, l₂, p₂, rfl⟩, fun b hb => (hb₂ b hb).trans (hb₁ b hb)⟩

theorem tileAt (h : Wrote hit s s₁) (u : Tid) : s₁.tileAt u = s.tileAt u := by
  obtain ⟨⟨m, u', l, p, rfl⟩, -⟩ := h
  rfl

theorem noShadow {t : Tid} (h : Wrote hit s s₁) (hs : NoShadow s t) : NoShadow s₁ t := by
  obtain ⟨⟨m, u, l, p, rfl⟩, -⟩ := h
  exact hs

theorem event (s : State) (c i k d : Nat) : Wrote hit s (s.event c i k d) := ⟨⟨s.mem, s.undo, s.memWas, _, rfl⟩, fun _ _ => rfl⟩

theorem foldl {α : Type} {t : Tid} {f : State → α → State} {xs : List α} (hf : ∀ s, NoShadow s t → ∀ x ∈ xs, Wrote hit s (f s x))
    (hs : NoShadow s t) : Wrote hit s (xs.foldl f s) :=
  List.foldlRecOn xs f (motive := Wrote hit s) (refl s) fun s₁ h x hx => h.trans (hf s₁ (h.noShadow hs) x hx)

theorem rindEvents (s : State) (c i p : Nat) (gs : List Nat) : Wrote hit s (s.rindEvents c i p gs) :=
  List.foldlRecOn gs (fun s g => s.event c i evRind (rindDetail p (8 * g))) (motive := Wrote hit s) (refl s) fun s₁ h _ _ => h.trans (event s₁ ..)

theorem memWrites {t : Tid} (hs : NoShadow s t) {ws : List GWrite} (hw : ∀ b, ¬hit b → (s.mem.writes ws).byte b = s.mem.byte b) :
    Wrote hit s (s.memWrites (some t) ws) := by
  obtain ⟨u, l, h, heq⟩ := memWrites_open hs ws
  rw [heq]
  exact ⟨⟨_, u, l, h, rfl⟩, hw⟩

/-- A write of a granule. -/
theorem memWrite {t : Tid} (hs : NoShadow s t) {w : GWrite} (hw : ∀ b, w.g = b / 8 → hit b) : Wrote hit s (s.memWrite (some t) w) :=
  memWrites (ws := [w]) hs fun b hb => byte_writes_other [w] s.mem b fun x hx hg => by
    rw [List.mem_singleton] at hx
    exact hb (hw b (hx ▸ hg))

/-- A reduction at memory writes its element. -/
theorem memReduce {t : Tid} (hs : NoShadow s t) {op ty pa new : Nat} {bad : Bool} (hw : ∀ b, pa ≤ b ∧ b < pa + tyWidth ty / 8 → hit b) :
    Wrote hit s (s.memReduce (some t) op ty pa new bad) := by
  have hwr : ∀ v, Wrote hit s (s.memWrites (some t) (gwBytes pa (tyWidth ty / 8) v (s.redBad (some t) op pa bad))) := fun v =>
    memWrites hs fun b hb => by rw [byte_writes_gwBytes, if_neg (fun h => hb (hw b h))]
  unfold State.memReduce
  dsimp only
  split
  · exact (hwr _).trans (event ..)
  · exact hwr _

end Wrote

/-- The state whose tile has let go of a copy. -/
def State.dropCopy (s : State) (t : Tid) (id : Nat) : State :=
  s.modTile t fun x => { x with copies := x.copies.filter fun q => q.id != id }

theorem dropCopy_sameStores (s : State) (t : Tid) (id : Nat) : SameStores s (s.dropCopy t id) := .modTile t fun _ => rfl

theorem dropCopy_ids (s : State) (t : Tid) (id : Nat) : ∀ q ∈ ((s.dropCopy t id).tileAt t).copies, q.id ≠ id := by
  intro q hq
  rw [State.dropCopy, tileAt_modTile, if_pos rfl] at hq
  exact bne_iff_ne.mp (List.mem_filter.mp hq).2

theorem dropCopy_noShadow {s : State} {t : Tid} (hs : NoShadow s t) (id : Nat) : NoShadow (s.dropCopy t id) t := by
  have htask : (s.dropCopy t id).taskOf t = s.taskOf t := by
    unfold State.taskOf State.dropCopy
    rw [tileAt_modTile, if_pos rfl]
    rfl
  intro a
  have := hs a
  unfold State.shadowAt at this ⊢
  dsimp only at this ⊢
  rwa [htask]

/-- One granule of a copy to memory: its writes and its report (R286). -/
def State.copyGran (s : State) (t : Tid) (r : CopyRun) (els : List (Nat × Nat)) (w g : Nat) : State :=
  let b := buildGran r.got (s.memGran (some t) (r.phys g)) g (r.memNib els w)
  let s := if b.2 then s.rindEvents srcEngine (2 * t.val + r.e.toNat) 0 [r.phys g] else s
  match b.1 with
  | some x => s.memWrite (some t) { x with g := r.phys g }
  | none => s

/-- One element of a reducing copy to memory. -/
def State.copyElem (s : State) (t : Tid) (r : CopyRun) (e : Nat × Nat) : State :=
  let g := r.got.get .zero (e.2 / 8)
  s.memReduce (some t) r.redOp r.redType (r.physByte e.1) (bits g.d.toNat (8 * (e.2 % 8)) (tyWidth r.redType)) g.bad

section
variable {s : State} {t : Tid} {id : Nat} {r : CopyRun} (hr : (s.tileAt t).run? id = some r)
include hr

/-- A copy to memory ends its run and does its granules in order. -/
theorem copyPerform_grans (hp : r.cfg.path = 2) :
    ∃ els w, s.copyPerform t id = r.memGrans.foldl (fun s g => s.copyGran t r els w g) (s.dropCopy t id) ∧
      (r.cfg.tensor = none → els = [] ∧ w = 1) := by
  unfold State.copyPerform
  rw [hr]
  dsimp only
  rw [if_pos hp]
  refine ⟨_, _, rfl, fun ht => ?_⟩
  rw [ht]
  exact ⟨rfl, rfl⟩

/-- Any other copy ends its run and does its elements in order. -/
theorem copyPerform_elems (hp : r.cfg.path ≠ 2) :
    s.copyPerform t id = r.redEls.foldl (fun s e => s.copyElem t r e) (s.dropCopy t id) := by
  unfold State.copyPerform
  rw [hr]
  dsimp only
  rw [if_neg hp]
  rfl

end

/-- A report of a copy, if there is one, then its write, if there is one. -/
theorem copyGran_reports {s : State} {t : Tid} (hs : NoShadow s t) (r : CopyRun) (els : List (Nat × Nat)) (w g : Nat) {hit : Nat → Prop} :
    ∃ s₁, Wrote hit s s₁ ∧ s₁.mem = s.mem ∧
      s.copyGran t r els w g = match (buildGran r.got (s.mem.gran (r.phys g)) g (r.memNib els w)).1 with
        | some x => s₁.memWrite (some t) { x with g := r.phys g }
        | none => s₁ := by
  unfold State.copyGran
  rw [memGran_noShadow hs]
  refine ⟨_, ?_, ?_, rfl⟩
  · split
    · exact .rindEvents ..
    · exact .refl s
  · split
    · exact (SameStores.rindEvents ..).mem
    · rfl

section
variable {s : State} {t : Tid} (hs : NoShadow s t)
include hs

theorem copyGran_wrote (r : CopyRun) (els : List (Nat × Nat)) (w g : Nat) {hit : Nat → Prop} (hh : ∀ b, r.phys g = b / 8 → hit b) :
    Wrote hit s (s.copyGran t r els w g) := by
  obtain ⟨s₁, h₁, -, heq⟩ := copyGran_reports hs r els w g (hit := hit)
  rw [heq]
  split
  · exact h₁.trans (.memWrite (h₁.noShadow hs) hh)
  · exact h₁

/-- The write of one granule of a copy, as it is built from the granule in memory. -/
theorem copyGran_mem (r : CopyRun) (els : List (Nat × Nat)) (w g : Nat) {x : GWrite} {e : Bool}
    (hb : buildGran r.got (s.mem.gran (r.phys g)) g (r.memNib els w) = (some x, e)) :
    (s.copyGran t r els w g).mem = s.mem.write { x with g := r.phys g } := by
  obtain ⟨s₁, h₁, hm, heq⟩ := copyGran_reports hs r els w g (hit := fun _ => True)
  obtain ⟨_, _, _, hw⟩ := memWrite_open (h₁.noShadow hs) { x with g := r.phys g }
  rw [heq, hb]
  dsimp only
  rw [hw, hm]

end

/-! ## The obligation -/

/-- Memory outside some bytes, and every scratchpad, are as they were: what the obligation asks of each form. -/
def Framed (s s' : State) (hit : Nat → Prop) : Prop :=
  (∀ b, ¬hit b → s'.mem.byte b = s.mem.byte b) ∧ ∀ u, (s'.tileAt u).pad = (s.tileAt u).pad

theorem SameStores.framed {s s' : State} (h : SameStores s s') (hit : Nat → Prop) : Framed s s' hit :=
  ⟨fun b _ => congrArg (Store.byte · b) h.mem, h.pad⟩

/-- A copy frames what its last part writes. -/
theorem Wrote.framed {s s₁ s' : State} {hit : Nat → Prop} (h₁ : SameStores s s₁) (h : Wrote hit s₁ s') : Framed s s' hit :=
  ⟨fun b hb => (h.bytes b hb).trans (congrArg (Store.byte · b) h₁.mem), fun u => (congrArg Tile.pad (h.tileAt u)).trans (h₁.pad u)⟩

/-- A scalar store in L1 (R43). -/
theorem scalarStore_in_line {s : State} {t : Tid} {a n : Nat} (v : Reg 1) (hn : n ∈ [1, 2, 4, 8]) (ha : a % n = 0) {l : L1Line}
    (hl : ((s.lineSlot t (a / 256)).2.tileAt t).l1.get none (s.lineSlot t (a / 256)).1 = some l) :
    Framed s (s.l1Write t (scalarStore a n v)) (fun _ => False) ∧
    ∃ l', ((s.l1Write t (scalarStore a n v)).tileAt t).l1.get none (s.lineSlot t (a / 256)).1 = some l' ∧ l'.tag = l.tag ∧ l'.v = l.v ∧ l'.own = l.own ∧
      (∀ k < n, bits l'.data.d.toNat (8 * (a % 256 + k)) 8 = bits v.d.toNat (8 * k) 8) ∧
      (∀ b < 256, l'.dirty.getLsbD b = (l.dirty.getLsbD b || decide (a % 256 ≤ b) && decide (b < a % 256 + n))) ∧
      ∀ b < 256, b < a % 256 ∨ a % 256 + n ≤ b → l.dirty.getLsbD b = true ∨ l.v.getLsbD (b / 4) = true →
        bits l'.data.d.toNat (8 * b) 8 = bits l.data.d.toNat (8 * b) 8 := by
  obtain ⟨w, hw, hsw⟩ := scalarStore_one v hn ha
  obtain ⟨hn0, hin⟩ := aligned_in_granule hn ha
  have hline : w.g / 32 = a / 256 := by
    rw [hsw.gran]
    omega
  rw [← hline] at hl ⊢
  obtain ⟨hsame, q, hq⟩ := l1Write_one s t w hl
  have hput := put_one l (hsw.mask_ne hn0)
  rw [hw]
  refine ⟨hsame.framed _, l.stored w q, hq, ?_, ?_, ?_, hsw.put_stored hn0 hin l, fun b hb => ?_, hsw.put_kept hn0 l⟩
  · exact (congrArg L1Line.tag hput :)
  · exact (congrArg L1Line.v hput :)
  · exact (congrArg L1Line.own hput :)
  · rw [← hsw.lineMask hn0 hin b hb]
    exact BitVec.getLsbD_or

section
variable {s : State} {t : Tid} (hs : NoShadow s t)
include hs

/-- A scalar store at the L2 (R206). -/
theorem scalarStore_performs {a n : Nat} (v : Reg 1) (hn : n ∈ [1, 2, 4, 8]) (ha : a % n = 0) :
    Framed s (s.l2Write t (scalarStore a n v)) (fun b => a ≤ b ∧ b < a + n) ∧
    ∀ k < n, (s.l2Write t (scalarStore a n v)).mem.byte (a + k) = BitVec.ofNat 8 (bits v.d.toNat (8 * k) 8) := by
  refine ⟨⟨fun b hb => ?_, (l2Write_noShadow hs _).2.1⟩, fun k hk => ?_⟩
  · rw [l2Write_scalarStore hs v hn ha, if_neg hb]
  · rw [l2Write_scalarStore hs v hn ha, if_pos (by omega), Nat.add_sub_cancel_left]

/-- A store of scattered elements at the L2 (R206). -/
theorem scatter_performs (v : Reg 32) (es : List (Nat × Nat × Nat)) :
    Framed s (s.l2Write t (scatter v es)) (fun b => ∃ e ∈ es, ElCovers e b) ∧
    ∀ e ∈ es, ∀ k < e.2.2, (∀ q ∈ es, q ≠ e → ¬ElCovers q (e.1 + k)) →
      (s.l2Write t (scatter v es)).mem.byte (e.1 + k) = BitVec.ofNat 8 (bits v.d.toNat (8 * (e.2.1 + k)) 8) := by
  obtain ⟨hm, hp, -⟩ := l2Write_noShadow hs (scatter v es)
  refine ⟨⟨fun b hb => ?_, hp⟩, fun e he k hk honly => ?_⟩
  · rw [hm]
    exact (byte_writes_scatter v es s.mem b 0 fun e he hc => absurd ⟨e, he, hc⟩ hb).2 hb
  · rw [hm]
    refine (byte_writes_scatter v es s.mem (e.1 + k) _ fun q hq hc => ?_).1 ⟨e, he, by omega, by omega⟩
    have hqe : q = e := Classical.byContradiction fun hne => honly q hq hne hc
    rw [hqe, Nat.add_sub_cancel_left]

/-- An atomic at the L2 (R210, R211). -/
theorem atomic_performs {id type op pa v cmp w : Nat} {acq : Bool} (hw : w = tyWidth type) (h32 : w ∈ [32, 64]) (ha : pa % (w / 8) = 0) :
    let s' := s.l2Atomic t id type op pa v cmp acq
    let old := bits (s.mem.gran (pa / 8)).d.toNat (8 * (pa % 8)) w
    (amoNew op type old v cmp = none → Framed s s' (fun _ => False)) ∧
    (∀ new, amoNew op type old v cmp = some new → Framed s s' (fun b => pa ≤ b ∧ b < pa + w / 8) ∧
      ∀ k < w / 8, s'.mem.byte (pa + k) = BitVec.ofNat 8 (bits new (8 * k) 8)) ∧
    ∃ e ∈ s'.agenda, s.now < e.at_ ∧ ∃ r, e.ev = .event .globalAtomicReturn r ∧ r.t = t ∧ r.n = id ∧
      r.w = BitVec.ofNat 64 (if w = 64 then old else amoOld type old) := by
  intro s' old
  have hin : pa % 8 + w / 8 ≤ 8 ∧ (w = 64 → pa % 8 = 0) := by
    fin_cases h32 <;> omega
  obtain ⟨hsame, hret⟩ := l2Atomic_noShadow hs id type op pa v cmp acq
  rw [← hw] at hsame hret
  have hnow : (s.atomicWrites t pa w (amoNew op type old v cmp)).now = s.now := by
    unfold State.atomicWrites
    split
    · exact (l2Write_noShadow hs _).2.2
    · rfl
  refine ⟨fun hnone => ?_, fun new hnew => ?_, ?_⟩
  · have h0 : s.atomicWrites t pa w (amoNew op type old v cmp) = s := by rw [hnone]; rfl
    rw [h0] at hsame
    exact hsame.framed _
  · obtain ⟨hm, hp, -⟩ := l2Write_noShadow hs [atomicWrite (s.mem.gran (pa / 8)) pa w new]
    have h1 : s.atomicWrites t pa w (amoNew op type old v cmp) = s.l2Write t [atomicWrite (s.mem.gran (pa / 8)) pa w new] := by rw [hnew]; rfl
    rw [h1] at hsame
    have hbyte : ∀ b, s'.mem.byte b = if pa ≤ b ∧ b < pa + w / 8 then BitVec.ofNat 8 (bits new (8 * (b - pa)) 8) else s.mem.byte b := fun b => by
      rw [hsame.mem, hm]
      exact byte_write_element s.mem hin.1 rfl rfl rfl b
    refine ⟨⟨fun b hb => ?_, fun u => (hsame.pad u).trans (hp u)⟩, fun k hk => ?_⟩
    · rw [hbyte, if_neg hb]
    · rw [hbyte, if_pos (by omega), Nat.add_sub_cancel_left]
  · obtain ⟨e, he, hat, r, hev, ht, hn, hr⟩ := hret
    refine ⟨e, he, hnow ▸ hat, r, hev, ht, hn, hr.trans ?_⟩
    split
    · rename_i h64
      have hall : old = (s.mem.gran (pa / 8)).d.toNat := by
        unfold old
        rw [hin.2 h64, h64, bits_toNat_extract, Nat.mul_zero, BitVec.extractLsb'_eq_self]
      rw [hall, BitVec.ofNat_toNat, BitVec.setWidth_eq]
    · rfl

/-- A copy to memory, and a reducing one (R286). -/
theorem copy_performs {id : Nat} {r : CopyRun} (hr : (s.tileAt t).run? id = some r) :
    let s' := s.copyPerform t id
    (∀ q ∈ (s'.tileAt t).copies, q.id ≠ id) ∧
    (r.cfg.path = 2 → Framed s s' (fun b => ∃ g ∈ r.memGrans, r.phys g = b / 8) ∧
      ∀ g w e, r.cfg.tensor = none → r.memGrans = [g] → buildGran r.got (s.mem.gran (r.phys g)) g (r.memNib [] 1) = (some w, e) →
        s'.mem = s.mem.write { w with g := r.phys g }) ∧
    (r.cfg.path = 3 → Framed s s' (fun b => ∃ e ∈ r.redEls, r.physByte e.1 ≤ b ∧ b < r.physByte e.1 + tyWidth r.redType / 8)) := by
  intro s'
  have hs₁ := dropCopy_noShadow hs id
  have h₁ := dropCopy_sameStores s t id
  have hgrans : r.cfg.path = 2 → Wrote (fun b => ∃ g ∈ r.memGrans, r.phys g = b / 8) (s.dropCopy t id) s' := fun hp => by
    obtain ⟨els, w, heq, -⟩ := copyPerform_grans hr hp
    unfold s'
    rw [heq]
    exact .foldl (fun s hs g hg => copyGran_wrote hs r els w g fun b hb => ⟨g, hg, hb⟩) hs₁
  have helems : r.cfg.path ≠ 2 →
      Wrote (fun b => ∃ e ∈ r.redEls, r.physByte e.1 ≤ b ∧ b < r.physByte e.1 + tyWidth r.redType / 8) (s.dropCopy t id) s' := fun hp => by
    unfold s'
    rw [copyPerform_elems hr hp]
    exact .foldl (fun s hs e he => .memReduce hs fun b hb => ⟨e, he, hb⟩) hs₁
  refine ⟨fun q hq => ?_, fun hp => ⟨(hgrans hp).framed h₁, fun g w e htensor hg hb => ?_⟩, fun hp => (helems (by rw [hp]; decide)).framed h₁⟩
  · have htile : s'.tileAt t = (s.dropCopy t id).tileAt t := by
      by_cases hp : r.cfg.path = 2
      · exact (hgrans hp).tileAt t
      · exact (helems hp).tileAt t
    rw [htile] at hq
    exact dropCopy_ids s t id q hq
  · obtain ⟨els, n, heq, hone⟩ := copyPerform_grans hr hp
    obtain ⟨rfl, rfl⟩ := hone htensor
    unfold s'
    rw [heq, hg]
    exact copyGran_mem hs₁ r [] 1 g hb

end

/-- Settles O31: without shadow tiles every write goes to memory alone, a granule write changes the bytes of its mask (R68), and each form's granule
writes have exactly its bytes. -/
theorem memoryWritesPerform : Obligations.MemoryWritesPerform := by
  unfold Obligations.MemoryWritesPerform
  intro s t _ hs
  exact ⟨fun a n v hn ha => ⟨scalarStore_performs hs v hn ha, fun l hl => scalarStore_in_line v hn ha hl⟩, scatter_performs hs,
    fun _ _ _ _ _ _ _ _ hw h32 ha => atomic_performs hs hw h32 ha, fun _ _ hr => copy_performs hs hr⟩

end Sys2Proof.Machine
end

section
/-! SUPPORT. Rinds (R62 to R65): the CRC fits its seven bits and is affine, and which granules are bad. -/

namespace Sys2Proof

/-! ## The CRC (R63) -/

theorem crcStep_lt (c : Nat) (b : Bool) : crcStep c b < 128 := by
  have hm : (c <<< 1) % 128 < 2 ^ 7 := Nat.mod_lt _ (by decide)
  rw [crcStep]
  split
  · exact Nat.xor_lt_two_pow hm (by decide)
  · exact hm

theorem crc7_lt (d : Nat) : crc7 d < 128 :=
  List.foldlRecOn (motive := (· < 128)) _ _ (by decide) fun _ _ _ _ => crcStep_lt _ _

/-- A step of the CRC is linear in the register and the data bit together. -/
theorem crcStep_xor (c c' : Nat) (b b' : Bool) : crcStep (c ^^^ c') (b != b') = crcStep c b ^^^ crcStep c' b' := by
  have hbit : (bit (c ^^^ c') 6 != (b != b')) = ((bit c 6 != b) != (bit c' 6 != b')) := by
    simp only [bit, Nat.testBit_xor]
    cases c.testBit 6 <;> cases c'.testBit 6 <;> cases b <;> cases b' <;> rfl
  have hshift : ((c ^^^ c') <<< 1) % 128 = (c <<< 1) % 128 ^^^ (c' <<< 1) % 128 := by
    rw [Nat.shiftLeft_xor_distrib]
    exact Nat.xor_mod_two_pow (n := 7)
  simp only [crcStep, hbit, hshift]
  generalize (c <<< 1) % 128 = x, (c' <<< 1) % 128 = y
  cases bit c 6 != b <;> cases bit c' 6 != b'
  case false.false => rfl
  case false.true => exact Nat.xor_assoc _ _ _
  case true.false => exact Nat.xor_right_comm _ _ _
  case true.true =>
    change x ^^^ y = (x ^^^ 0x65) ^^^ (y ^^^ 0x65)
    rw [Nat.xor_assoc, Nat.xor_comm y, Nat.xor_xor_cancel_left]

/-- The CRC procedure over any bits, from any register, is linear. -/
theorem foldl_crcStep_xor (l : List Nat) (c c' d d' : Nat) :
    l.foldl (fun c i => crcStep c (bit (d ^^^ d') i)) (c ^^^ c') =
      l.foldl (fun c i => crcStep c (bit d i)) c ^^^ l.foldl (fun c i => crcStep c (bit d' i)) c' := by
  induction l generalizing c c' with
  | nil => rfl
  | cons i l ih =>
    have hi : bit (d ^^^ d') i = (bit d i != bit d' i) := Nat.testBit_xor ..
    rw [List.foldl_cons, List.foldl_cons, List.foldl_cons, hi, crcStep_xor, ih]

/-- An odd number of CRCs adds up to the CRC of the sum: their initial values cancel but for one. -/
theorem crc7_xor_xor (a b c : Nat) : crc7 (a ^^^ b ^^^ c) = crc7 a ^^^ crc7 b ^^^ crc7 c := by
  have h := foldl_crcStep_xor crcOrder (0x7F ^^^ 0x7F) 0x7F (a ^^^ b) c
  rw [foldl_crcStep_xor crcOrder 0x7F 0x7F a b] at h
  exact h

theorem crc7_zero : crc7 0 = 0x5D := by decide +kernel

/-- The code is affine (R63). -/
theorem crc7_xor (a b : Nat) : crc7 (a ^^^ b) = crc7 a ^^^ crc7 b ^^^ 0x5D := by
  have h := crc7_xor_xor a b 0
  rwa [Nat.xor_zero, crc7_zero] at h

/-! ## Good and bad granules (R64) -/

theorem rindOf_toNat (p : Bool) (d : Word) : (rindOf p d).toNat = (if p then 128 else 0) + crc7 d.toNat := by
  have h := crc7_lt d.toNat
  rw [rindOf, BitVec.toNat_ofNat, Nat.mod_eq_of_lt]
  cases p <;> simp <;> omega

/-- P is the top bit of a rind byte (Table 3-2). -/
theorem rind_p_iff (r : Byte) : r.getLsbD 7 = true ↔ 128 ≤ r.toNat := by
  have h : r.msb = r.getLsbD 7 := BitVec.msb_eq_getLsbD_last r
  rw [← h, BitVec.msb_eq_decide, decide_eq_true_iff]

theorem bad_iff_rind_ne (g : Gran) : g.bad = true ↔ g.r.toNat ≠ crc7 g.d.toNat := bne_iff_ne

theorem bad_iff (g : Gran) : g.bad = true ↔ g.r.getLsbD 7 = true ∨ g.r.toNat % 128 ≠ crc7 g.d.toNat := by
  have hc := crc7_lt g.d.toNat
  have hr := g.r.isLt
  rw [bad_iff_rind_ne, rind_p_iff]
  omega

theorem fresh_good (d : Word) : (Gran.fresh d).bad = false := by
  rw [← Bool.not_eq_true, bad_iff_rind_ne, not_not]
  exact (rindOf_toNat false d).trans (Nat.zero_add _)

theorem poison_rind (d : Word) : (Gran.poison d).r.toNat = 128 + crc7 d.toNat := rindOf_toNat true d

theorem poison_bad (d : Word) : (Gran.poison d).bad = true := by
  rw [bad_iff_rind_ne, poison_rind]
  exact (Nat.lt_add_of_pos_left (by decide)).ne'

end Sys2Proof
end

section
/-! SUPPORT. The scalar and the predicate registers: s0 and p0 hold their values, the others read back (R143). -/

namespace Sys2Proof.Machine

/-! ## Registers with fresh rinds (R65) -/

theorem bits_mod_two_pow {lo w n : Nat} (x : Nat) (h : lo + w ≤ n) : bits (x % 2 ^ n) lo w = bits x lo w := by
  apply Nat.eq_of_testBit_eq
  intro j
  by_cases hj : j < w
  · simp [testBit_bits, Nat.testBit_mod_two_pow, hj, show lo + j < n by omega]
  · simp [testBit_bits, hj]

theorem gran_fresh {n j : Nat} (d : Nat) (hj : j < n) : (Reg.fresh n d).gran j = Gran.fresh (BitVec.ofNat 64 (bits d (64 * j) 64)) := by
  have hd : bits d (64 * j) 64 < 2 ^ 64 := Nat.mod_lt _ (by decide)
  have hc := crc7_lt (bits d (64 * j) 64)
  have hdata : bits (d % 2 ^ (64 * n)) (64 * j) 64 = bits d (64 * j) 64 := bits_mod_two_pow d (by omega)
  have hrind : bits (packNat 8 ((List.range n).map fun j => crc7 (bits d (64 * j) 64)) % 2 ^ (8 * n)) (8 * j) 8 =
      crc7 (bits d (64 * j) 64) := by
    rw [bits_mod_two_pow _ (by omega), bits_packNat, List.getD_eq_getElem _ _ (by simpa using hj)]
    simp only [List.getElem_map, List.getElem_range]
    omega
  rw [Reg.gran, Reg.fresh, Gran.fresh, rindOf]
  simp only [BitVec.toNat_ofNat, hdata, hrind, Nat.mod_eq_of_lt hd]
  simp

theorem fresh_clean (n d : Nat) : Clean (Reg.fresh n d) := fun j hj => by rw [gran_fresh d hj, fresh_good]

/-! ## s0, p0 and the others (R143) -/

theorem scalar_zero (x : Tile) : x.scalar 0 = Reg.zero 1 := if_pos rfl

theorem pred_zero (x : Tile) : x.pred 0 = predOnes := if_pos rfl

theorem scalar_of_ne (x : Tile) {n : Nat} (h : n ≠ 0) : x.scalar n = x.s.get (Reg.zero 1) n := if_neg h

theorem pred_of_ne (x : Tile) {n : Nat} (h : n ≠ 0) : x.pred n = x.p.get (Reg.zero 4) n := if_neg h

theorem predOnes_clean : Clean predOnes := fresh_clean 4 _

theorem setScalar_zero (x : Tile) (v : Reg 1) : x.setScalar 0 v = x := if_pos rfl

theorem setPred_zero (x : Tile) (v : Reg 4) : x.setPred 0 v = x := if_pos rfl

theorem setScalar_of_ne (x : Tile) {n : Nat} (v : Reg 1) (h : n ≠ 0) : x.setScalar n v = { x with s := x.s.set (Reg.zero 1) n v } := if_neg h

theorem setPred_of_ne (x : Tile) {n : Nat} (v : Reg 4) (h : n ≠ 0) : x.setPred n v = { x with p := x.p.set (Reg.zero 4) n v } := if_neg h

theorem scalar_setScalar_same (x : Tile) {n : Nat} (v : Reg 1) (h : n ≠ 0) : (x.setScalar n v).scalar n = v := by
  rw [setScalar_of_ne x v h, scalar_of_ne _ h, SMap.get_set_same]

theorem pred_setPred_same (x : Tile) {n : Nat} (v : Reg 4) (h : n ≠ 0) : (x.setPred n v).pred n = v := by
  rw [setPred_of_ne x v h, pred_of_ne _ h, SMap.get_set_same]

theorem scalar_setScalar_other (x : Tile) {n m : Nat} (v : Reg 1) (h : m ≠ n) : (x.setScalar n v).scalar m = x.scalar m := by
  by_cases hn : n = 0
  · rw [hn, setScalar_zero]
  · rw [setScalar_of_ne x v hn, Tile.scalar, SMap.get_set_other _ _ _ _ _ h, Tile.scalar]

theorem pred_setPred_other (x : Tile) {n m : Nat} (v : Reg 4) (h : m ≠ n) : (x.setPred n v).pred m = x.pred m := by
  by_cases hn : n = 0
  · rw [hn, setPred_zero]
  · rw [setPred_of_ne x v hn, Tile.pred, SMap.get_set_other _ _ _ _ _ h, Tile.pred]

end Sys2Proof.Machine
end

section
/-! O52: rinds and the hardwired registers. -/

namespace Sys2Proof.Machine

/-- Settles O52: the CRC is affine because its step is linear, and what is bad is read off the rind's number. -/
theorem rindAndHardwired : Obligations.RindAndHardwired := by
  unfold Obligations.RindAndHardwired
  refine ⟨bad_iff, fun d => ⟨fresh_good d, rfl, poison_bad d, poison_rind d⟩, fun a b => ?_, fun x => ?_⟩
  · rw [BitVec.toNat_xor, crc7_xor]
  · rw [scalar_zero, pred_zero]
    exact ⟨by decide, by decide, by decide, predOnes_clean, setScalar_zero x, setPred_zero x,
      fun _ v hn _ => ⟨scalar_setScalar_same x v hn, fun _ => scalar_setScalar_other x v⟩,
      fun _ v hn _ => ⟨pred_setPred_same x v hn, fun _ => pred_setPred_other x v⟩⟩

end Sys2Proof.Machine
end

section
/-! SUPPORT. O9: the check of a bad scalar (R67, R71), and what the scalar instructions check. -/

namespace Sys2Proof.Machine

open Sys2Proof.Claims

/-- The fault of a bad scalar source. -/
def badScalarFlt (x : Tile) (slot opnd n : Nat) : Flt :=
  (rankI slot, x.issueTrap clsI (badLow ((x.scalar n).gran 0)) (badInfo slot opnd 0 0 ((x.scalar n).gran 0)))

theorem consumeS_bad (x : Tile) (slot opnd n : Nat) (h : ((x.scalar n).gran 0).bad = true) :
    x.consumeS slot opnd n = [badScalarFlt x slot opnd n] := by
  have hf : (x.scalar n).firstBad (fun _ => true) = some (0, (x.scalar n).gran 0) := by
    simp [Reg.firstBad, h]
  rw [Tile.consumeS, Tile.consume, hf]
  rfl

/-- The class I faults of one slot have one rank, whatever is bad. -/
theorem consumeS_rank (x : Tile) (slot opnd n : Nat) : ∀ q ∈ x.consumeS slot opnd n, q.1 = rankI slot := by
  intro q hq
  rw [Tile.consumeS, Tile.consume] at hq
  split at hq
  · cases hq
  · rw [List.mem_singleton.mp hq]

/-- Of faults of no lower rank that come later, the first is taken. -/
theorem pickFault_cons (q : Flt) (l : List Flt) (h : ∀ p ∈ l, q.1 ≤ p.1) : pickFault (q :: l) = some q := by
  rw [pickFault]
  split
  · rfl
  · rename_i p hp
    rw [if_neg (Nat.not_lt.mpr (h p (pickFault_mem l p hp)))]

/-- An instruction that checks its scalar source a first raises class I with operand code 0 when that is bad, whatever its later sources of
the slot hold. -/
theorem issueSlot_badFirst {s act : State} {i : Instr} {f : SF} {rest : List Flt} (hw : i.wf = true) (hc : s.tile.sCond f = true)
    (hr : ∀ q ∈ rest, q.1 = rankI 0) (hb : ((s.tile.scalar f.a.toNat).gran 0).bad = true) :
    s.issueSlot i [] (s.tile.sCond f) (s.tile.consumeS 0 0 f.a.toNat ++ rest) none act =
      .next (badSource s 0 0 ((s.tile.scalar f.a.toNat).gran 0)) := by
  rw [hc, consumeS_bad _ _ _ _ hb]
  exact issueSlot_faults s i [] _ none act _ (by simp [staticErrs_wf i hw, EncErr.first]) (pickFault_cons _ _ fun q hq => (hr q hq).ge)

/-- The register forms of two sources check a, then b (R154). -/
theorem exec_registerForm (s : State) (f : SF) : ∀ i ∈ scalarOps.map (fun e => e.1 f) ++ divisions.map (fun e => e.1 f),
    ∃ act, exec i s = s.issueSlot i [] (s.tile.sCond f) (s.tile.consumeS 0 0 f.a.toNat ++ s.tile.consumeS 0 1 f.b.toNat) none act := by
  intro i hi
  fin_cases hi <;> exact ⟨_, rfl⟩

/-- The immediate forms and the operations of one source check a alone (R154). -/
theorem exec_singleSource (s : State) (f : SF) :
    ∀ i ∈ scalarOps.map (fun e => e.2.1 f) ++ divisions.map (fun e => e.2.1 f) ++ scalarUnary.map (fun e => e.1 f),
    ∃ act, exec i s = s.issueSlot i [] (s.tile.sCond f) (s.tile.consumeS 0 0 f.a.toNat) none act := by
  intro i hi
  fin_cases hi <;> exact ⟨_, rfl⟩

theorem mem_scalarSourced {f : SF} {i : Instr} (h : i ∈ scalarSourced f) :
    i ∈ scalarOps.map (fun e => e.1 f) ++ divisions.map (fun e => e.1 f) ∨
    i ∈ scalarOps.map (fun e => e.2.1 f) ++ divisions.map (fun e => e.2.1 f) ++ scalarUnary.map (fun e => e.1 f) := by
  simp only [scalarSourced, List.mem_append, List.mem_flatMap, List.mem_pair, List.mem_map] at h ⊢
  obtain (⟨e, he, rfl | rfl⟩ | ⟨e, he, rfl | rfl⟩) | h := h
  · exact .inl (.inl ⟨e, he, rfl⟩)
  · exact .inr (.inl (.inl ⟨e, he, rfl⟩))
  · exact .inl (.inr ⟨e, he, rfl⟩)
  · exact .inr (.inl (.inr ⟨e, he, rfl⟩))
  · exact .inr (.inr h)

/-- Every operation that reads a scalar first checks it before its other faults, which are class I of the same slot. -/
theorem exec_scalarSourced (s : State) {f : SF} {i : Instr} (h : i ∈ scalarSourced f) : ∃ rest act,
    exec i s = s.issueSlot i [] (s.tile.sCond f) (s.tile.consumeS 0 0 f.a.toNat ++ rest) none act ∧ ∀ q ∈ rest, q.1 = rankI 0 := by
  obtain h | h := mem_scalarSourced h
  · obtain ⟨act, hx⟩ := exec_registerForm s f i h
    exact ⟨_, act, hx, consumeS_rank _ _ _ _⟩
  · obtain ⟨act, hx⟩ := exec_singleSource s f i h
    exact ⟨[], act, by rw [hx, List.append_nil], fun _ hq => by cases hq⟩

end Sys2Proof.Machine
end

section
/-! O9: a bad scalar source. -/

namespace Sys2Proof.Machine

/-- Settles O9: the first source's fault comes first among faults of one rank, and the second's stands alone when the first is good. -/
theorem badScalarSourceTraps : Obligations.BadScalarSourceTraps := by
  unfold Obligations.BadScalarSourceTraps
  refine fun s f hc => ⟨fun i hi hw hb => ?_, fun i hi hw ha hb => ?_⟩
  · obtain ⟨rest, act, hx, hr⟩ := exec_scalarSourced s hi
    exact hx.trans (issueSlot_badFirst hw hc hr hb)
  · obtain ⟨act, hx⟩ := exec_registerForm s f i hi
    rw [consumeS_good _ _ _ _ ha, List.nil_append] at hx
    exact hx.trans (issueSlot_wf_fault s i _ _ none act _ hw hc (consumeS_bad _ _ _ _ hb))

end Sys2Proof.Machine
end

section
/-! SUPPORT. O36: the fields of RINJ, what an injection does to a granule, and when the ports of a bank are free. -/

namespace Sys2Proof.Machine

open Sys2Proof.Check

/-! ## Injection of a granule (R81) -/

theorem injectGran_unmarked (act mask pat j : Nat) (g : Gran) (h : bit mask j = false) : injectGran act mask pat j g = g := by
  simp [injectGran, h]

theorem injectGran_data_rind (mask pat j : Nat) (g : Gran) (h : bit mask j = true) : (injectGran 1 mask pat j g).r = g.r := by
  simp [injectGran, h]

theorem injectGran_rind_data (mask pat j : Nat) (g : Gran) (h : bit mask j = true) : (injectGran 0 mask pat j g).d = g.d := by
  simp [injectGran, h]

theorem injectGran_poison (mask pat j : Nat) (g : Gran) (h : bit mask j = true) : injectGran 2 mask pat j g = Gran.poison g.d := by
  simp [injectGran, h, Gran.poison]

/-! ## The ports of a bank (R185) -/

theorem le_firstFree (busy : Nat → Bool) (n c : Nat) : c ≤ firstFree busy n c := by
  induction n generalizing c with
  | zero => exact le_rfl
  | succ n ih =>
    rw [firstFree]
    split
    · exact (Nat.le_succ c).trans (ih (c + 1))
    · exact le_rfl

theorem firstFree_le (busy : Nat → Bool) (n c : Nat) : firstFree busy n c ≤ c + n := by
  induction n generalizing c with
  | zero => exact le_rfl
  | succ n ih =>
    rw [firstFree]
    split
    · exact (ih (c + 1)).trans (by omega)
    · exact Nat.le_add_right c _

theorem busy_before_firstFree (busy : Nat → Bool) (n c k : Nat) (hc : c ≤ k) (hk : k < firstFree busy n c) : busy k = true := by
  induction n generalizing c with
  | zero => exact absurd hk (Nat.not_lt.mpr hc)
  | succ n ih =>
    rw [firstFree] at hk
    split at hk
    · rename_i hb
      obtain rfl | hlt := hc.eq_or_lt
      · exact hb
      · exact ih (c + 1) hlt hk
    · exact absurd hk (Nat.not_lt.mpr hc)

theorem firstFree_of_free (busy : Nat → Bool) (n c : Nat) (h : busy c = false) : firstFree busy n c = c := by
  refine (le_firstFree busy n c).antisymm' (Nat.le_of_not_lt fun hlt => ?_)
  rw [busy_before_firstFree busy n c c le_rfl hlt] at h
  cases h

/-- A single row is delayed to the first cycle in which its bank's ports are free. -/
theorem planPorts_single_delay (busy : Nat → Nat → Bool) (t lim row : Nat) :
    (planPorts busy t lim [row]).delay = firstFree (fun c => busy c (row / 128)) 256 t - t := by
  simp [planPorts]

/-! ## What a claim of ports and a pending row change -/

theorem claim_pad (s : State) (kind : Nat) (p : PortPlan) : (s.claim kind p).tile.pad = s.tile.pad := by
  rw [State.claim, tile_onTile]
  dsimp only
  split <;> split <;> rfl

theorem claim_pend (s : State) (kind : Nat) (p : PortPlan) : (s.claim kind p).tile.pend = s.tile.pend := by
  rw [State.claim, tile_onTile]
  dsimp only
  split <;> split <;> rfl

theorem addPend_single_pend (x : Tile) (row : Nat) : (x.addPend [row]).pend.get 0 row = x.pend.get 0 row + 1 := by
  rw [Tile.addPend, List.foldl_cons, List.foldl_nil, SMap.modify, SMap.get_set_same]

theorem mem_agenda_schedule (s : State) (n o : Nat) (ev : Ev) : (⟨n, o, ev⟩ : Entry) ∈ (s.schedule n o ev).agenda := mem_agendaIns _ _

theorem tile_schedule (s : State) (n o : Nat) (ev : Ev) : (s.schedule n o ev).tile = s.tile := rfl

/-! ## RINJ at issue (R80, R82) -/

theorem rinjTarget_eq (f : SF) : rinjTarget f = f.imm32.toNat % 512 :=
  (bits_eq _ _ _).trans (by norm_num)

theorem rinjClass_eq (f : SF) : rinjClass f = f.imm32.toNat / 512 % 8 := bits_eq _ _ _

theorem rinjAct_eq (f : SF) : rinjAct f = f.imm32.toNat / 4096 % 4 := bits_eq _ _ _

/-- The mask and the pattern of an RINJ are consumers (R81). -/
def rinjOperands (x : Tile) (f : SF) : List Flt := x.consumeS 0 5 f.a.toNat ++ x.consumeS 0 5 f.b.toNat

theorem rinjOperands_good {x : Tile} {f : SF} (ha : x.GoodS f.a) (hb : x.GoodS f.b) : rinjOperands x f = [] := by
  rw [rinjOperands, consumeS_good _ _ _ _ ha, consumeS_good _ _ _ _ hb, List.append_nil]

theorem privErr_supervisor (k : Nat) {sv : Bool} (h : sv = true) : privErr k sv = [] := by
  rw [h]
  rfl

/-- An RINJ at supervisor level whose condition holds and whose operands are good acts. -/
theorem rinj_acts {s act : State} {f : SF} {faults : List Flt} (hw : (Instr.rinj f).wf = true) (hv : s.tile.sv? = true)
    (hc : s.tile.sCond f = true) (hf : faults = []) :
    s.issueSlot (.rinj f) (privErr 0 s.tile.sv?) (s.tile.sCond f) faults none act = .next (act.note .acted) :=
  issueSlot_wf_dyn s _ _ _ _ _ hw (privErr_supervisor 0 hv) hc hf

/-- What an RINJ of a register puts in flight, by its class: only marked granules are written (R81). -/
def rinjRegWrite (x : Tile) (f : SF) : List RWrite :=
  let act := rinjAct f
  let n := rinjTarget f
  let mask := x.sv f.a.toNat
  let pat := x.sv f.b.toNat
  match rinjClass f with
  | 0 => injectWrite 32 mask (.vec n (injectReg act mask pat (x.vec n)) (BitVec.ofNat 256 (selMask 8 32 mask)) none)
  | 1 => injectWrite 1 mask (.scalar (BitVec.ofNat 6 n) (injectReg act mask pat (x.scalar n)))
  | _ => injectWrite 4 mask (.pred (BitVec.ofNat 5 n) (injectReg act mask pat (x.pred n)) (BitVec.ofNat 256 (selMask 64 4 mask)))

theorem exec_rinj_register (s : State) (f : SF) (h : rinjClass f < 3) : exec (.rinj f) s =
    s.issueSlot (.rinj f) (privErr 0 s.tile.sv?) (s.tile.sCond f) (rinjOperands s.tile f) none (s.land 0 1 (rinjRegWrite s.tile f)) := by
  change execRinj f s = _
  obtain h | h | h : rinjClass f = 0 ∨ rinjClass f = 1 ∨ rinjClass f = 2 := by omega
  all_goals
    simp only [execRinj, rinjRegWrite, h]
    rfl

/-- The row that an RINJ of class 3 names. -/
def rinjRow (x : Tile) (f : SF) : Nat := rowOf (x.sv f.d.toNat)

/-- The ports that an RINJ of a row takes: it waits for them without freezing. -/
def rinjPlan (s : State) (f : SF) : PortPlan := planPorts (s.tile.bothBusy s.now) (s.now + 4) 1 [rinjRow s.tile f]

/-- The state in which an RINJ of a row leaves the basin: the ports claimed, the row pending, the injection in the calendar. -/
def rinjRowState (s : State) (f : SF) : State :=
  let now := { rinjPlan s f with delay := 0 }
  (((s.claim 1 now).claim 2 now).onTile fun x => x.addPend [rinjRow s.tile f]).schedule (s.now + 4 + (rinjPlan s f).delay) (ordWrite s.cur 1)
    (.padInject s.cur s.now (rinjRow s.tile f) (rinjAct f) (s.tile.sv f.a.toNat) (s.tile.sv f.b.toNat))

theorem exec_rinj_row (s : State) (f : SF) (h : rinjClass f = 3) : exec (.rinj f) s =
    s.issueSlot (.rinj f) (privErr 0 s.tile.sv?) (s.tile.sCond f)
      (s.tile.consumeS 0 3 f.d.toNat ++ rinjOperands s.tile f ++
        (if padSize ≤ s.tile.sv f.d.toNat then [s.tile.localT 0 1 (s.tile.sv f.d.toNat)] else [])) none (rinjRowState s f) := by
  change execRinj f s = _
  simp only [execRinj, h]
  rfl

theorem rinjRowState_pend (s : State) (f : SF) :
    (rinjRowState s f).tile.pend.get 0 (rinjRow s.tile f) = s.tile.pend.get 0 (rinjRow s.tile f) + 1 := by
  rw [rinjRowState, tile_schedule, tile_onTile, addPend_single_pend, claim_pend, claim_pend]

theorem rinjRowState_pad (s : State) (f : SF) : (rinjRowState s f).tile.pad = s.tile.pad := by
  rw [rinjRowState, tile_schedule, tile_onTile]
  exact (claim_pad _ _ _).trans (claim_pad _ _ _)

end Sys2Proof.Machine
end

section
/-! O36: fault injection. -/

namespace Sys2Proof.Machine

open Sys2Proof.Check

theorem rinj_register_acts {s : State} {f : SF} (hw : (Instr.rinj f).wf = true) (hv : s.tile.sv? = true) (hc : s.tile.sCond f = true)
    (ha : s.tile.GoodS f.a) (hb : s.tile.GoodS f.b) (h : rinjClass f < 3) :
    exec (.rinj f) s = .next ((s.land 0 1 (rinjRegWrite s.tile f)).note .acted) :=
  (exec_rinj_register s f h).trans (rinj_acts hw hv hc (rinjOperands_good ha hb))

theorem rinj_row_acts {s : State} {f : SF} (hw : (Instr.rinj f).wf = true) (hv : s.tile.sv? = true) (hc : s.tile.sCond f = true)
    (ha : s.tile.GoodS f.a) (hb : s.tile.GoodS f.b) (hd : s.tile.GoodS f.d) (hin : s.tile.sv f.d.toNat < 2 ^ 21) (h : rinjClass f = 3) :
    exec (.rinj f) s = .next ((rinjRowState s f).note .acted) :=
  (exec_rinj_row s f h).trans
    (rinj_acts hw hv hc (by rw [consumeS_good _ _ _ _ hd, rinjOperands_good ha hb, if_neg (Nat.not_le.mpr hin)]; rfl))

/-- The cycle of a row's injection is the first from issue + 4 on in which both ports are free, at most 256 cycles later (R82). -/
theorem rinjPlan_cycle (s : State) (f : SF) :
    s.now + 4 + (rinjPlan s f).delay = firstFree (fun c => s.tile.bothBusy s.now c (rinjRow s.tile f / 128)) 256 (s.now + 4) := by
  rw [rinjPlan, planPorts_single_delay]
  exact Nat.add_sub_cancel' (le_firstFree _ _ _)

/-- Settles O36: each class acts at issue, a row at the first cycle with both ports free, and an injection keeps what it does not mark. -/
theorem faultInjection : Obligations.FaultInjection := by
  unfold Obligations.FaultInjection
  intro s f n m p hn hm hp hw hv hc ha hb
  rw [← rinjTarget_eq] at hn
  rw [← rinjClass_eq, ← rinjAct_eq]
  subst hn hm hp
  have hreg := rinj_register_acts hw hv hc ha hb
  refine ⟨fun h => ?_, fun h => ?_, fun h => ?_, fun h hd hin => ?_, fun a j g => injectGran_unmarked a _ _ j g,
    fun j g h => ⟨injectGran_data_rind _ _ j g h, injectGran_rind_data _ _ j g h, ?_⟩⟩
  · simp only [hreg (by omega), rinjRegWrite, h]
  · simp only [hreg (by omega), rinjRegWrite, h]
  · simp only [hreg (by omega), rinjRegWrite, h]
  · have hcyc := rinjPlan_cycle s f
    refine ⟨_, _, rinj_row_acts hw hv hc ha hb hd hin h, by rw [tile_note], mem_agenda_schedule _ _ _ _,
      fun hfree => hcyc.trans (firstFree_of_free _ _ _ hfree), Nat.le_add_right _ _, hcyc.le.trans (firstFree_le _ _ _),
      fun c h4 hlt => busy_before_firstFree _ 256 _ c h4 (hlt.trans_le hcyc.le), ?_, rfl, ?_⟩
    · rw [tile_note]
      exact rinjRowState_pend s f
    · rw [tile_note]
      exact rinjRowState_pad s f
  · rw [injectGran_poison _ _ j g h]
    exact poison_bad g.d

end Sys2Proof.Machine
end

section
/-! Decoding and encoding: what each slot's opcode table answers, when a slot decodes, and which instructions have a word. -/

namespace Sys2Proof

open Laws.Encoding

theorem Instr.wf_iff (i : Instr) : i.wf = true ↔ encErrs i = [] ∧ i.v1Ok = true := by
  simp [Instr.wf]

/-! ## The opcode tables -/

/-- An S-slot opcode names the instruction whose word has that opcode. -/
theorem opS_some {op : Nat} {f : SF} {i : Instr} (h : opS op f = some i) :
    encode i = some (0, SF.word op f) ∧ i.v1Ok = true := by
  unfold opS at h
  split at h <;> cases h <;> exact ⟨rfl, rfl⟩

/-- The place of a V-slot word is its `v1`; a V1-only opcode is admitted in V1 only (R128). -/
theorem opV_some {op : Nat} {f : VF} {i : Instr} (h : opV op f = some i) :
    encode i = some (if f.v1 then 2 else 1, VF.word op f) ∧ i.v1Ok = (!v1Only op || f.v1) := by
  unfold opV at h
  split at h <;> cases h <;> exact ⟨rfl, rfl⟩

theorem opM_some {op : Nat} {f : MF} {i : Instr} (h : opM op f = some i) :
    encode i = some (3, MF.word op f) ∧ i.v1Ok = true := by
  unfold opM at h
  split at h <;> cases h <;> exact ⟨rfl, rfl⟩

theorem opL_some {op : Nat} {f : LF} {i : Instr} (h : opL op f = some i) :
    encode i = some (4, LF.word op f) ∧ i.v1Ok = true := by
  unfold opL at h
  split at h <;> cases h <;> exact ⟨rfl, rfl⟩

theorem opT_some {op : Nat} {f : TF} {i : Instr} (h : opT op f = some i) :
    encode i = some (5, TF.word op f) ∧ i.v1Ok = true := by
  unfold opT at h
  split at h <;> cases h <;> exact ⟨rfl, rfl⟩

theorem opC_some {op : Nat} {f : CF} {i : Instr} (h : opC op f = some i) :
    encode i = some (6, CF.word op f) ∧ i.v1Ok = true := by
  unfold opC at h
  split at h <;> cases h <;> exact ⟨rfl, rfl⟩

theorem opY_some {op : Nat} {f : YF} {i : Instr} (h : opY op f = some i) :
    encode i = some (7, YF.word op f) ∧ i.v1Ok = true := by
  unfold opY at h
  split at h <;> cases h <;> exact ⟨rfl, rfl⟩

/-- The instruction that a slot's opcode names has the slot's word, and may stand there unless it is V1-only in V0. -/
theorem slotInstr_some {k w : Nat} {i : Instr} (hw : w < 2 ^ slotWidth k) (h : slotInstr k w = some i) :
    encode i = some (k, w) ∧ i.v1Ok = !(k == 1 && v1Only (bits w 0 10)) := by
  unfold slotInstr at h
  split at h
  · obtain ⟨he, hv⟩ := opS_some h
    exact ⟨by rw [he, SF.word_ofNat w hw], hv⟩
  · obtain ⟨he, hv⟩ := opV_some h
    exact ⟨by rw [he, VF.word_ofNat false w hw]; rfl, by simpa [VF.ofNat] using hv⟩
  · obtain ⟨he, hv⟩ := opV_some h
    exact ⟨by rw [he, VF.word_ofNat true w hw]; rfl, by simpa [VF.ofNat] using hv⟩
  · obtain ⟨he, hv⟩ := opM_some h
    exact ⟨by rw [he, MF.word_ofNat w hw], hv⟩
  · obtain ⟨he, hv⟩ := opL_some h
    exact ⟨by rw [he, LF.word_ofNat w hw], hv⟩
  · obtain ⟨he, hv⟩ := opT_some h
    exact ⟨by rw [he, TF.word_ofNat w hw], hv⟩
  · obtain ⟨he, hv⟩ := opC_some h
    exact ⟨by rw [he, CF.word_ofNat w hw], hv⟩
  · obtain ⟨he, hv⟩ := opY_some h
    exact ⟨by rw [he, YF.word_ofNat w hw], hv⟩
  · cases h

/-! ## Decoding a slot -/

/-- A slot with an opcode decodes to the instruction that it names, if that stands where it may and meets no condition of R128. -/
theorem decodeSlot_ok_iff_of_opcode {k w : Nat} {i : Instr} (h0 : bits w 0 (opWidth k) ≠ 0) :
    decodeSlot k w = .ok i ↔ slotInstr k w = some i ∧ (k == 1 && v1Only (bits w 0 10)) = false ∧ encErrs i = [] := by
  rw [decodeSlot, if_neg h0]
  cases slotInstr k w with
  | none => simp
  | some j =>
    by_cases hv : k = 1 ∧ v1Only (bits w 0 10) = true
    · simp [hv]
    · have hv' : (k == 1 && v1Only (bits w 0 10)) = false := by simpa using hv
      by_cases he : encErrs j = []
      · simp only [if_neg hv, if_pos he, hv', Option.some.injEq, Except.ok.injEq, true_and]
        exact ⟨fun h => ⟨h, h ▸ he⟩, And.left⟩
      · simp only [if_neg hv, if_neg he, reduceCtorEq, Option.some.injEq, false_iff]
        rintro ⟨rfl, -, h⟩
        exact he h

/-- The opcode and the fields of a slot hold its every bit. -/
theorem slotFields_cover : ∀ k < 8, ∀ j < slotWidth k, j < opWidth k ∨ ∃ p ∈ slotFields k, p.1 ≤ j ∧ j < p.1 + p.2 := by
  decide

theorem testBit_of_bits_zero {x lo n j : Nat} (h : bits x lo n = 0) (hlo : lo ≤ j) (hj : j < lo + n) : x.testBit j = false := by
  have hb := Machine.testBit_bits x lo n (j - lo)
  rw [h, Nat.zero_testBit, decide_eq_true (by omega : j - lo < n), Bool.true_and, Nat.add_sub_cancel' hlo] at hb
  exact hb.symm

theorem eq_zero_of_fields {k w : Nat} (hk : k < 8) (hw : w < 2 ^ slotWidth k) (h0 : bits w 0 (opWidth k) = 0)
    (hf : ∀ p ∈ slotFields k, bits w p.1 p.2 = 0) : w = 0 := by
  refine Nat.eq_of_testBit_eq fun j => ?_
  rw [Nat.zero_testBit]
  by_cases hj : j < slotWidth k
  · obtain hop | ⟨p, hp, hlo, hhi⟩ := slotFields_cover k hk j hj
    · exact testBit_of_bits_zero h0 (Nat.zero_le j) (by omega)
    · exact testBit_of_bits_zero (hf p hp) hlo hhi
  · exact Nat.testBit_lt_two_pow (hw.trans_le (Nat.pow_le_pow_right (by decide) (by omega)))

/-- A slot without an opcode decodes to the NOP, and only if it is all zeros (R110, R111). -/
theorem decodeSlot_ok_of_zero_opcode {k w : Nat} {i : Instr} (hk : k < 8) (hw : w < 2 ^ slotWidth k) (h0 : bits w 0 (opWidth k) = 0)
    (h : decodeSlot k w = .ok i) : w = 0 ∧ i = .nop ⟨k, hk⟩ := by
  rw [decodeSlot, if_pos h0, dif_pos hk] at h
  split at h
  · rename_i hf
    cases h
    exact ⟨eq_zero_of_fields hk hw h0 (by simpa using hf), rfl⟩
  · cases h

theorem decodeSlot_zero (p : Fin 8) : decodeSlot p.val 0 = .ok (.nop p) := by
  fin_cases p <;> rfl

/-! ## Which instructions have a word -/

/-- An instruction is an event, or it has a word of its slot whose opcode names it. -/
theorem encodes_or_event (i : Instr) : encode i ≠ none ∧ Statement i ∨ i ∈ Claims.events := by
  cases i with
  | nop p => exact .inl ⟨Option.some_ne_none _, nop p⟩
  | add f | sub f | mul f | mulhi f | mulhn f | divi f | divn f | remi f | remn f | and f | or f | xor f | andn f | shl f | shr f | sra f
  | rol f | mini f | maxi f | minn f | maxn f | adds f | subs f | bfx f | bfi f | cmp f | sel f | addImmediate f | subImmediate f
  | mulImmediate f | mulhiImmediate f | mulhnImmediate f | diviImmediate f | divnImmediate f | remiImmediate f | remnImmediate f
  | andImmediate f | orImmediate f | xorImmediate f | andnImmediate f | shlImmediate f | shrImmediate f | sraImmediate f | rolImmediate f
  | miniImmediate f | maxiImmediate f | minnImmediate f | maxnImmediate f | addsImmediate f | subsImmediate f | bfxImmediate f | bfiImmediate f
  | cmpImmediate f | selImmediate f | movi f | movhi f | clz f | ctz f | popc f | brev f | sext f | pand f | por f | pxor f | pandn f | pnot f
  | pcnt f | pfirst f | plast f | pfrom f | plen f | ptos f | mfsr f | mtsr f | rinj f =>
    exact .inl ⟨Option.some_ne_none _, of_s _ _ f rfl (by decide) (by decide) rfl⟩
  | vadd f | vsub f | vmul f | vfma f | vfms f | vfnma f | vmin f | vmax f | vminn f | vmaxn f | vabs f | vneg f | vabd f | vadds f | vsubs f
  | vmulh f | vdot4 f | vavg f | vclamp f | vand f | vor f | vxor f | vandn f | vnot f | vshl f | vshr f | vsra f | vrol f | vpopc f | vclz f
  | vcmp f | vclass f | vsel f | vmov f | vmovi f | vext f | vins f | vcvt f | vqnt f | vdqnt f | vpack f | vunpk f | vperm f | vshuf f
  | vslide f | vbcast f | vcomp f | vexpd f | vred f | vscan f | vsegscan f | vrec f | vmacw f | zmovn f | zmovw f | vrcp f | vrsq f | vsqrt f
  | vdiv f | vexp2 f | vlog2 f | vexp f | vtanh f | vsigm f | vsint f | vcost f | vrchk f =>
    exact .inl ⟨Option.some_ne_none _, of_v _ _ f rfl (by decide) (by decide) rfl⟩
  | mldb f | mldbt f | mma f | mmaz f | mmac f | mzero f | mzset f | mrowsum f | mzpc f | mdrain f | mzld f | mxsave f | mxrest f =>
    exact .inl ⟨Option.some_ne_none _, of_m _ _ f rfl (by decide) (by decide) rfl⟩
  | vld f | vlds f | vldg f | vldb f | lds f | gld f | gldv f | pld f | ppop f | ldtag f | gpref f =>
    exact .inl ⟨Option.some_ne_none _, of_l _ _ f rfl (by decide) (by decide) rfl⟩
  | vst f | vsts f | vstx f | sts f | gst f | gstv f | pst f | aadd f | aaddf f | amin f | amax f | aand f | aor f | axor f | aswp f | acas f
  | ppush f | peos f | sttag f | gflush f =>
    exact .inl ⟨Option.some_ne_none _, of_t _ _ f rfl (by decide) (by decide) rfl⟩
  | cloop f | cbase f | cgo f | cstop f | cquery f | tbind f | tunbind f | tflush f | wcreate f | wfree f | wfence f | wpost f | wstart f
  | wcompl f | wdone f | wlock f | wunlock f | wput f | wget f | wacc f | wamo f | wflush f | wtest f | hinit f | htest f | hread f | coll f
  | cinc f | cread f | cset f | tspawn f | pbind f | teffect f | caskdup f | caskdisc f | caskq f =>
    exact .inl ⟨Option.some_ne_none _, of_c _ _ f rfl (by decide) (by decide) rfl⟩
  | br f | brp f | brs f | jr f | call f | callr f | ret f | loop f | loopi f | sync f | waitc f | waith f | fence f | yield f | susp f
  | suspg f | rsm f | trap f | eret f | halt f | bkpt f =>
    exact .inl ⟨Option.some_ne_none _, of_y _ _ f rfl (by decide) (by decide) rfl⟩
  | _ => exact .inr (by decide)

theorem encode_event : ∀ i ∈ Claims.events, encode i = none := by
  decide

/-- The word of an instruction fits its slot, and the opcode in it names the instruction. -/
theorem encode_statement (i : Instr) : Statement i := by
  obtain ⟨-, h⟩ | h := encodes_or_event i
  · exact h
  · exact of_none i (encode_event i h)

/-! ## The round trip -/

theorem encode_fits {i : Instr} {k w : Nat} (h : encode i = some (k, w)) : k < 8 ∧ w < 2 ^ slotWidth k := by
  obtain ⟨hk, hw, -⟩ := encode_statement i k w h
  exact ⟨hk, hw⟩

theorem decodeSlot_of_encode {i : Instr} {k w : Nat} (hwf : i.wf = true) (h : encode i = some (k, w)) : decodeSlot k w = .ok i := by
  obtain ⟨-, hw, ⟨rfl, p, rfl⟩ | ⟨h0, hi⟩⟩ := encode_statement i k w h
  · cases h
    exact decodeSlot_zero p
  · obtain ⟨he, hv⟩ := i.wf_iff.mp hwf
    have hs := hv.symm.trans (slotInstr_some hw hi).2
    exact (decodeSlot_ok_iff_of_opcode h0).mpr ⟨hi, (Bool.not_eq_true' _).mp hs.symm, he⟩

theorem encode_of_decodeSlot {i : Instr} {k w : Nat} (hk : k < 8) (hw : w < 2 ^ slotWidth k) (h : decodeSlot k w = .ok i) :
    i.wf = true ∧ encode i = some (k, w) := by
  by_cases h0 : bits w 0 (opWidth k) = 0
  · obtain ⟨rfl, rfl⟩ := decodeSlot_ok_of_zero_opcode hk hw h0 h
    exact ⟨rfl, rfl⟩
  · obtain ⟨hi, hv, he⟩ := (decodeSlot_ok_iff_of_opcode h0).mp h
    obtain ⟨hword, hok⟩ := slotInstr_some hw hi
    exact ⟨i.wf_iff.mpr ⟨he, by rw [hok, hv]; rfl⟩, hword⟩

/-- Two well-formed instructions with the same word are the same, since that word decodes to both. -/
theorem encode_injective {i j : Instr} (hi : i.wf = true) (hj : j.wf = true) (hn : encode i ≠ none) (h : encode i = encode j) : i = j := by
  obtain ⟨⟨k, w⟩, hw⟩ := Option.ne_none_iff_exists'.mp hn
  have hd := (decodeSlot_of_encode hi hw).symm.trans (decodeSlot_of_encode hj (h ▸ hw))
  exact Except.ok.inj hd

/-- Settles O58: encoding and decoding a slot are inverse on the well-formed instructions. -/
theorem decodeEncode : Obligations.DecodeEncode := by
  unfold Obligations.DecodeEncode
  refine ⟨fun i k w hwf h => ?_, fun i hi => ((encodes_or_event i).resolve_right hi).1, encode_event, fun i j => encode_injective,
    fun k w i => encode_of_decodeSlot⟩
  obtain ⟨hk, hw⟩ := encode_fits h
  exact ⟨hk, hw, decodeSlot_of_encode hwf h⟩

end Sys2Proof
end

section
/-! O8: an instruction whose condition is false does nothing (R124). -/

namespace Sys2Proof.Machine

open Sys2Proof.Check

/-! ## The shared forms of issue -/

section
variable {s : State} {i : Instr}

/-- A false condition, for the instructions that the mode cannot forbid. -/
theorem issueFix_idle_of_wf {cond : Bool} {faults : List Flt} {fix : Flt → State} {wait : Option (Wait × State)} {act : State}
    (hw : i.wf = true) (hc : cond = false) : s.issueFix i [] cond faults fix wait act = .next (s.note .acted) :=
  issueFix_idle s i [] cond faults fix wait act hw rfl hc

theorem issueSlot_idle_of_wf {cond : Bool} {faults : List Flt} {wait : Option (Wait × State)} {act : State}
    (hw : i.wf = true) (hc : cond = false) : s.issueSlot i [] cond faults wait act = .next (s.note .acted) :=
  issueFix_idle_of_wf hw hc

theorem issueSlot_idle_of_mode {dyn : List EncErr} {cond : Bool} {faults : List Flt} {wait : Option (Wait × State)} {act : State}
    (hw : i.wf = true) (hd : dyn = []) (hc : cond = false) : s.issueSlot i dyn cond faults wait act = .next (s.note .acted) :=
  issueFix_idle s i dyn cond faults _ wait act hw hd hc

theorem sBin_idle {f : SF} {lat : Nat} {g : Nat → Nat → Nat} (hw : i.wf = true) (hc : s.tile.sCond f = false) :
    s.sBin i f lat g = .next (s.note .acted) :=
  issueSlot_idle_of_wf hw hc

theorem sBinImm_idle {f : SF} {lat : Nat} {g : Nat → Nat → Nat} (hw : i.wf = true) (hc : s.tile.sCond f = false) :
    s.sBinImm i f lat g = .next (s.note .acted) :=
  issueSlot_idle_of_wf hw hc

theorem sDiv_idle {f : SF} {g : Nat → Nat → Nat} (hw : i.wf = true) (hc : s.tile.sCond f = false) :
    s.sDiv i f g = .next (s.note .acted) :=
  issueSlot_idle_of_wf hw hc

theorem sDivImm_idle {f : SF} {g : Nat → Nat → Nat} (hw : i.wf = true) (hc : s.tile.sCond f = false) :
    s.sDivImm i f g = .next (s.note .acted) :=
  issueSlot_idle_of_wf hw hc

theorem sUn_idle {f : SF} {g : Nat → Nat} (hw : i.wf = true) (hc : s.tile.sCond f = false) : s.sUn i f g = .next (s.note .acted) :=
  issueSlot_idle_of_wf hw hc

theorem sPred2_idle {f : SF} {g : Nat → Nat → Nat} (hw : i.wf = true) (hc : s.tile.sCond f = false) :
    s.sPred2 i f g = .next (s.note .acted) :=
  issueSlot_idle_of_wf hw hc

theorem sPredS_idle {f : SF} {g : Nat → Nat} (hw : i.wf = true) (hc : s.tile.sCond f = false) : s.sPredS i f g = .next (s.note .acted) :=
  issueSlot_idle_of_wf hw hc

theorem controlSlot_idle {f : CF} {faults : List Flt} {wait : Option (Wait × State)} {act : Nat → State} (hw : i.wf = true)
    (hc : s.tile.cCond f = false) : s.controlSlot i f faults wait act = .next (s.note .acted) :=
  issueSlot_idle_of_wf hw hc

theorem padLoad_idle {f : LF} {lat lim : Nat} {cond : Bool} {own : List Flt} {legal : Bool} {wb : Nat} {one chk : Bool} {l : PadLoad}
    {ws : List RWrite} (hw : i.wf = true) (hc : cond = false) :
    s.padLoad i f lat lim cond own legal wb one chk l ws = .next (s.note .acted) := by
  dsimp only [State.padLoad]
  exact issueFix_idle_of_wf hw hc

theorem padStore_idle {lim : Nat} {cond : Bool} {own : List Flt} {legal : Bool} {wb : Nat} {one : Bool} {addrs : List Nat}
    {ws : List GWrite} {nibs : List Nib} (hw : i.wf = true) (hc : cond = false) :
    s.padStore i lim cond own legal wb one addrs ws nibs = .next (s.note .acted) := by
  dsimp only [State.padStore]
  exact issueFix_idle_of_wf hw hc

theorem globalSlot_idle {cond : Bool} {slot va need : Nat} {own : List Flt} {gate : List Flt × Option (Wait × State)}
    {act : State → Nat → State} (hw : i.wf = true) (hc : cond = false) :
    s.globalSlot i cond slot va need own gate act = .next (s.note .acted) := by
  unfold State.globalSlot
  split <;> exact issueFix_idle_of_wf hw hc

theorem caskSlot_idle {f : CF} {need : Nat} {ev : Nat → Nat → Ev} (hw : i.wf = true) (hc : s.tile.cCond f = false) :
    s.caskSlot i f need ev = .next (s.note .acted) := by
  dsimp only [State.caskSlot]
  exact globalSlot_idle hw hc

theorem amoSlot_idle {f : TF} {op : Nat} (hw : i.wf = true) (hc : s.tile.tCond f = false) :
    s.amoSlot i f op = .next (s.note .acted) := by
  dsimp only [State.amoSlot, State.globalAmo, State.padAmo]
  split
  · exact globalSlot_idle hw hc
  · exact issueFix_idle_of_wf hw hc

theorem remoteSlot_idle {f : CF} {kind : OpKind} {len al need : Nat} {glob : Bool} {tag : Nat → Nat} (hw : i.wf = true)
    (hc : s.tile.cCond f = false) : s.remoteSlot i f kind len al need glob tag = .next (s.note .acted) := by
  unfold State.remoteSlot
  dsimp only
  split
  · split <;> exact issueFix_idle_of_wf hw hc
  · exact issueFix_idle_of_wf hw hc

theorem suspSlot_idle {f : YF} {dyn : List EncErr} {n : Nat} {wait : Option (Wait × State)} {act : SMap Nat → State} (hw : i.wf = true)
    (hd : dyn = []) (hc : s.tile.yCond f = false) : s.suspSlot i f dyn n wait act = .next (s.note .acted) := by
  unfold State.suspSlot
  dsimp only
  split <;> exact issueFix_idle s i dyn _ _ _ _ _ hw hd hc

end

/-! ## The instructions whose form depends on their operands -/

section
variable {s : State}

theorem execRinj_idle {f : SF} (hw : (Instr.rinj f).wf = true) (hv : s.tile.sv? = true) (hc : s.tile.sCond f = false) :
    execRinj f s = .next (s.note .acted) := by
  have hd := privErr_supervisor 0 hv
  unfold execRinj
  dsimp only
  split <;> exact issueSlot_idle_of_mode hw hd hc

theorem execGflush_idle {f : TF} (hw : (Instr.gflush f).wf = true) (hc : s.tile.tCond f = false) :
    execGflush f s = .next (s.note .acted) := by
  unfold execGflush
  dsimp only
  split
  · exact issueFix_idle_of_wf hw hc
  · split
    · exact issueFix_idle_of_wf hw hc
    · exact globalSlot_idle hw hc

theorem execCgo_idle {f : CF} (hw : (Instr.cgo f).wf = true) (hc : s.tile.cCond f = false) : execCgo f s = .next (s.note .acted) := by
  unfold execCgo
  dsimp only
  split
  · exact issueFix_idle_of_wf hw hc
  · dsimp only [State.cgoTensor]
    split <;> exact issueFix_idle_of_wf hw hc

theorem execColl_idle {f : CF} (hw : (Instr.coll f).wf = true) (hc : s.tile.cCond f = false) : execColl f s = .next (s.note .acted) := by
  unfold execColl
  extract_lets x a addr r errs own g s₁ go
  split
  · split <;> exact issueFix_idle_of_wf hw hc
  · exact issueFix_idle_of_wf hw hc

theorem execCaskdup_idle {f : CF} (hw : (Instr.caskdup f).wf = true) (hc : s.tile.cCond f = false) :
    execCaskdup f s = .next (s.note .acted) := by
  unfold execCaskdup
  dsimp only
  split <;> exact globalSlot_idle hw hc

/-- An RSM that has not acted leaves a running tile running, so that it does not wait for a claim (R441). -/
theorem execRsm_idle {f : YF} (hw : (Instr.rsm f).wf = true) (hc : s.tile.yCond f = false) (hr : s.tile.run = .running) :
    execRsm f s = .next (s.note .acted) := by
  unfold execRsm
  dsimp only
  split
  · exact issueFix_idle_of_wf hw hc
  · split
    · rw [State.issueSlot, issueFix_idle_of_wf hw hc]
      simp [hr]
    · exact issueFix_idle_of_wf hw hc
    · exact issueFix_idle_of_wf hw hc

/-! ## What the mode admits meets no condition on it -/

theorem comboErr_eq_nil {b : Bool} (h : b = false) : comboErr b = [] := by
  subst h
  rfl

theorem teffectErrs_of_admits {f : CF} (h : s.admits (.teffect f) = true) :
    (if modeX f = 2 then privErr 6 s.tile.sv? else []) = [] := by
  split
  · rename_i h2
    exact privErr_supervisor 6 (by simpa [State.admits, h2] using h)
  · rfl

theorem eretErrs_of_admits {f : YF} (h : s.admits (.eret f) = true) :
    privErr 7 s.tile.sv? ++ errIf (s.tile.sv? && !s.tile.trp) (encErr 7 .operandKind 0 5) = [] := by
  obtain ⟨hv, ht⟩ : s.tile.sv? = true ∧ s.tile.trp = true := by simpa [State.admits] using h
  rw [privErr_supervisor 7 hv, hv, ht]
  rfl

theorem suspErrs_of_admits {f : YF} (h : s.admits (.susp f) = true) : s.tile.suspErrs (bit (YF.x f) 1) = [] := by
  obtain ⟨ht, hm⟩ := Bool.and_eq_true_iff.mp h
  rw [← eq_of_beq ht, Tile.suspErrs, comboErr_eq_nil (bne_self_eq_false _), comboErr_eq_nil, List.append_nil]
  simpa [or_iff_not_imp_left] using hm

theorem suspgErrs_of_admits {f : YF} (h : s.admits (.suspg f) = true) : comboErr (gangBound (s.gangHere s.cur)) = [] :=
  comboErr_eq_nil ((Bool.not_eq_true' _).mp h)

end

/-- Settles O8: each instruction with a condition issues by a form that a false condition ends before any fault. -/
theorem falseConditionDoesNothing : Obligations.FalseConditionDoesNothing := by
  unfold Obligations.FalseConditionDoesNothing
  intro s i hw ha hc hr
  unfold exec
  cases i with
  | add f | sub f | mul f | mulhi f | mulhn f | and f | or f | xor f | andn f | shl f | shr f | sra f | rol f | mini f | maxi f | minn f
  | maxn f | adds f | subs f | bfx f => exact sBin_idle hw (Option.some.inj hc)
  | addImmediate f | subImmediate f | mulImmediate f | mulhiImmediate f | mulhnImmediate f | andImmediate f | orImmediate f | xorImmediate f
  | andnImmediate f | shlImmediate f | shrImmediate f | sraImmediate f | rolImmediate f | miniImmediate f | maxiImmediate f | minnImmediate f
  | maxnImmediate f | addsImmediate f | subsImmediate f | bfxImmediate f => exact sBinImm_idle hw (Option.some.inj hc)
  | divi f | divn f | remi f | remn f => exact sDiv_idle hw (Option.some.inj hc)
  | diviImmediate f | divnImmediate f | remiImmediate f | remnImmediate f => exact sDivImm_idle hw (Option.some.inj hc)
  | clz f | ctz f | popc f | brev f | sext f => exact sUn_idle hw (Option.some.inj hc)
  | pand f | por f | pxor f | pandn f => exact sPred2_idle hw (Option.some.inj hc)
  | pcnt f | pfirst f | plast f => exact sPredS_idle hw (Option.some.inj hc)
  | bfi f | bfiImmediate f | movi f | movhi f | pnot f | pfrom f | plen f | ptos f | ppop f | ldtag f | gpref f | ppush f | peos f | sttag f
  | cloop f | cbase f | cstop f | cquery f | tbind f | tunbind f | tflush f | wfree f | wflush f | wtest f | hinit f | htest f | hread f
  | cinc f | cread f | cset f | tspawn f | pbind f | br f | brp f | brs f | jr f | call f | callr f | ret f | loop f | loopi f | sync f
  | waitc f | waith f | fence f | yield f | trap f | halt f | bkpt f => exact issueSlot_idle_of_wf hw (Option.some.inj hc)
  | wfence f | wpost f | wcompl f | wdone f | wlock f | wunlock f => exact controlSlot_idle hw (Option.some.inj hc)
  | wstart f =>
    dsimp only [execWstart]
    exact controlSlot_idle hw (Option.some.inj hc)
  | wput f | wget f => exact remoteSlot_idle hw (Option.some.inj hc)
  | wacc f | wamo f =>
    dsimp only [execWacc, execWamo]
    exact remoteSlot_idle hw (Option.some.inj hc)
  | caskdisc f | caskq f => exact caskSlot_idle hw (Option.some.inj hc)
  | lds f | pld f =>
    dsimp only [execLds, execPld]
    exact padLoad_idle hw (Option.some.inj hc)
  | sts f | pst f =>
    dsimp only [execSts, execPst]
    exact padStore_idle hw (Option.some.inj hc)
  | gld f | gst f =>
    dsimp only [execGld, execGst]
    exact globalSlot_idle hw (Option.some.inj hc)
  | aadd f | aaddf f | amin f | amax f | aand f | aor f | axor f | aswp f | acas f => exact amoSlot_idle hw (Option.some.inj hc)
  | gflush f => exact execGflush_idle hw (Option.some.inj hc)
  | cgo f => exact execCgo_idle hw (Option.some.inj hc)
  | coll f => exact execColl_idle hw (Option.some.inj hc)
  | caskdup f => exact execCaskdup_idle hw (Option.some.inj hc)
  | rsm f => exact execRsm_idle hw (Option.some.inj hc) hr
  | rinj f => exact execRinj_idle hw ha (Option.some.inj hc)
  | mfsr f | mtsr f => exact issueSlot_idle_of_mode hw (privErr_supervisor 0 ha) (Option.some.inj hc)
  | wcreate f => exact issueSlot_idle_of_mode hw (privErr_supervisor 6 ha) (Option.some.inj hc)
  | teffect f => exact issueSlot_idle_of_mode hw (teffectErrs_of_admits ha) (Option.some.inj hc)
  | eret f => exact issueSlot_idle_of_mode hw (eretErrs_of_admits ha) (Option.some.inj hc)
  | susp f =>
    dsimp only [execSusp]
    exact suspSlot_idle hw (suspErrs_of_admits ha) (Option.some.inj hc)
  | suspg f =>
    dsimp only [execSuspg]
    exact suspSlot_idle hw (suspgErrs_of_admits ha) (Option.some.inj hc)
  | _ => cases hc

end Sys2Proof.Machine
end

section
/-! O10: a privileged instruction below supervisor level (R127). -/

namespace Sys2Proof.Machine

open Sys2Proof.Check

/-- A well-formed instruction that the mode forbids raises the first of the conditions that the mode meets. -/
theorem issueSlot_forbidden {s : State} {i : Instr} {dyn : List EncErr} {cond : Bool} {faults : List Flt} {wait : Option (Wait × State)}
    {act : State} {e : EncErr} (hw : i.wf = true) (he : EncErr.first dyn = some e) :
    s.issueSlot i dyn cond faults wait act = .next (s.raise (s.tile.encTrap e)) :=
  issueSlot_encoding s i dyn cond faults wait act e (by rw [staticErrs_wf i hw]; exact he)

theorem privErr_user (k : Nat) {sv : Bool} (h : sv = false) : EncErr.first (privErr k sv) = some (encErr k .privileged 0 (opWidth k - 1)) := by
  subst h
  rfl

/-- Of a privilege fault and a command that needs a handler, the latter is reported: its field begins at bit 0 (R130). -/
theorem first_mxErrs {x : Tile} (hv : x.sv? = false) : EncErr.first x.mxErrs =
    some (if x.trp then encErr 3 .privileged 0 5 else ⟨.slotCombination, 9, 0, 511⟩) := by
  rw [Tile.mxErrs, hv]
  cases x.trp <;> rfl

theorem first_eretErrs {x : Tile} (hv : x.sv? = false) :
    EncErr.first (privErr 7 x.sv? ++ errIf (x.sv? && !x.trp) (encErr 7 .operandKind 0 5)) = some (encErr 7 .privileged 0 5) := by
  rw [hv]
  rfl

/-- The cause that a privileged instruction reports below supervisor level. -/
def userCause (x : Tile) (i : Instr) : EncCause :=
  match i with
  | .mxsave _ | .mxrest _ => if x.trp then .privileged else .slotCombination
  | _ => .privileged

theorem userCause_privileged {x : Tile} {i : Instr} (h : ¬(x.trp = false ∧ ∃ f, i = .mxsave f ∨ i = .mxrest f)) :
    userCause x i = .privileged := by
  unfold userCause
  split
  · exact if_pos (by simpa using h)
  · exact if_pos (by simpa using h)
  · rfl

/-- Below supervisor level a privileged instruction raises a condition of R128 and does nothing else. -/
theorem exec_privileged {s : State} {i : Instr} (hw : i.wf = true) (hp : i.privileged = true) (hv : s.tile.sv? = false) :
    ∃ e, exec i s = .next (s.raise (s.tile.encTrap e)) ∧ e.cause = userCause s.tile i := by
  unfold exec
  cases i with
  | mfsr f =>
    have hn : (s.tile.sv? || !sregReadSup (sregNum f)) = false := by rw [hv, show sregReadSup (sregNum f) = true from hp]; rfl
    exact ⟨_, issueSlot_forbidden hw (privErr_user 0 hn), rfl⟩
  | mtsr f =>
    have hn : (s.tile.sv? || !sregWriteSup (sregNum f)) = false := by rw [hv, show sregWriteSup (sregNum f) = true from hp]; rfl
    exact ⟨_, issueSlot_forbidden hw (privErr_user 0 hn), rfl⟩
  | teffect f =>
    have he : (if modeX f = 2 then privErr 6 s.tile.sv? else []) = privErr 6 s.tile.sv? := if_pos (eq_of_beq hp)
    exact ⟨_, issueSlot_forbidden hw (he ▸ privErr_user 6 hv), rfl⟩
  | rinj f =>
    refine ⟨encErr 0 .privileged 0 7, ?_, rfl⟩
    dsimp only [execRinj]
    split <;> exact issueSlot_forbidden hw (privErr_user 0 hv)
  | wcreate f => exact ⟨_, issueSlot_forbidden hw (privErr_user 6 hv), rfl⟩
  | eret f => exact ⟨_, issueSlot_forbidden hw (first_eretErrs hv), rfl⟩
  | mxsave f | mxrest f => exact ⟨_, issueSlot_forbidden hw (first_mxErrs hv), apply_ite EncErr.cause _ _ _⟩
  | _ => cases hp

/-- Settles O10: the condition raised is the privilege fault, but for a matrix save or restore outside a handler. -/
theorem privilegeFault : Obligations.PrivilegeFault := by
  unfold Obligations.PrivilegeFault
  intro s i hw hp hv
  obtain ⟨e, hexec, hcause⟩ := exec_privileged hw hp hv
  have hlow : (s.tile.encTrap e).2.low = BitVec.ofNat 4 (userCause s.tile i).low := by rw [← hcause]; rfl
  refine ⟨s.tile.encTrap e, hexec, rfl, rfl, rfl, ?_, fun h => ?_⟩
  · rintro ⟨ht, f, rfl | rfl⟩ <;>
    · rw [hlow, userCause, ht]
      rfl
  · rw [hlow, userCause_privileged h]
    rfl

end Sys2Proof.Machine
end

section
/-! SUPPORT. O21 to O29: the checks of a memory access that do not stand against it (R71, R178, R187 to R191), and what a claim of ports and a
result that waits for its value change of a tile. -/

namespace Sys2Proof.Machine

open Sys2Proof.Check Sys2Proof.Claims

/-! ## Checks that find nothing -/

/-- Addresses that R178 admits raise nothing. -/
theorem padFault_fits {x : Tile} {slot wb : Nat} {one : Bool} {addrs : List Nat} (h : Fits wb one addrs) : padFault x slot wb one addrs = [] := by
  have hnone : addrs.find? (fun a => decide (padSize ≤ a) || a % wb != 0 || (a + wb - 1) / 256 != a / 256 ||
      (one && a / 256 != addrs.headD 0 / 256)) = none := by
    refine List.find?_eq_none.mpr fun a ha => ?_
    obtain ⟨hsize, halign, hrow, hone⟩ := h a ha
    simp only [Bool.or_eq_true, Bool.and_eq_true, decide_eq_true_iff, bne_iff_ne, not_or, not_and, not_not]
    exact ⟨⟨⟨Nat.not_le.mpr hsize, halign⟩, hrow.symm⟩, hone⟩
  rw [padFault, hnone]

/-- A byte in the scratchpad, whatever its address. -/
theorem padFault_byte {x : Tile} {slot a : Nat} (h : a < 2 ^ 21) : padFault x slot 1 false [a] = [] :=
  padFault_fits fun b hb => by
    rw [List.mem_singleton.mp hb]
    exact ⟨h, Nat.mod_one a, rfl, fun hf => by cases hf⟩

/-- No bad granule is found among good ones. -/
theorem memBad_good {rd : Nat → Gran} {slot : Nat} {gs : List Nat} (h : ∀ g ∈ gs, (rd g).bad = false) : memBad rd slot gs = none := by
  have hw : worstGran rd gs = none :=
    List.foldlRecOn gs _ (motive := (· = none)) rfl fun b hb g hg => by rw [h g hg, hb]; rfl
  rw [memBad, hw, Option.map_none]

theorem tagFault_match {x : Tile} {slot : Nat} {chk : Bool} {tag : Byte} {rows : List Nat} (h : chk = true → ∀ r ∈ rows, x.tag r = tag) :
    x.tagFault slot chk tag rows = [] := by
  unfold Tile.tagFault
  split
  · rfl
  · rename_i hc
    rw [List.find?_eq_none.mpr fun r hr => by simpa using h (by simpa using hc) r hr]

/-- A row that is neither late nor, with STATUS.ERC, pending (R191). -/
def Tile.Ready (x : Tile) (r : Nat) : Prop := x.isLate r = false ∧ (x.st stERC = true → x.pend.get 0 r = 0)

theorem earlyFault_ready {x : Tile} {slot : Nat} {rows : List Nat} (h : ∀ r ∈ rows, x.Ready r) : x.earlyFault slot rows = [] := by
  rw [Tile.earlyFault, List.find?_eq_none.mpr fun r hr => ?_]
  obtain ⟨hlate, hpend⟩ := h r hr
  simpa [hlate] using hpend

theorem lateWait_ready {s : State} {rows : List Nat} (h : ∀ r ∈ rows, s.tile.Ready r) : s.lateWait rows = none := by
  unfold State.lateWait
  dsimp only
  split
  · rfl
  · rw [List.find?_eq_none.mpr fun r hr => by simp [(h r hr).1], Option.map_none]

/-- Bank formats of the type's width clash with nothing (R183, R194). -/
theorem bankClash_eq_false {x : Tile} {w : Nat} {addrs : List Nat} (h : ∀ a ∈ addrs, tyWidth (bfType (x.bfmt (bankOf a))) = w) :
    bankClash x w addrs = false :=
  List.any_eq_false.mpr fun a ha => by simpa using h a ha

/-! ## Ports and results in flight -/

/-- A claim of ports changes the reservations, STATUS and the freeze of the tile, and nothing else. -/
theorem claim_eq (s : State) (kind : Nat) (p : PortPlan) :
    ∃ r q z, s.claim kind p = s.setTile s.cur { s.tile with resv := r, sr := q, frozen := z } := by
  unfold State.claim State.onTile State.modTile
  dsimp only
  split <;> split <;> exact ⟨_, _, _, rfl⟩

theorem tile_setTile_cur (s : State) (x : Tile) : (s.setTile s.cur x).tile = x := tileAt_setTile_same s s.cur x

theorem tile_landWaiting (s : State) (slot : Fin 8) (lat : Nat) (ws : List RWrite) (id : Nat) :
    (s.landWaiting slot lat ws id).tile = s.tile.addLanding { s.tile.landing slot lat ws with id := id, waiting := true } := tile_onTile s _

theorem tile_landHeld (s : State) (slot : Fin 8) (lat : Nat) (ws : List RWrite) (id : Nat) :
    (s.landHeld slot lat ws id).tile = s.tile.addLanding { s.tile.landing slot lat ws with id := id, waiting := true, hold := true } :=
  tile_onTile s _

end Sys2Proof.Machine
end

section
/-! O21: scratchpad loads (R187, R190 to R195). -/

namespace Sys2Proof.Machine

open Sys2Proof.Check Sys2Proof.Claims

/-! ## A load as its form gives it -/

/-- The rows that a load reads, with those of its group records (R184). -/
def PadLoad.allRows (l : PadLoad) : List Nat := rowsOf (l.els.map (·.addr) ++ if l.decode = .deq then l.els.map (·.recAt) else [])

/-- The faults of a load's operands: an index vector in place of an index scalar for `VLDG` (R194). -/
def loadFaults (p : LoadForm) (x : Tile) : Instr → List Flt
  | .vldg f => x.vConsume 4 1 (ldgIndex f) (tyWidth f.type.toNat) (x.lActive f) ++ x.consumeS 4 3 f.base.toNat
  | _ => x.lOwn p.f

/-- What a load puts in flight, before its value is known. -/
def loadWrites (p : LoadForm) (x : Tile) : List RWrite :=
  match p.load.kind with
  | 0 => lVecWrites p.f (x.lActive p.f)
  | 1 => [.scalar (BitVec.ofNat 6 (p.f.d.toNat - 328)) (.zero 1)]
  | _ => [.pred (BitVec.ofNat 5 p.f.d.toNat) (.zero 4) predAll]

theorem all_width_eq (x : Tile) (w : Nat) (els : List PadEl) :
    (!bankClash x w (els.map (·.addr))) = els.all fun e => tyWidth (bfType (x.bfmt (bankOf e.addr))) == w := by
  simp [bankClash, List.all_eq_not_any_not, Function.comp_def, bne]

/-- Every scratchpad load issues as its form says. -/
theorem exec_loadForm {s : State} {i : Instr} {p : LoadForm} (h : loadForm s.tile i = some p) :
    exec i s = s.padLoad i p.f p.lat p.lim p.cond (loadFaults p s.tile i) p.legal p.align p.oneRow p.tagged p.load (loadWrites p s.tile) := by
  unfold loadForm at h
  dsimp only at h
  split at h
  case h_1 f | h_2 f | h_5 f | h_6 f =>
    cases h
    rfl
  case h_3 f | h_4 f =>
    cases h
    simp only [exec, execVlds, execVldg, State.padMany, all_width_eq, Nat.shiftLeft_eq]
    rfl
  case h_7 => cases h

end Sys2Proof.Machine
end

section
/-! SUPPORT. O21, O26: what a vector load without an active element writes (R187, R193). -/

namespace Sys2Proof.Machine

open Sys2Proof.Check Sys2Proof.Claims

theorem tyWidth_cases (t : Nat) : tyWidth t = 4 ∨ tyWidth t = 8 ∨ tyWidth t = 16 ∨ tyWidth t = 32 ∨ tyWidth t = 64 := by
  unfold tyWidth
  split <;> simp

/-! ## Masks of a whole register and of none -/

theorem packNat_replicate_zero (w n : Nat) : packNat w (List.replicate n 0) = 0 := by
  induction n with
  | zero => rfl
  | succ n ih => simpa [packNat, List.replicate_succ] using ih

theorem packNat_replicate_ones (w n : Nat) : packNat w (List.replicate n (2 ^ w - 1)) = 2 ^ (w * n) - 1 := by
  induction n with
  | zero => rfl
  | succ n ih =>
    have hcons : packNat w (List.replicate (n + 1) (2 ^ w - 1)) = (2 ^ w - 1) % 2 ^ w + packNat w (List.replicate n (2 ^ w - 1)) <<< w := rfl
    have hw := Nat.two_pow_pos w
    have hmul : 2 ^ w ≤ 2 ^ (w * n) * 2 ^ w := Nat.le_mul_of_pos_left _ (Nat.two_pow_pos _)
    rw [hcons, ih, Nat.mod_eq_of_lt (by omega), Nat.shiftLeft_eq, Nat.sub_mul, Nat.mul_succ, Nat.pow_add]
    omega

/-- One bit after another. -/
theorem foldl_or_bits (n : Nat) : (List.range n).foldl (fun m k => m ||| (1 <<< k)) 0 = 2 ^ n - 1 := by
  induction n with
  | zero => rfl
  | succ n ih =>
    rw [List.range_succ, List.foldl_append, ih, List.foldl_cons, List.foldl_nil]
    apply Nat.eq_of_testBit_eq
    intro i
    rw [Nat.testBit_or, testBit_one_shiftLeft, Nat.testBit_two_pow_sub_one, Nat.testBit_two_pow_sub_one, ← Bool.decide_or]
    exact decide_eq_decide.mpr (by omega)

/-- Elements that are all written have every byte of the register (R214). -/
theorem byteMask_whole (t : Nat) : byteMask (tyWidth t) (List.replicate (2048 / tyWidth t) (some 0)) = 2 ^ 256 - 1 := by
  have hwide : ∀ w, w ≠ 4 → w / 8 * (2048 / w) = 256 → byteMask w (List.replicate (2048 / w) (some 0)) = 2 ^ 256 - 1 := fun w h4 hw => by
    rw [byteMask, if_neg h4, List.map_replicate, Option.isSome_some, if_pos rfl, packNat_replicate_ones, hw]
  obtain h | h | h | h | h := tyWidth_cases t <;> rw [h]
  · have hsome : ∀ m, ∀ k ∈ List.range 256, (if ((List.replicate (2048 / 4) (some 0)).getD (2 * k) (none : Option Nat)).isSome = true
        then m ||| 1 <<< k else m) = m ||| 1 <<< k := fun m k hk => by
      rw [List.mem_range] at hk
      rw [List.getD_replicate _ (by omega), Option.isSome_some, if_pos rfl]
    rw [byteMask, if_pos rfl, List.foldl_ext _ _ _ hsome, foldl_or_bits]
  all_goals exact hwide _ (by decide) (by decide)

/-- Elements none of which is written have no byte. -/
theorem byteMask_none (w n : Nat) : byteMask w (List.replicate n none) = 0 := by
  unfold byteMask
  split
  · refine List.foldlRecOn _ _ (motive := (· = 0)) rfl fun m hm k _ => ?_
    rw [hm, List.getD_eq_getElem?_getD, List.getElem?_replicate]
    split <;> rfl
  · rw [List.map_replicate]
    exact packNat_replicate_zero _ _

/-! ## A vector load with no active element -/

theorem vOut_inactive (n : Nat) (z : Bool) :
    vOut (List.replicate n false) z ((List.replicate n false).map fun _ => 0) = List.replicate n (if z then some 0 else none) := by
  rw [vOut, List.map_replicate, List.zipWith_replicate]
  simp

theorem lVecWrites_inactive_keep {f : LF} {n : Nat} (hz : f.z = false) : lVecWrites f (List.replicate n false) = [] := by
  rw [lVecWrites, hz, vOut_inactive, if_neg Bool.false_ne_true, byteMask_none]
  rfl

theorem lVecWrites_inactive_zero {f : LF} (hz : f.z = true) : lVecWrites f (List.replicate (2048 / tyWidth f.type.toNat) false) =
    [.vec f.d.toNat (.zero 32) (BitVec.allOnes 256) (some 2)] := by
  rw [lVecWrites, hz, vOut_inactive, if_pos rfl, byteMask_whole, if_neg (by decide)]
  rfl

/-- A vector load writes its destination alone. -/
theorem lVecWrites_dest (f : LF) (act : List Bool) : ∀ w ∈ lVecWrites f act, ∃ v m, w = .vec f.d.toNat v m (some 2) := by
  intro w hm
  unfold lVecWrites at hm
  extract_lets m at hm
  split at hm
  · cases hm
  · exact ⟨_, _, List.mem_singleton.mp hm⟩

/-- A predicate of which no element of the load is active. -/
theorem lActive_inactive {x : Tile} {f : LF} (h : ∀ i < (x.lActive f).length, (x.lActive f).getD i false = false) :
    x.lActive f = List.replicate (2048 / tyWidth f.type.toNat) false := by
  have hlen : (x.lActive f).length = 2048 / tyWidth f.type.toNat := by simp [Tile.lActive, actives]
  rw [List.eq_replicate_iff]
  refine ⟨hlen, fun b hb => ?_⟩
  obtain ⟨i, hi, rfl⟩ := List.mem_iff_getElem.mp hb
  rw [← h i hi, List.getD_eq_getElem]

theorem liveEls_eq_nil_iff {act : List Bool} {e : Nat → PadEl} : liveEls act e = [] ↔ ∀ i < act.length, act.getD i false = false := by
  simp [liveEls, List.filterMap_eq_nil_iff]

end Sys2Proof.Machine
end

section
/-! O21: scratchpad loads issue. -/

namespace Sys2Proof.Machine

open Sys2Proof.Check Sys2Proof.Claims

/-- The state in which a load that nothing stands against leaves the basin: its ports claimed, its result waiting, its rows to be read. -/
def loadIssued (s : State) (p : LoadForm) : State :=
  ((s.newId.2.claim 0 (planPorts s.tile.readBusy (s.now + 1) p.lim p.allRows)).landWaiting 4 p.lat (loadWrites p s.tile) s.nextId).schedule
    (s.now + 1) ordRead (.padRead s.cur s.now s.nextId p.load [] (rowCycles (s.now + 1) p.lim p.allRows))

section
variable {s : State} {i : Instr} {p : LoadForm}

/-- Good operands of a load raise nothing. -/
theorem loadFaults_good (hf : loadForm s.tile i = some p) (hb : s.tile.GoodS p.f.base) (hx : (∀ f, i ≠ .vldg f) → s.tile.GoodS p.f.x)
    (hv : ∀ f, i = .vldg f → s.tile.vConsume 4 1 (ldgIndex f) (tyWidth f.type.toNat) (s.tile.lActive f) = []) : loadFaults p s.tile i = [] := by
  unfold loadFaults
  split
  · rename_i f
    cases hf
    rw [hv f rfl, consumeS_good _ _ _ _ hb, List.append_nil]
  · rename_i hne
    rw [Tile.lOwn, consumeS_good _ _ _ _ hb, consumeS_good _ _ _ _ (hx fun f hi => hne f hi), List.append_nil]

/-- A load that nothing of chapter 7 stands against acts. -/
theorem exec_load_acts (hf : loadForm s.tile i = some p) (hw : i.wf = true) (hok : p.Ok s i) :
    exec i s = .next ((loadIssued s p).note .acted) := by
  obtain ⟨hc, hbase, hx, hindex, hels, hlegal, hfits, hgood, htags, hready, hports⟩ := hok
  have hne : p.load.els.isEmpty = false := List.isEmpty_eq_false_iff.mpr hels
  have hrows : ∀ r ∈ p.allRows, s.tile.Ready r := hready
  rw [exec_loadForm hf, State.padLoad]
  simp only [hne, Bool.false_eq_true, if_false]
  refine issueFix_wf s i [] _ _ _ _ _ hw rfl hc ?_ (lateWait_ready hrows)
  have hmem : memBad s.tile.pad.gran 4 p.load.needs = none := memBad_good hgood
  have htag : s.tile.tagFault 4 p.tagged p.f.tag p.rows = [] := tagFault_match htags
  have hearly : s.tile.earlyFault 4 p.allRows = [] := earlyFault_ready hrows
  rw [loadFaults_good hf hbase hx hindex, padFault_fits hfits, hmem, hlegal]
  simp only [List.nil_append, List.isEmpty_nil, Bool.not_true, Bool.false_eq_true, if_false, if_true]
  exact List.append_eq_nil_iff.mpr ⟨List.append_eq_nil_iff.mpr ⟨htag, hearly⟩, hports⟩

/-- What a load puts in flight writes its destination alone. -/
theorem loadWrites_dest (x : Tile) : ∀ w ∈ loadWrites p x, p.dest w := by
  unfold loadWrites LoadForm.dest
  match p.load.kind with
  | 0 => exact lVecWrites_dest p.f (x.lActive p.f)
  | 1 => exact fun w hm => ⟨_, List.mem_singleton.mp hm⟩
  | _ + 2 => exact fun w hm => ⟨_, _, List.mem_singleton.mp hm⟩

/-- A load leaves registers, scratchpad and memory alone, puts one result in flight and has its rows read from the next cycle on. -/
theorem loadIssued_effect (s : State) (p : LoadForm) : ∃ l, (loadIssued s p).tile.inflight = s.tile.inflight ++ [l] ∧ l.waiting = true ∧
    l.id = s.nextId ∧ l.due = s.tile.rclk + p.lat ∧ l.slot = 4 ∧ l.writes = loadWrites p s.tile ∧
    (loadIssued s p).tile.s = s.tile.s ∧ (loadIssued s p).tile.p = s.tile.p ∧ (loadIssued s p).tile.v = s.tile.v ∧
    (loadIssued s p).tile.pad = s.tile.pad ∧ (loadIssued s p).mem = s.mem := by
  obtain ⟨r, q, z, hclaim⟩ := claim_eq s.newId.2 0 (planPorts s.tile.readBusy (s.now + 1) p.lim p.allRows)
  unfold loadIssued
  rw [tile_schedule, tile_landWaiting, hclaim, tile_setTile_cur]
  exact ⟨_, rfl, rfl, rfl, rfl, rfl, rfl, rfl, rfl, rfl, rfl, rfl⟩

/-- A load without an active element is a vector load (R187). -/
theorem loadForm_inactive (hf : loadForm s.tile i = some p) (hels : p.load.els = []) : p.cond = true ∧
    loadWrites p s.tile = lVecWrites p.f (List.replicate (2048 / tyWidth p.f.type.toNat) false) := by
  unfold loadForm at hf
  dsimp only at hf
  split at hf
  case h_5 | h_6 =>
    cases hf
    cases hels
  case h_7 => cases hf
  all_goals
    cases hf
    exact ⟨rfl, congrArg (lVecWrites _) (lActive_inactive (liveEls_eq_nil_iff.mp hels))⟩

/-- A load without an active element acts whatever its operands hold: it lands zeros under Z, and nothing without (R187). -/
theorem exec_load_inactive (hf : loadForm s.tile i = some p) (hw : i.wf = true) (hels : p.load.els = []) :
    exec i s = .next ((if p.f.z then s.land 4 p.lat [.vec p.f.d.toNat (.zero 32) (BitVec.allOnes 256) (some 2)] else s).note .acted) := by
  obtain ⟨hc, hwrites⟩ := loadForm_inactive hf hels
  have hemp : p.load.els.isEmpty = true := List.isEmpty_iff.mpr hels
  rw [exec_loadForm hf, State.padLoad, hwrites]
  simp only [hemp, if_true]
  refine (issueFix_wf s i [] _ _ _ _ _ hw rfl hc rfl rfl).trans ?_
  cases hz : p.f.z with
  | true => rw [lVecWrites_inactive_zero hz]; rfl
  | false => rw [lVecWrites_inactive_keep hz]; rfl

end

/-- Settles O21: each load is issued as its form gives it, and what it schedules stands in the calendar. -/
theorem scratchpadLoadIssues : Obligations.ScratchpadLoadIssues := by
  unfold Obligations.ScratchpadLoadIssues
  intro s i p hf hw
  refine ⟨fun hok => ?_, fun hels hz => ?_, fun hels hz => ?_⟩
  · obtain ⟨l, hin, hwait, hid, hdue, hslot, hwr, hregs⟩ := loadIssued_effect s p
    refine ⟨_, l, exec_load_acts hf hw hok, by rw [tile_note], ?_, hwait, hid, hdue, hslot, hwr ▸ loadWrites_dest s.tile,
      ⟨_, mem_agenda_schedule _ _ _ _, rfl, rfl⟩, ?_⟩
    · rw [tile_note]
      exact hin
    · rw [tile_note]
      exact hregs
  · rw [exec_load_inactive hf hw hels, hz, if_neg Bool.false_ne_true]
  · rw [exec_load_inactive hf hw hels, hz, if_pos rfl]

end Sys2Proof.Machine
end

section
/-! O22: the value of a scratchpad load (R195). The statement leaves the nibble of its element open; a load of whole bytes from the upper nibble
of a byte, which no instruction issues, starts four bits higher than the statement has it. -/

namespace Sys2Proof.Machine

open Sys2Proof.Check

/-- A load of one byte of type `.n8` whose element stands at the upper nibble of byte 0. -/
def upperNibbleLoad : PadLoad :=
  { kind := 1, type := 1, st := 1, grp := false, els := [{ i := 0, addr := 0, hi := true, recAt := 0 }], act := 1, z := false }

/-- A scalar that waits for the value of result 9. -/
def waitingScalar : Landing :=
  { id := 9, due := 4, issue := 0, tc := 0, slot := 4, pc := 0, writes := [.scalar 5 (.zero 1)], fp := 0, st := 0, fault := none, waiting := true,
    hold := false }

/-- Tile 0 waits for that scalar, and byte 0 of its scratchpad is 0x10, in a good granule. -/
def upperNibbleState : State :=
  State.reset.onTile fun x => { x with pad := Store.empty.setGran 0 (Gran.fresh 0x10), inflight := [waitingScalar] }

/-- The load reads the upper nibble, 1, and not the byte. -/
theorem upperNibbleLoad_reads :
    ((upperNibbleState.padRead 0 0 9 upperNibbleLoad [] [(0, upperNibbleState.now)]).tileAt 0).inflight.map (·.writes) =
      [[.scalar 5 (scalarOf 1)]] := by decide +kernel

/-- Refutes O22: with the element at the upper nibble of byte 0x10, the load of a byte gives 1, where the statement gives 0x10. -/
theorem not_scratchpadLoadValue : ¬ Obligations.ScratchpadLoadValue := by
  unfold Obligations.ScratchpadLoadValue
  intro h
  obtain ⟨hscalar, -⟩ := h upperNibbleState 0 0 9 upperNibbleLoad 0 waitingScalar (by decide) rfl rfl rfl
  obtain ⟨-, hnarrow, -⟩ := hscalar _ rfl rfl
  have hfills := hnarrow rfl 8 (by decide) rfl rfl rfl (by decide +kernel) 5 _ rfl
  have hwrites := congrArg (List.map (·.writes)) hfills
  rw [upperNibbleLoad_reads] at hwrites
  exact absurd hwrites (by decide +kernel)

end Sys2Proof.Machine
end

section
/-! SUPPORT. O23, O24: the rows of an access in rising order, the cycles they take (R187), and rows that are pending (R191). -/

namespace Sys2Proof.Machine

/-! ## Rows in rising order -/

theorem mem_insRow {r q : Nat} {l : List Nat} : q ∈ insRow r l ↔ q = r ∨ q ∈ l := by
  induction l with
  | nil => simp [insRow]
  | cons a l ih =>
    rw [insRow]
    split
    · exact List.mem_cons
    · split
      · rename_i hr
        rw [hr, List.mem_cons, ← or_assoc, or_self_iff]
      · rw [List.mem_cons, ih, List.mem_cons, or_left_comm]

theorem insRow_rising {r : Nat} {l : List Nat} (h : l.Pairwise (· < ·)) : (insRow r l).Pairwise (· < ·) := by
  induction l with
  | nil => exact List.pairwise_singleton _ _
  | cons a l ih =>
    obtain ⟨ha, hl⟩ := List.pairwise_cons.mp h
    rw [insRow]
    split
    · rename_i hlt
      exact List.pairwise_cons.mpr ⟨fun q hq => (List.mem_cons.mp hq).elim (fun e => e ▸ hlt) fun hq => hlt.trans (ha q hq), h⟩
    · split
      · exact h
      · rename_i hnlt hne
        refine List.pairwise_cons.mpr ⟨fun q hq => ?_, ih hl⟩
        obtain rfl | hq := mem_insRow.mp hq
        · omega
        · exact ha q hq

/-- Places gathered by `insRow` rise, and are those of the list. -/
theorem foldl_insRow {α : Type} (f : α → Nat) (xs : List α) :
    (xs.foldl (fun l x => insRow (f x) l) []).Pairwise (· < ·) ∧ ∀ q, q ∈ xs.foldl (fun l x => insRow (f x) l) [] ↔ ∃ x ∈ xs, f x = q := by
  have key : ∀ acc : List Nat, acc.Pairwise (· < ·) → (xs.foldl (fun l x => insRow (f x) l) acc).Pairwise (· < ·) ∧
      ∀ q, q ∈ xs.foldl (fun l x => insRow (f x) l) acc ↔ (∃ x ∈ xs, f x = q) ∨ q ∈ acc := by
    induction xs with
    | nil => exact fun acc h => ⟨h, fun q => by simp⟩
    | cons x xs ih =>
      intro acc h
      obtain ⟨hs, hm⟩ := ih (insRow (f x) acc) (insRow_rising h)
      refine ⟨hs, fun q => ?_⟩
      rw [List.foldl_cons, hm, mem_insRow, List.exists_mem_cons_iff, eq_comm (a := q), ← or_assoc, or_comm (b := f x = q)]
  obtain ⟨hs, hm⟩ := key [] List.Pairwise.nil
  exact ⟨hs, fun q => (hm q).trans (or_iff_left List.not_mem_nil)⟩

theorem rowsOf_nodup (addrs : List Nat) : (rowsOf addrs).Nodup := (foldl_insRow rowOf addrs).1.imp Nat.ne_of_lt

/-! ## The cycles of rows -/

/-- The rows of an access take their cycles in order. -/
theorem rowCycles_rows (t0 lim : Nat) (rows : List Nat) : (rowCycles t0 lim rows).map (·.1) = rows := by
  apply List.ext_getElem?
  intro k
  rw [rowCycles, List.getElem?_map, List.getElem?_mapIdx, Option.map_map]
  exact Option.map_id'

/-- A row takes one of the first `lim` cycles. -/
theorem rowCycles_cycle {t0 lim : Nat} {rows : List Nat} (hl : 0 < lim) {e : Nat × Nat} (he : e ∈ rowCycles t0 lim rows) :
    t0 ≤ e.2 ∧ e.2 < t0 + lim := by
  obtain ⟨k, hk, rfl⟩ := List.mem_mapIdx.mp he
  dsimp only
  omega

/-! ## Pending rows -/

/-- Each row of a list is pending once more. -/
theorem addPend_pend (x : Tile) (rows : List Nat) (r : Nat) : (x.addPend rows).pend.get 0 r = x.pend.get 0 r + rows.count r := by
  induction rows generalizing x with
  | nil => rfl
  | cons q rows ih =>
    have hstep : x.addPend (q :: rows) = (x.addPend [q]).addPend rows := rfl
    have hone : (x.addPend [q]).pend.get 0 r = x.pend.get 0 r + if q == r then 1 else 0 := by
      change (x.pend.modify 0 q (· + 1)).get 0 r = _
      rw [SMap.modify, SMap.get_set]
      by_cases h : r = q
      · simp [h]
      · simp [h, Ne.symm h]
    rw [hstep, ih, hone, List.count_cons]
    omega

/-! ## The calendar keeps what it has -/

theorem mem_agendaIns_of_mem {e f : Entry} {l : List Entry} (h : e ∈ l) : e ∈ agendaIns f l := by
  induction l with
  | nil => cases h
  | cons g l ih =>
    rw [agendaIns]
    split
    · exact List.mem_cons_of_mem f h
    · obtain rfl | h := List.mem_cons.mp h
      · exact List.mem_cons_self
      · exact List.mem_cons_of_mem g (ih h)

end Sys2Proof.Machine
end

section
/-! O23: scratchpad stores (R187, R191, R197 to R199). -/

namespace Sys2Proof.Machine

open Sys2Proof.Check Sys2Proof.Claims

/-! ## A store as its form gives it -/

/-- The faults of a store's operands: its base, and a stride scalar or an index vector (R198). -/
def storeFaults (p : StoreForm) (x : Tile) : Instr → List Flt
  | .vsts f => x.tOwn f ++ x.consumeS 5 4 (f.imm11.toNat % 64)
  | .vstx f => x.vConsume 5 1 (bits f.imm11.toNat 0 9) (tyWidth f.type.toNat) (x.tActive f (tyWidth f.type.toNat)) ++ x.tOwn f
  | _ => x.tOwn p.f

/-- The bank formats admit a store: a predicate store has no type (R199). -/
def storeLegal (p : StoreForm) (x : Tile) : Instr → Bool
  | .pst _ => true
  | _ => !bankClash x (tyWidth p.f.type.toNat) p.addrs

/-- The index shift of `VSTX` is what stands above the index operand. -/
theorem vstx_shift (f : TF) : bits f.imm11.toNat 9 2 = f.imm11.toNat / 512 := by
  rw [bits_eq]
  have := f.imm11.isLt
  omega

theorem vstx_index (f : TF) : bits f.imm11.toNat 0 9 = f.imm11.toNat % 512 := by
  rw [bits_eq, Nat.pow_zero, Nat.div_one]
  rfl

/-- Every scratchpad store issues as its form says. -/
theorem exec_storeForm {s : State} {i : Instr} {p : StoreForm} (h : storeForm s.tile i = some p) :
    exec i s = s.padStore i p.lim p.cond (storeFaults p s.tile i) (storeLegal p s.tile i) p.align p.oneRow p.addrs p.writes p.nibs := by
  unfold storeForm at h
  split at h
  case h_1 f | h_2 f | h_4 f | h_5 f =>
    cases h
    rfl
  case h_3 f =>
    cases h
    simp only [exec, execVstx, vstx_index, vstx_shift, Nat.shiftLeft_eq]
    rfl
  case h_6 => cases h

/-! ## The writes of a store, row by row -/

/-- The write of one row of a store. -/
def rowWrite (s : State) (ws : List GWrite) (nibs : List Nib) (r : Nat) : Ev :=
  .padWrite s.cur s.now (ws.filter fun w => w.g / 32 == r) (nibs.filter fun n => rowOf n.addr == r) [r]

/-- A row counts as pending, and its write is scheduled. -/
def rowStore (ws : List GWrite) (nibs : List Nib) (s : State) (r : Nat × Nat) : State :=
  (s.onTile fun x => x.addPend [r.1]).schedule r.2 (ordWrite s.cur 1) (rowWrite s ws nibs r.1)

theorem padRows_eq (s : State) (lim : Nat) (rows : List Nat) (ws : List GWrite) (nibs : List Nib) :
    s.padRows lim rows ws nibs = (rowCycles (s.now + 4) lim rows).foldl (rowStore ws nibs) s := rfl

/-- Of the tile, the writes of a store change only which rows are pending. -/
theorem padRows_tile (s : State) (lim : Nat) (rows : List Nat) (ws : List GWrite) (nibs : List Nib) :
    (s.padRows lim rows ws nibs).tile = s.tile.addPend rows := by
  have key : ∀ (l : List (Nat × Nat)) (s : State), (l.foldl (rowStore ws nibs) s).tile = s.tile.addPend (l.map (·.1)) := by
    intro l
    induction l with
    | nil => exact fun s => rfl
    | cons r l ih =>
      intro s
      rw [List.foldl_cons, ih, rowStore, tile_schedule, tile_onTile]
      rfl
  rw [padRows_eq, key, rowCycles_rows]

theorem padRows_mem (s : State) (lim : Nat) (rows : List Nat) (ws : List GWrite) (nibs : List Nib) :
    (s.padRows lim rows ws nibs).mem = s.mem := by
  rw [padRows_eq]
  exact foldl_keeps (·.mem) (rowStore ws nibs) (fun _ _ => rfl) _ s

/-- The write of each row stands in the calendar, at one of the cycles that the instruction has for it. -/
theorem padRows_writes (s : State) {lim : Nat} {rows : List Nat} (ws : List GWrite) (nibs : List Nib) (hl : 0 < lim) {r : Nat} (hr : r ∈ rows) :
    ∃ e ∈ (s.padRows lim rows ws nibs).agenda, s.now + 4 ≤ e.at_ ∧ e.at_ < s.now + 4 + lim ∧ e.ev = rowWrite s ws nibs r := by
  rw [← rowCycles_rows (s.now + 4) lim rows] at hr
  obtain ⟨c, hc, rfl⟩ := List.mem_map.mp hr
  obtain ⟨hlow, hhigh⟩ := rowCycles_cycle hl hc
  rw [padRows_eq]
  refine foldl_establishes (f := rowStore ws nibs) (Q := fun u => u.now = s.now ∧ u.cur = s.cur)
    (P := fun u => ∃ e ∈ u.agenda, s.now + 4 ≤ e.at_ ∧ e.at_ < s.now + 4 + lim ∧ e.ev = rowWrite s ws nibs c.1)
    (fun _ _ h => h) (fun u hu => ?_) (fun u b _ h => ?_) hc ⟨rfl, rfl⟩
  · obtain ⟨hnow, hcur⟩ := hu
    refine ⟨_, mem_agenda_schedule _ _ _ _, hlow, hhigh, ?_⟩
    dsimp only
    rw [rowWrite, hnow, hcur]
    rfl
  · obtain ⟨e, he, h⟩ := h
    exact ⟨e, mem_agendaIns_of_mem he, h⟩

/-! ## Issue -/

/-- The state in which a store that nothing stands against leaves the basin. -/
def storeIssued (s : State) (p : StoreForm) : State :=
  (s.claim 2 (planPorts (s.tile.writeBusy s.now) (s.now + 4) p.lim (rowsOf p.addrs))).padRows p.lim (rowsOf p.addrs) p.writes p.nibs

section
variable {s : State} {i : Instr} {p : StoreForm}

/-- Good operands of a store raise nothing. -/
theorem storeFaults_good (hf : storeForm s.tile i = some p) (hb : s.tile.GoodS p.f.base)
    (hs : ∀ f, i = .vsts f → Clean (s.tile.scalar (f.imm11.toNat % 64)))
    (hv : ∀ f, i = .vstx f → s.tile.vConsume 5 1 (f.imm11.toNat % 512) (tyWidth f.type.toNat) (s.tile.tActive f (tyWidth f.type.toNat)) = []) :
    storeFaults p s.tile i = [] := by
  have hown : s.tile.tOwn p.f = [] := consumeS_good _ _ _ _ hb
  unfold storeFaults
  split
  · rename_i f
    cases hf
    rw [hown, consumeS_clean _ _ _ _ (hs f rfl), List.append_nil]
  · rename_i f
    cases hf
    rw [hown, vstx_index, hv f rfl, List.append_nil]
  · exact hown

theorem storeLegal_of_widths (h : (∀ f, i ≠ .pst f) → ∀ a ∈ p.addrs, tyWidth (bfType (s.tile.bfmt (bankOf a))) = tyWidth p.f.type.toNat) :
    storeLegal p s.tile i = true := by
  unfold storeLegal
  split
  · rfl
  · rename_i hne
    rw [bankClash_eq_false (h fun f hf => hne f hf), Bool.not_false]

/-- A store that nothing of chapter 7 stands against acts. -/
theorem exec_store_acts (hf : storeForm s.tile i = some p) (hw : i.wf = true) (hok : p.Ok s i) :
    exec i s = .next ((storeIssued s p).note .acted) := by
  obtain ⟨hc, hbase, haddrs, hfits, hwidths, hstride, hindex, hports⟩ := hok
  have hne : p.addrs.isEmpty = false := List.isEmpty_eq_false_iff.mpr haddrs
  rw [exec_storeForm hf, State.padStore]
  simp only [hne, Bool.false_eq_true, if_false]
  refine issueFix_wf s i [] _ _ _ _ _ hw rfl hc ?_ rfl
  rw [storeFaults_good hf hbase hstride hindex, padFault_fits hfits, storeLegal_of_widths hwidths]
  exact hports

/-- A store without an active element acts whatever its operands hold, and changes nothing (R187). -/
theorem exec_store_inactive (hf : storeForm s.tile i = some p) (hw : i.wf = true) (haddrs : p.addrs = []) :
    exec i s = .next (s.note .acted) := by
  have hc : p.cond = true := by
    unfold storeForm at hf
    split at hf <;> cases hf
    case h_4 | h_5 => cases haddrs
    all_goals rfl
  have hemp : p.addrs.isEmpty = true := List.isEmpty_iff.mpr haddrs
  rw [exec_storeForm hf, State.padStore]
  simp only [hemp, if_true]
  exact issueFix_wf s i [] _ _ _ _ _ hw rfl hc rfl rfl

/-- A form has a row that needs no delay. -/
theorem storeForm_lim (hf : storeForm s.tile i = some p) : 0 < p.lim := by
  unfold storeForm at hf
  split at hf <;> cases hf <;> exact Nat.succ_pos _

end

/-- Settles O23: each store is issued as its form gives it, and its rows are distinct, so that each is pending once more. -/
theorem scratchpadStoreIssues : Obligations.ScratchpadStoreIssues := by
  unfold Obligations.ScratchpadStoreIssues
  intro s i p hf hw
  refine ⟨fun hok => ?_, exec_store_inactive hf hw⟩
  obtain ⟨rv, sr, fz, hclaim⟩ := claim_eq s 2 (planPorts (s.tile.writeBusy s.now) (s.now + 4) p.lim (rowsOf p.addrs))
  have htile : (storeIssued s p).tile = ({ s.tile with resv := rv, sr := sr, frozen := fz } : Tile).addPend (rowsOf p.addrs) := by
    rw [storeIssued, padRows_tile, hclaim, tile_setTile_cur]
  refine ⟨_, exec_store_acts hf hw hok, ?_⟩
  rw [tile_note, htile]
  refine ⟨rfl, rfl, rfl, rfl, rfl, rfl, (padRows_mem _ _ _ _ _).trans (by rw [hclaim]; rfl), fun r hr => ⟨?_, ?_⟩⟩
  · rw [← List.count_eq_one_of_mem (rowsOf_nodup p.addrs) hr]
    exact addPend_pend { s.tile with resv := rv, sr := sr, frozen := fz } _ r
  · obtain ⟨e, he, hlow, hhigh, hev⟩ := padRows_writes (s.claim 2 (planPorts (s.tile.writeBusy s.now) (s.now + 4) p.lim (rowsOf p.addrs)))
      p.writes p.nibs (storeForm_lim hf) hr
    exact ⟨e, he, hlow, hhigh, hev⟩

end Sys2Proof.Machine
end

section
/-! SUPPORT. O24: what a write of granules carried whole, and a write of 4-bit elements, leave in a store (R198, R199). -/

namespace Sys2Proof.Machine

/-! ## Granules carried whole (R66) -/

/-- The write that carries granule `j` of a value to granule `g + j`. -/
def carryWrite {n : Nat} (g : Nat) (x : Reg n) (j : Nat) : GWrite :=
  { g := g + j, d := (x.gran j).d, r := (x.gran j).r, bad := (x.gran j).bad, mask := 0xFF }

theorem gwCarry_pred (g : Nat) (x : Reg 4) : gwCarry g x (2 ^ 32 - 1) = (List.range 4).map (carryWrite g x) := rfl

theorem gran_carryWrite {n : Nat} (m : Store) (g : Nat) (x : Reg n) (j k : Nat) :
    (m.write (carryWrite g x j)).gran k = if k = g + j then x.gran j else m.gran k := by
  have hm : (carryWrite g x j).mask ≠ 0 := show (0xFF : BitVec 8) ≠ 0 by decide
  rw [gran_write]
  by_cases h : k = g + j
  · rw [if_pos ⟨h, hm⟩, if_pos h]
    exact if_pos rfl
  · rw [if_neg fun hc => h hc.1, if_neg h]

/-- Each granule of the value stands at its place. -/
theorem gran_carryWrites {n : Nat} (m : Store) (g : Nat) (x : Reg n) (c j : Nat) (hj : j < c) :
    (m.writes ((List.range c).map (carryWrite g x))).gran (g + j) = x.gran j := by
  induction c with
  | zero => exact absurd hj (Nat.not_lt_zero j)
  | succ c ih =>
    rw [List.range_succ, List.map_append, Store.writes, List.foldl_append]
    change ((m.writes ((List.range c).map (carryWrite g x))).write (carryWrite g x c)).gran (g + j) = _
    rw [gran_carryWrite]
    by_cases h : j = c
    · rw [if_pos (by rw [h]), h]
    · rw [if_neg (by omega), ih (by omega)]

/-! ## 4-bit elements (R198) -/

/-- The bits of a sum of distinct powers of two. -/
theorem testBit_sum_filter (p : Nat → Bool) (n : Nat) : (((List.range n).filter p).map (2 ^ ·)).sum < 2 ^ n ∧
    ∀ j < n, (((List.range n).filter p).map (2 ^ ·)).sum.testBit j = p j := by
  induction n with
  | zero => simp
  | succ n ih =>
    obtain ⟨hlt, hbit⟩ := ih
    rw [List.range_succ, List.filter_append, List.map_append, List.sum_append]
    generalize (((List.range n).filter p).map (2 ^ ·)).sum = x at hlt hbit
    have hx : x.testBit n = false := Nat.testBit_lt_two_pow hlt
    cases hp : p n with
    | true =>
      have hs : ((([n].filter p).map (2 ^ ·)).sum : Nat) = 2 ^ n := by simp [hp]
      rw [hs, Nat.add_comm x]
      refine ⟨by rw [Nat.pow_succ]; omega, fun j hj => ?_⟩
      obtain h | rfl := Nat.lt_succ_iff_lt_or_eq.mp hj
      · rw [Nat.testBit_two_pow_add_gt h, hbit j h]
      · rw [Nat.testBit_two_pow_add_eq, hx, hp]
        rfl
    | false =>
      have hs : ((([n].filter p).map (2 ^ ·)).sum : Nat) = 0 := by simp [hp]
      rw [hs, Nat.add_zero]
      refine ⟨by rw [Nat.pow_succ]; omega, fun j hj => ?_⟩
      obtain h | rfl := Nat.lt_succ_iff_lt_or_eq.mp hj
      · exact hbit j h
      · rw [hx, hp]

section
variable (m : Store) (ns : List Nib) (g : Nat)

theorem nibWrite_g : (nibWrite m ns g).g = g := by
  unfold nibWrite
  dsimp only
  split
  · split <;> rfl
  · rfl

/-- A granule of 4-bit elements is made of them, and of the old granule where there is none. -/
theorem nibWrite_d : (nibWrite m ns g).d = BitVec.ofNat 64 (packNat 4 (((List.range 16).map (nibAt ns g)).mapIdx fun k n =>
    match n with | some n => n.v | none => bits (m.gran g).d.toNat (4 * k) 4)) := by
  unfold nibWrite
  dsimp only
  split
  · split <;> rfl
  · rfl

/-- A byte is written where one of its nibbles is. -/
def nibMask (j : Nat) : Bool := (nibAt ns g (2 * j)).isSome || (nibAt ns g (2 * j + 1)).isSome

theorem nibWrite_mask {j : Nat} (hj : j < 8) : (nibWrite m ns g).mask.getLsbD j = nibMask ns g j := by
  have hsum : (BitVec.ofNat 8 (((List.range 8).filter (nibMask ns g)).map (2 ^ ·)).sum).getLsbD j = nibMask ns g j := by
    rw [BitVec.getLsbD_ofNat, decide_eq_true hj, Bool.true_and, (testBit_sum_filter (nibMask ns g) 8).2 j hj]
  unfold nibWrite
  dsimp only
  split
  · rename_i hall
    split
    · have hset : (0xFF#8).getLsbD j = true := by interval_cases j <;> rfl
      have hsome : (nibAt ns g (2 * j)).isSome = true :=
        List.all_eq_true.mp hall _ (List.mem_map_of_mem (List.mem_range.mpr (by omega)))
      exact hset.trans (by rw [nibMask, hsome, Bool.true_or])
    · exact hsum
  · exact hsum

/-- A nibble of the write is the element placed there, or the old nibble. -/
theorem bits_nibWrite {k : Nat} (hk : k < 16) : bits (nibWrite m ns g).d.toNat (4 * k) 4 =
    match nibAt ns g k with | some n => n.v % 16 | none => bits (m.gran g).d.toNat (4 * k) 4 := by
  rw [nibWrite_d, BitVec.toNat_ofNat, bits_mod_two_pow _ (by omega), bits_packNat, List.getD_eq_getElem _ _ (by simpa using hk)]
  simp only [List.getElem_mapIdx, List.getElem_map, List.getElem_range]
  split
  · rfl
  · rw [bits, Nat.mod_mod]

end

/-- The write of a granule looks at no other granule. -/
theorem nibWrite_congr {m m' : Store} {g : Nat} (ns : List Nib) (h : m.gran g = m'.gran g) : nibWrite m ns g = nibWrite m' ns g := by
  unfold nibWrite
  rw [h]

/-- 4-bit elements are stored granule by granule. -/
def nibStore (ns : List Nib) (gs : List Nat) (m : Store) : Store := gs.foldl (fun m g => m.write (nibWrite m ns g)) m

/-- Each granule is written once, from what was there before. -/
theorem gran_nibStore (ns : List Nib) {gs : List Nat} (hgs : gs.Nodup) (m : Store) (k : Nat) :
    (nibStore ns gs m).gran k = if k ∈ gs then (m.write (nibWrite m ns k)).gran k else m.gran k := by
  induction gs generalizing m with
  | nil => rfl
  | cons g gs ih =>
    obtain ⟨hg, hnd⟩ := List.nodup_cons.mp hgs
    have hstep : nibStore ns (g :: gs) m = nibStore ns gs (m.write (nibWrite m ns g)) := rfl
    rw [hstep, ih hnd]
    by_cases hk : k = g
    · subst hk
      rw [if_neg hg, if_pos List.mem_cons_self]
    · have hsame : (m.write (nibWrite m ns g)).gran k = m.gran k := by
        rw [gran_write, nibWrite_g, if_neg fun h => hk h.1]
      have hwrite : ((m.write (nibWrite m ns g)).write (nibWrite (m.write (nibWrite m ns g)) ns k)).gran k = (m.write (nibWrite m ns k)).gran k := by
        rw [nibWrite_congr ns hsame, gran_write _ (nibWrite m ns k), gran_write m (nibWrite m ns k), nibWrite_g, hsame]
      rw [hwrite, hsame]
      simp only [List.mem_cons, hk, false_or]

theorem byte_nibStore (ns : List Nib) {gs : List Nat} (hgs : gs.Nodup) (m : Store) (b : Nat) : (nibStore ns gs m).byte b =
    if b / 8 ∈ gs ∧ nibMask ns (b / 8) (b % 8) = true then (nibWrite m ns (b / 8)).d.extractLsb' (8 * (b % 8)) 8 else m.byte b := by
  have hbyte := byte_write m (nibWrite m ns (b / 8)) b
  rw [nibWrite_mask m ns (b / 8) (Nat.mod_lt b (by decide)), nibWrite_g] at hbyte
  rw [byte_eq_gran, gran_nibStore ns hgs]
  by_cases hb : b / 8 ∈ gs
  · rw [if_pos hb, ← byte_eq_gran, hbyte]
    simp only [hb, true_and]
  · rw [if_neg hb, if_neg fun h => hb h.1, ← byte_eq_gran]

/-! ## The element at a nibble -/

/-- An element that is found at a nibble is one of the list, at that byte and half. -/
theorem nibAt_some {ns : List Nib} {b : Nat} {h : Bool} {q : Nib} (hq : nibAt ns (b / 8) (2 * (b % 8) + h.toNat) = some q) :
    q ∈ ns ∧ q.addr = b ∧ q.hi = h := by
  have hp := List.find?_some hq
  have hm := List.mem_of_find?_eq_some hq
  rw [Bool.and_eq_true, beq_iff_eq, beq_iff_eq] at hp
  obtain ⟨hg, hk⟩ := hp
  have hhi : q.hi = h := by
    have hq1 := q.hi.toNat_le
    have hh1 := h.toNat_le
    have hnat : q.hi.toNat = h.toNat := by omega
    revert hnat
    cases q.hi <;> cases h <;> decide
  rw [hhi] at hk
  exact ⟨List.mem_reverse.mp hm, by omega, hhi⟩

/-- An element of the list is found at its nibble, or another at the same nibble is. -/
theorem nibAt_isSome {ns : List Nib} {n : Nib} (hn : n ∈ ns) : (nibAt ns (n.addr / 8) (2 * (n.addr % 8) + n.hi.toNat)).isSome = true :=
  List.find?_isSome.mpr ⟨n, List.mem_reverse.mpr hn, by simp⟩

theorem nibMask_iff {ns : List Nib} {b : Nat} : nibMask ns (b / 8) (b % 8) = true ↔ ∃ n ∈ ns, n.addr = b := by
  have hlo : ∀ q, nibAt ns (b / 8) (2 * (b % 8)) = some q → q ∈ ns ∧ q.addr = b ∧ q.hi = false := fun q hq => nibAt_some hq
  have hhi : ∀ q, nibAt ns (b / 8) (2 * (b % 8) + 1) = some q → q ∈ ns ∧ q.addr = b ∧ q.hi = true := fun q hq => nibAt_some hq
  rw [nibMask, Bool.or_eq_true, Option.isSome_iff_exists, Option.isSome_iff_exists]
  constructor
  · rintro (⟨q, hq⟩ | ⟨q, hq⟩)
    · exact ⟨q, (hlo q hq).1, (hlo q hq).2.1⟩
    · exact ⟨q, (hhi q hq).1, (hhi q hq).2.1⟩
  · rintro ⟨n, hn, rfl⟩
    have hs := Option.isSome_iff_exists.mp (nibAt_isSome hn)
    cases h : n.hi with
    | false => rw [h] at hs; exact .inl hs
    | true => rw [h] at hs; exact .inr hs

theorem mem_nibGrans {ns : List Nib} {g : Nat} : g ∈ nibGrans ns ↔ ∃ n ∈ ns, n.addr / 8 = g := (foldl_insRow (fun n : Nib => n.addr / 8) ns).2 g

theorem nibGrans_nodup (ns : List Nib) : (nibGrans ns).Nodup := (foldl_insRow (fun n : Nib => n.addr / 8) ns).1.imp Nat.ne_of_lt

/-- A byte that no element addresses is as it was. -/
theorem byte_nibStore_other {ns : List Nib} (m : Store) {b : Nat} (h : ¬∃ n ∈ ns, n.addr = b) : (nibStore ns (nibGrans ns) m).byte b = m.byte b := by
  rw [byte_nibStore ns (nibGrans_nodup ns), if_neg fun hc => h (nibMask_iff.mp hc.2)]

/-- The nibble of an element holds it, where every element at that nibble has its value. -/
theorem nibble_nibStore {ns : List Nib} (m : Store) {n : Nib} (hn : n ∈ ns) (hv : n.v < 16)
    (hsame : ∀ q ∈ ns, q.addr = n.addr → q.hi = n.hi → q.v = n.v) :
    bits ((nibStore ns (nibGrans ns) m).byte n.addr).toNat (if n.hi then 4 else 0) 4 = n.v := by
  obtain ⟨q, hq⟩ := Option.isSome_iff_exists.mp (nibAt_isSome hn)
  obtain ⟨hqm, hqa, hqh⟩ := nibAt_some hq
  have hk : 2 * (n.addr % 8) + n.hi.toNat < 16 := by
    have := Bool.toNat_le n.hi
    omega
  have hnib := bits_nibWrite m ns (n.addr / 8) hk
  rw [hq] at hnib
  dsimp only at hnib
  rw [hsame q hqm hqa hqh, Nat.mod_eq_of_lt hv] at hnib
  rw [byte_nibStore ns (nibGrans_nodup ns), if_pos ⟨mem_nibGrans.mpr ⟨n, hn, rfl⟩, nibMask_iff.mpr ⟨n, hn, rfl⟩⟩, ← hnib, BitVec.extractLsb'_toNat]
  have hplace : 8 * (n.addr % 8) + (if n.hi then 4 else 0) = 4 * (2 * (n.addr % 8) + n.hi.toNat) := by
    cases n.hi with
    | false => simp only [Bool.false_eq_true, if_false, Bool.toNat_false]; omega
    | true => simp only [if_true, Bool.toNat_true]; omega
  rw [bits_mod_two_pow _ (by split <;> decide), bits, bits, ← Nat.shiftRight_add, hplace]

end Sys2Proof.Machine
end

section
/-! O24: what a scratchpad write leaves in the scratchpad, and the frame (R68, R198, R199). -/

namespace Sys2Proof.Machine

/-! ## Of the basin, a write at a tile's banks changes that tile's scratchpad alone -/

/-- The scratchpad of `t` has become `m`; every other scratchpad and memory are as they were. -/
structure PadBecomes (s s' : State) (t : Tid) (m : Store) : Prop where
  pad : (s'.tileAt t).pad = m
  others : ∀ u, u ≠ t → (s'.tileAt u).pad = (s.tileAt u).pad
  mem : s'.mem = s.mem

theorem PadBecomes.trans {s s₁ s₂ : State} {t : Tid} {m₁ m₂ : Store} (h₁ : PadBecomes s s₁ t m₁) (h₂ : PadBecomes s₁ s₂ t m₂) :
    PadBecomes s s₂ t m₂ := ⟨h₂.pad, fun u hu => (h₂.others u hu).trans (h₁.others u hu), h₂.mem.trans h₁.mem⟩

/-- What leaves all stores alone leaves the scratchpad as it has become. -/
theorem PadBecomes.same {s s₁ s₂ : State} {t : Tid} {m : Store} (h₁ : PadBecomes s s₁ t m) (h₂ : SameStores s₁ s₂) : PadBecomes s s₂ t m :=
  h₁.trans ⟨(h₂.pad t).trans h₁.pad, fun u _ => h₂.pad u, h₂.mem⟩

theorem padPut_becomes (s : State) (t : Tid) (ws : List GWrite) : PadBecomes s (s.padPut t ws) t ((s.tileAt t).pad.writes ws) := by
  have hput : PadBecomes s (s.modTile t fun x => { x with pad := x.pad.writes ws }) t ((s.tileAt t).pad.writes ws) :=
    ⟨by rw [tileAt_modTile, if_pos rfl], fun u hu => by rw [tileAt_modTile, if_neg hu], rfl⟩
  exact hput.same (.rindEvents ..)

theorem nibPut_becomes (s : State) (t : Tid) (ns : List Nib) (g : Nat) :
    PadBecomes s (s.nibPut t ns g) t ((s.tileAt t).pad.write (nibWrite (s.tileAt t).pad ns g)) := by
  have hput := padPut_becomes s t [nibWrite (s.tileAt t).pad ns g]
  unfold State.nibPut
  dsimp only
  split
  · exact hput.same (.rindEvents ..)
  · exact hput

theorem nibPuts_become (s : State) (t : Tid) (ns : List Nib) (gs : List Nat) :
    PadBecomes s (gs.foldl (fun s g => s.nibPut t ns g) s) t (nibStore ns gs (s.tileAt t).pad) := by
  induction gs generalizing s with
  | nil => exact ⟨rfl, fun _ _ => rfl, rfl⟩
  | cons g gs ih =>
    have hput := nibPut_becomes s t ns g
    have hrest := ih (s.nibPut t ns g)
    rw [hput.pad] at hrest
    exact hput.trans hrest

/-- A scratchpad write: its granule writes, then its 4-bit elements. -/
theorem padWrite_becomes (s : State) (t : Tid) (ws : List GWrite) (ns : List Nib) (rows : List Nat) :
    PadBecomes s (s.padWrite t ws ns rows) t (nibStore ns (nibGrans ns) ((s.tileAt t).pad.writes ws)) := by
  have hput := padPut_becomes s t ws
  have hnibs := nibPuts_become (s.padPut t ws) t ns (nibGrans ns)
  rw [hput.pad] at hnibs
  exact (hput.trans hnibs).same (.modTile t (f := fun x => x.subPend rows) fun _ => rfl)

theorem padWrite_granules (s : State) (t : Tid) (ws : List GWrite) (rows : List Nat) :
    PadBecomes s (s.padWrite t ws [] rows) t ((s.tileAt t).pad.writes ws) := padWrite_becomes s t ws [] rows

/-- The bytes that may change, with every other scratchpad and memory as they were. -/
def PadFramed (s s' : State) (t : Tid) (hit : Nat → Prop) : Prop :=
  (∀ b, ¬hit b → (s'.tileAt t).pad.byte b = (s.tileAt t).pad.byte b) ∧ (∀ u, u ≠ t → (s'.tileAt u).pad = (s.tileAt u).pad) ∧ s'.mem = s.mem

theorem PadBecomes.framed {s s' : State} {t : Tid} {m : Store} {hit : Nat → Prop} (h : PadBecomes s s' t m)
    (hb : ∀ b, ¬hit b → m.byte b = (s.tileAt t).pad.byte b) : PadFramed s s' t hit :=
  ⟨fun b hn => by rw [h.pad, hb b hn], h.others, h.mem⟩

/-! ## The four kinds of write -/

section
variable (s : State) (t : Tid) (rows : List Nat)

theorem padWrite_scalar {a n : Nat} (v : Reg 1) (hn : n ∈ [1, 2, 4, 8]) (ha : a % n = 0) :
    PadFramed s (s.padWrite t (scalarStore a n v) [] rows) t (fun b => a ≤ b ∧ b < a + n) ∧
    ∀ k < n, ((s.padWrite t (scalarStore a n v) [] rows).tileAt t).pad.byte (a + k) = BitVec.ofNat 8 (bits v.d.toNat (8 * k) 8) := by
  obtain ⟨w, hw, hsw⟩ := scalarStore_one v hn ha
  have hbyte := hsw.byte (aligned_in_granule hn ha).2 (s.tileAt t).pad
  have hbecomes := padWrite_granules s t [w] rows
  rw [hw]
  refine ⟨hbecomes.framed fun b hb => (hbyte b).trans (if_neg hb), fun k hk => ?_⟩
  rw [hbecomes.pad]
  exact (hbyte (a + k)).trans (by rw [if_pos (by omega), Nat.add_sub_cancel_left])

theorem padWrite_predicate {a : Nat} (v : Reg 4) (ha : a % 32 = 0) :
    PadFramed s (s.padWrite t (gwCarry (a / 8) v (2 ^ 32 - 1)) [] rows) t (fun b => a ≤ b ∧ b < a + 32) ∧
    ∀ j < 4, ((s.padWrite t (gwCarry (a / 8) v (2 ^ 32 - 1)) [] rows).tileAt t).pad.gran (a / 8 + j) = v.gran j := by
  have hbecomes := padWrite_granules s t (gwCarry (a / 8) v (2 ^ 32 - 1)) rows
  refine ⟨hbecomes.framed fun b hb => ?_, fun j hj => ?_⟩
  · refine byte_writes_other _ _ _ fun w hw hg => hb ?_
    rw [gwCarry_pred] at hw
    obtain ⟨j, hj, rfl⟩ := List.mem_map.mp hw
    rw [List.mem_range] at hj
    change a / 8 + j = b / 8 at hg
    omega
  · rw [hbecomes.pad, gwCarry_pred]
    exact gran_carryWrites _ _ v 4 j hj

theorem padWrite_elements (v : Reg 32) (es : List (Nat × Nat × Nat)) :
    PadFramed s (s.padWrite t (scatter v es) [] rows) t (fun b => ∃ e ∈ es, e.1 ≤ b ∧ b < e.1 + e.2.2) ∧
    ∀ e ∈ es, ∀ k < e.2.2, (∀ q ∈ es, q ≠ e → ¬(q.1 ≤ e.1 + k ∧ e.1 + k < q.1 + q.2.2)) →
      ((s.padWrite t (scatter v es) [] rows).tileAt t).pad.byte (e.1 + k) = BitVec.ofNat 8 (bits v.d.toNat (8 * (e.2.1 + k)) 8) := by
  have hbecomes := padWrite_granules s t (scatter v es) rows
  refine ⟨hbecomes.framed fun b hb => ?_, fun e he k hk halone => ?_⟩
  · exact (byte_writes_scatter v es _ b 0 fun e he hc => absurd ⟨e, he, hc⟩ hb).2 hb
  · have hagree : ∀ q ∈ es, ElCovers q (e.1 + k) → bits v.d.toNat (8 * (q.2.1 + (e.1 + k - q.1))) 8 = bits v.d.toNat (8 * (e.2.1 + k)) 8 := by
      intro q hq hc
      by_cases hqe : q = e
      · rw [hqe, Nat.add_sub_cancel_left]
      · exact absurd hc (halone q hq hqe)
    rw [hbecomes.pad]
    exact (byte_writes_scatter v es _ (e.1 + k) _ hagree).1 ⟨e, he, Nat.le_add_right _ _, Nat.add_lt_add_left hk _⟩

theorem padWrite_nibbles (ns : List Nib) :
    PadFramed s (s.padWrite t [] ns rows) t (fun b => ∃ n ∈ ns, n.addr = b) ∧
    ((∀ q ∈ ns, q.v < 16) → ∀ n ∈ ns, (∀ q ∈ ns, q.addr = n.addr → q.hi = n.hi → q.v = n.v) →
      bits (((s.padWrite t [] ns rows).tileAt t).pad.byte n.addr).toNat (if n.hi then 4 else 0) 4 = n.v) := by
  have hbecomes := padWrite_becomes s t [] ns rows
  refine ⟨hbecomes.framed fun b hb => byte_nibStore_other _ hb, fun hv n hn hsame => ?_⟩
  rw [hbecomes.pad]
  exact nibble_nibStore _ hn (hv n hn) hsame

end

/-- Settles O24: each kind of write becomes a write of the tile's store, whose bytes are known. -/
theorem storeWritesOnlyItsBytes : Obligations.StoreWritesOnlyItsBytes := by
  unfold Obligations.StoreWritesOnlyItsBytes
  intro s t rows _
  exact ⟨fun a n v hn ha => padWrite_scalar s t rows v hn ha, fun a v ha => padWrite_predicate s t rows v ha, fun v es => padWrite_elements s t rows v es,
    fun ns => padWrite_nibbles s t rows ns⟩

end Sys2Proof.Machine
end

section
/-! O25: LDTAG and STTAG (R189, R196, R200). -/

namespace Sys2Proof.Machine

open Sys2Proof.Check

theorem lOwn_good {x : Tile} {f : LF} (hb : x.GoodS f.base) (hx : x.GoodS f.x) : x.lOwn f = [] := by
  rw [Tile.lOwn, consumeS_good _ _ _ _ hb, consumeS_good _ _ _ _ hx, List.append_nil]

theorem tOwn_good {x : Tile} {f : TF} (hb : x.GoodS f.base) : x.tOwn f = [] := consumeS_good _ _ _ _ hb

theorem ldtag_faults {x : Tile} {f : LF} (hb : x.GoodS f.base) (hx : x.GoodS f.x) (ha : x.lAddr f < 2 ^ 21) :
    x.lOwn f ++ padFault x 4 1 false [x.lAddr f] = [] := by
  rw [lOwn_good hb hx, padFault_byte ha, List.append_nil]

theorem sttag_faults {x : Tile} {f : TF} (hb : x.GoodS f.base) (hd : Clean (x.scalar (f.data.toNat - 328))) (ha : x.tAddr f < 2 ^ 21) :
    x.consumeS 5 0 (f.data.toNat - 328) ++ x.tOwn f ++ padFault x 5 1 false [x.tAddr f] = [] := by
  rw [consumeS_clean _ _ _ _ hd, tOwn_good hb, padFault_byte ha, List.append_nil, List.append_nil]

theorem exec_ldtag (s : State) (f : LF) : exec (.ldtag f) s =
    s.issueSlot (.ldtag f) [] (s.tile.cond f.pred.toNat f.n) (s.tile.lOwn f ++ padFault s.tile 4 1 false [s.tile.lAddr f]) none
      (s.land 4 4 [.scalar (BitVec.ofNat 6 (f.d.toNat - 328)) (scalarOf (s.tile.tag (rowOf (s.tile.lAddr f))).toNat)]) := rfl

theorem exec_sttag (s : State) (f : TF) : exec (.sttag f) s =
    s.issueSlot (.sttag f) [] (s.tile.tCond f)
      (s.tile.consumeS 5 0 (f.data.toNat - 328) ++ s.tile.tOwn f ++ padFault s.tile 5 1 false [s.tile.tAddr f]) none
      ((s.onTile fun x => x.addPend [rowOf (s.tile.tAddr f)]).schedule (s.now + 4) (ordWrite s.cur 1)
        (.tagWrite s.cur s.now (rowOf (s.tile.tAddr f)) (BitVec.ofNat 8 (s.tile.sv (f.data.toNat - 328))))) := rfl

/-- Settles O25: good operands and an address in the scratchpad raise nothing, so both act. -/
theorem tagInstructions : Obligations.TagInstructions := by
  unfold Obligations.TagInstructions
  refine fun s => ⟨fun f hw hc hb hx ha => ?_, fun f hw hc hb hd ha => ?_⟩
  · exact (exec_ldtag s f).trans (issueSlot_wf s _ _ _ _ hw hc (ldtag_faults hb hx ha))
  · exact (exec_sttag s f).trans (issueSlot_wf s _ _ _ _ hw hc (sttag_faults hb hd ha))

end Sys2Proof.Machine
end

section
/-! O26: loads from basin memory (R204, R208). -/

namespace Sys2Proof.Machine

open Sys2Proof.Check Sys2Proof.Claims

/-! ## A global access that nothing stands against -/

/-- A global access whose page is mapped, with good operands and nothing to wait for, acts at its physical address (R208). -/
theorem globalSlot_acts {s : State} {i : Instr} {cond : Bool} {slot va need pa : Nat} {own : List Flt} {gate : List Flt × Option (Wait × State)}
    {act : State → Nat → State} (hw : i.wf = true) (hc : cond = true) (ht : s.tile.translate va need = .pa pa) (ho : own = [])
    (hg : gate = ([], none)) : s.globalSlot i cond slot va need own gate act = .next ((act s pa).note .acted) := by
  rw [State.globalSlot, ht, hg, ho]
  exact issueFix_wf s i [] _ _ _ _ _ hw rfl hc rfl rfl

/-- Aligned elements in one line raise nothing (R212). -/
theorem lineFault_oneLine {x : Tile} {slot wb a : Nat} {as_ : List Nat} (h : ∀ b ∈ a :: as_, b % wb = 0 ∧ b / 256 = a / 256) :
    lineFault x slot wb (a :: as_) = [] := by
  have hnone : (a :: as_).find? (fun b => b % wb != 0 || b / 256 != a / 256) = none := by
    refine List.find?_eq_none.mpr fun b hb => ?_
    obtain ⟨halign, hline⟩ := h b hb
    simp [halign, hline]
  rw [lineFault, hnone]

theorem lineFault_single {x : Tile} {slot wb a : Nat} (h : a % wb = 0) : lineFault x slot wb [a] = [] :=
  lineFault_oneLine fun b hb => by rw [List.mem_singleton.mp hb]; exact ⟨h, rfl⟩

/-- The elements of a run that R212 admits raise nothing. -/
theorem lineFault_run {x : Tile} {slot wb : Nat} {e : Nat × Nat} {r : List (Nat × Nat)} (h : OneLine wb (e :: r)) :
    lineFault x slot wb ((e :: r).map (·.2)) = [] := by
  refine lineFault_oneLine fun b hb => ?_
  obtain ⟨c, hc, rfl⟩ := List.mem_map.mp (List.map_cons ▸ hb : b ∈ (e :: r).map (·.2))
  exact h c hc

/-! ## Loads -/

/-- A load of one element, into a scalar (R204). -/
def scalarLoad (f : LF) (pa : Nat) : PadLoad :=
  { kind := 1, type := f.type.toNat, st := f.type.toNat, grp := false, els := [{ i := 0, addr := pa, hi := false, recAt := 0 }], act := 1, z := false }

/-- The elements of `GLDV` at virtual addresses. -/
def gldvEls (x : Tile) (f : LF) : List PadEl :=
  liveEls (x.lActive f) fun i =>
    { i := i, addr := (x.lAddr f + i * tyWidth f.type.toNat / 8) % 2 ^ 64, hi := tyWidth f.type.toNat == 4 && i % 2 == 1, recAt := 0 }

/-- The load of `GLDV` at the line of `pa`. -/
def vectorLoad (x : Tile) (f : LF) (pa : Nat) : PadLoad :=
  { kind := 0, type := f.type.toNat, st := f.type.toNat, grp := false, els := (gldvEls x f).map fun e => { e with addr := toPhys pa e.addr },
    act := actMask (x.lActive f), z := f.z }

/-- A load is issued to the load/store engine: its result waits from now on, and L1 is read four cycles later. -/
def globalLoadIssued (s : State) (ws : List RWrite) (l : PadLoad) : State :=
  (s.newId.2.landHeld 4 48 ws s.nextId).schedule (s.now + 4) ordRead (.l1Read s.cur s.now s.nextId l)

theorem exec_gld (s : State) (f : LF) : exec (.gld f) s =
    s.globalSlot (.gld f) (s.tile.cond f.pred.toNat f.n) 4 (s.tile.lAddr f) needR
      (s.tile.lOwn f ++ lineFault s.tile 4 (tyWidth f.type.toNat / 8) [s.tile.lAddr f]) noGate
      fun s pa => globalLoadIssued s [.scalar (BitVec.ofNat 6 (f.d.toNat - 328)) (.zero 1)] (scalarLoad f pa) := rfl

/-- `GLDV` without an active element lands zeros, or nothing, whatever its operands hold. -/
theorem exec_gldv_inactive {s : State} {f : LF} (h : gldvEls s.tile f = []) : exec (.gldv f) s =
    s.issueSlot (.gldv f) [] true [] none
      (if (lVecWrites f (s.tile.lActive f)).isEmpty then s else s.land 4 48 (lVecWrites f (s.tile.lActive f))) := by
  change execGldv f s = _
  unfold execGldv
  dsimp only
  split
  · rfl
  · rename_i hels
    exact absurd (h.symm.trans hels) (List.cons_ne_nil _ _).symm

theorem exec_gldv_active {s : State} {f : LF} {e : PadEl} {r : List PadEl} (h : gldvEls s.tile f = e :: r) : exec (.gldv f) s =
    s.globalSlot (.gldv f) true 4 e.addr needR
      (s.tile.lOwn f ++ lineFault s.tile 4 (max 1 (tyWidth f.type.toNat / 8)) ((gldvEls s.tile f).map (·.addr))) noGate
      fun u pa => globalLoadIssued u (lVecWrites f (s.tile.lActive f)) (vectorLoad s.tile f pa) := by
  change execGldv f s = _
  unfold execGldv
  dsimp only
  split
  · rename_i hels
    exact absurd (h.symm.trans hels) (List.cons_ne_nil _ _)
  · rename_i hels
    cases h.symm.trans hels
    rfl

/-- The elements of `GLDV` are the active ones of its run. -/
theorem gldvEls_run (x : Tile) (f : LF) :
    (gldvEls x f).map (fun e => (e.i, e.addr)) = runOf (x.lAddr f) (tyWidth f.type.toNat) (x.lActive f) := by
  rw [gldvEls, liveEls, runOf, List.map_filterMap, ← List.filterMap_eq_map (f := fun i => (i, _)), List.filterMap_filter]
  refine List.filterMap_congr fun i _ => ?_
  split <;> rfl

/-- Where the run of `GLDV` begins with an active element, so do its elements. -/
theorem gldvEls_cons {x : Tile} {f : LF} {e : Nat × Nat} {r : List (Nat × Nat)}
    (h : runOf (x.lAddr f) (tyWidth f.type.toNat) (x.lActive f) = e :: r) : ∃ d q, gldvEls x f = d :: q ∧ d.addr = e.2 := by
  rw [← gldvEls_run] at h
  obtain ⟨d, q, hd, rfl, -⟩ := List.map_eq_cons_iff.mp h
  exact ⟨d, q, hd, rfl⟩

/-- A run without an active element. -/
theorem runOf_eq_nil {x : Tile} {f : LF} (h : runOf (x.lAddr f) (tyWidth f.type.toNat) (x.lActive f) = []) :
    gldvEls x f = [] ∧ x.lActive f = List.replicate (2048 / tyWidth f.type.toNat) false := by
  rw [← gldvEls_run, List.map_eq_nil_iff] at h
  exact ⟨h, lActive_inactive (liveEls_eq_nil_iff.mp h)⟩

/-- A global load leaves registers and memory alone and puts one result in flight that holds the tile until it comes. -/
theorem globalLoadIssued_effect (s : State) (ws : List RWrite) (l : PadLoad) : ∃ m, (globalLoadIssued s ws l).tile = s.tile.addLanding m ∧
    m.waiting = true ∧ m.hold = true ∧ m.id = s.nextId ∧ m.due = s.tile.rclk + 48 ∧ m.writes = ws ∧ (globalLoadIssued s ws l).mem = s.mem := by
  refine ⟨_, (tile_schedule _ _ _ _).trans (tile_landHeld _ _ _ _ _), rfl, rfl, rfl, rfl, rfl, rfl⟩

theorem exec_gldv_idle {s : State} {f : LF} (hw : (Instr.gldv f).wf = true)
    (hr : runOf (s.tile.lAddr f) (tyWidth f.type.toNat) (s.tile.lActive f) = []) : exec (.gldv f) s =
    .next ((if f.z then s.land 4 48 [.vec f.d.toNat (.zero 32) (BitVec.allOnes 256) (some 2)] else s).note .acted) := by
  obtain ⟨hels, hact⟩ := runOf_eq_nil hr
  rw [exec_gldv_inactive hels, hact]
  refine (issueSlot_wf s _ _ _ _ hw rfl rfl).trans ?_
  cases hz : f.z with
  | true => rw [lVecWrites_inactive_zero hz]; rfl
  | false => rw [lVecWrites_inactive_keep hz]; rfl

/-- `GLDV` of aligned elements in one mapped line acts. -/
theorem exec_gldv_acts {s : State} {f : LF} {es r : List (Nat × Nat)} {e : Nat × Nat} {pa : Nat} (hw : (Instr.gldv f).wf = true)
    (hes : es = runOf (s.tile.lAddr f) (tyWidth f.type.toNat) (s.tile.lActive f)) (her : es = e :: r) (hb : s.tile.GoodS f.base)
    (hx : s.tile.GoodS f.x) (hline : OneLine (max 1 (tyWidth f.type.toNat / 8)) es) (ht : s.tile.translate e.2 needR = .pa pa) :
    exec (.gldv f) s = .next ((globalLoadIssued s (lVecWrites f (s.tile.lActive f)) (vectorLoad s.tile f pa)).note .acted) := by
  obtain ⟨d, q, hd, hda⟩ := gldvEls_cons (hes.symm.trans her)
  have haddrs : (gldvEls s.tile f).map (·.addr) = (e :: r).map (·.2) := by
    have hrun := congrArg (List.map Prod.snd) ((gldvEls_run s.tile f).trans (hes.symm.trans her))
    rwa [List.map_map] at hrun
  have hfault : lineFault s.tile 4 (max 1 (tyWidth f.type.toNat / 8)) ((gldvEls s.tile f).map (·.addr)) = [] :=
    haddrs ▸ lineFault_run (her ▸ hline)
  rw [exec_gldv_active hd]
  exact globalSlot_acts hw rfl (hda ▸ ht) (by rw [lOwn_good hb hx, hfault, List.append_nil]) rfl

/-- Settles O26: a mapped, aligned access in one line acts, and its read stands in the calendar. -/
theorem globalLoadIssues : Obligations.GlobalLoadIssues := by
  unfold Obligations.GlobalLoadIssues
  refine fun s f => ⟨fun pa hw hb hx hc ha ht => ?_, fun es hw hes => ⟨fun hnil hz => ?_, fun hnil hz => ?_, fun e r pa her hb hx hline ht => ?_⟩⟩
  · rw [exec_gld]
    exact globalSlot_acts hw hc ht (by rw [lOwn_good hb hx, lineFault_single ha, List.append_nil]) rfl
  · rw [exec_gldv_idle hw (hes ▸ hnil), hz, if_neg Bool.false_ne_true]
  · rw [exec_gldv_idle hw (hes ▸ hnil), hz, if_pos rfl]
  · obtain ⟨m, hm, hwait, hhold, hid, hdue, hwr, hmem⟩ := globalLoadIssued_effect s (lVecWrites f (s.tile.lActive f)) (vectorLoad s.tile f pa)
    refine ⟨_, m, vectorLoad s.tile f pa, exec_gldv_acts hw hes her hb hx hline ht, by rw [tile_note], ?_, hwait, hhold, hid, hdue,
      hwr ▸ lVecWrites_dest f (s.tile.lActive f), ⟨_, mem_agenda_schedule _ _ _ _, rfl, rfl⟩, ?_, rfl, rfl, rfl, ?_, ?_, hmem⟩
    · rw [tile_note, hm, addLanding_inflight]
    · rw [hes, ← gldvEls_run, vectorLoad, List.map_map, List.map_map]
      rfl
    · rw [tile_note, hm, addLanding_s]
    · rw [tile_note, hm, addLanding_v]

end Sys2Proof.Machine
end

section
/-! O27: stores to basin memory (R41, R206). -/

namespace Sys2Proof.Machine

open Sys2Proof.Check Sys2Proof.Claims

/-- The elements of `GSTV` at virtual addresses. -/
def gstvEls (x : Tile) (f : TF) : List (Nat × Nat × Nat) :=
  runEls (x.tAddr f) (max 1 (tyWidth f.type.toNat / 8)) (x.tActive f (8 * max 1 (tyWidth f.type.toNat / 8)))

theorem exec_gst (s : State) (f : TF) : exec (.gst f) s =
    s.globalSlot (.gst f) (s.tile.tCond f) 5 (s.tile.tAddr f) needW
      (s.tile.tOwn f ++ lineFault s.tile 5 (tyWidth f.type.toNat / 8) [s.tile.tAddr f]) noGate
      fun s pa => s.globalStore (scalarStore pa (tyWidth f.type.toNat / 8) (s.tile.scalar (f.data.toNat - 328))) := rfl

theorem exec_gstv_inactive {s : State} {f : TF} (h : gstvEls s.tile f = []) : exec (.gstv f) s = s.issueSlot (.gstv f) [] true [] none s := by
  change execGstv f s = _
  unfold execGstv
  dsimp only
  split
  · rfl
  · rename_i hels
    exact absurd (h.symm.trans hels) (List.cons_ne_nil _ _).symm

theorem exec_gstv_active {s : State} {f : TF} {e : Nat × Nat × Nat} {r : List (Nat × Nat × Nat)} (h : gstvEls s.tile f = e :: r) :
    exec (.gstv f) s = s.globalSlot (.gstv f) true 5 e.1 needW
      (s.tile.tOwn f ++ lineFault s.tile 5 (max 1 (tyWidth f.type.toNat / 8)) ((gstvEls s.tile f).map (·.1))) noGate
      fun u pa => u.globalStore (scatter (u.tile.vreg f.data.toNat) ((gstvEls s.tile f).map fun e => (toPhys pa e.1, e.2.1, e.2.2))) := by
  change execGstv f s = _
  unfold execGstv
  dsimp only
  split
  · rename_i hels
    exact absurd (h.symm.trans hels) (List.cons_ne_nil _ _)
  · rename_i hels
    cases h.symm.trans hels
    rfl

/-- The elements of a store's run, with their places in the register. -/
theorem runEls_runOf {a w : Nat} {act : List Bool} (hlen : act.length = 256 / w) :
    runEls a w act = (runOf a (8 * w) act).map fun d => (d.2, d.1 * w, w) := by
  rw [runEls, runOf, List.map_map, ← List.filterMap_eq_map, List.filterMap_filter, hlen]
  refine List.filterMap_congr fun i _ => ?_
  have hstep : i * (8 * w) / 8 = i * w := by
    rw [Nat.mul_left_comm]
    exact Nat.mul_div_cancel_left _ (by decide)
  simp only [Function.comp_apply, hstep]

theorem gstvEls_run (x : Tile) (f : TF) {w : Nat} (hw : w = max 1 (tyWidth f.type.toNat / 8)) :
    gstvEls x f = (runOf (x.tAddr f) (8 * w) (x.tActive f (8 * w))).map fun d => (d.2, d.1 * w, w) := by
  subst hw
  refine runEls_runOf ?_
  have hdiv : ∀ w, 2048 / (8 * w) = 256 / w := fun w => (Nat.div_div_eq_div_mul 2048 8 w).symm
  rw [Tile.tActive, actives, List.length_map, List.length_range, hdiv]

/-- `GSTV` of aligned elements in one mapped line acts. -/
theorem exec_gstv_acts {s : State} {f : TF} {w pa : Nat} {es r : List (Nat × Nat)} {e : Nat × Nat} (hwf : (Instr.gstv f).wf = true)
    (hw : w = max 1 (tyWidth f.type.toNat / 8)) (hes : es = runOf (s.tile.tAddr f) (8 * w) (s.tile.tActive f (8 * w))) (her : es = e :: r)
    (hb : s.tile.GoodS f.base) (hline : OneLine w es) (ht : s.tile.translate e.2 needW = .pa pa) :
    exec (.gstv f) s = .next (storesLater s (scatter (s.tile.vreg f.data.toNat) (es.map fun d => (inLine pa d.2, d.1 * w, w)))) := by
  have hels : gstvEls s.tile f = es.map fun d => (d.2, d.1 * w, w) := hes ▸ gstvEls_run s.tile f hw
  have hcons : gstvEls s.tile f = (e.2, e.1 * w, w) :: r.map fun d => (d.2, d.1 * w, w) := by rw [hels, her, List.map_cons]
  have hfault : lineFault s.tile 5 (max 1 (tyWidth f.type.toNat / 8)) ((gstvEls s.tile f).map (·.1)) = [] := by
    rw [← hw, hels, List.map_map, her]
    exact lineFault_run (her ▸ hline)
  have hphys : (gstvEls s.tile f).map (fun d => (toPhys pa d.1, d.2.1, d.2.2)) = es.map fun d => (inLine pa d.2, d.1 * w, w) := by
    rw [hels, List.map_map]
    rfl
  rw [exec_gstv_active hcons]
  refine (globalSlot_acts hwf rfl ht (by rw [tOwn_good hb, hfault, List.append_nil]) rfl).trans ?_
  rw [hphys]
  rfl

/-- Settles O27: a mapped, aligned access in one line acts, and its store is on its way by mode. -/
theorem globalStoreIssues : Obligations.GlobalStoreIssues := by
  unfold Obligations.GlobalStoreIssues
  refine fun s f => ⟨fun pa hw hb ht hc ha => ?_, fun w es hwf hw hes => ⟨fun hnil => ?_, fun e r pa her hb hline ht =>
    exec_gstv_acts hwf hw hes her hb hline ht⟩⟩
  · rw [exec_gst]
    exact globalSlot_acts hw hc ht (by rw [tOwn_good hb, lineFault_single ha, List.append_nil]) rfl
  · have hels : gstvEls s.tile f = [] := by rw [gstvEls_run s.tile f hw, ← hes, hnil, List.map_nil]
    exact (exec_gstv_inactive hels).trans (issueSlot_wf s _ _ _ _ hwf rfl rfl)

end Sys2Proof.Machine
end

section
/-! O28: GPREF and GFLUSH (R205, R207). -/

namespace Sys2Proof.Machine

open Sys2Proof.Check Sys2Proof.Claims

/-! ## What a prefetch changes of its tile -/

/-- Of the basin's memory nothing has changed, and of tile `t` only the order of its ways and the sectors being filled, of which none has gone. -/
structure OnlyFills (t : Tid) (s s' : State) : Prop where
  tile : ∃ p l, s'.tileAt t = { s.tileAt t with plru := p, fills := (s.tileAt t).fills ++ l }
  mem : s'.mem = s.mem
  cur : s'.cur = s.cur

namespace OnlyFills

variable {t : Tid} {s s₁ s₂ : State}

theorem same (ht : s₁.tileAt t = s.tileAt t) (hm : s₁.mem = s.mem) (hc : s₁.cur = s.cur) : OnlyFills t s s₁ :=
  ⟨⟨(s.tileAt t).plru, [], by rw [ht, List.append_nil]⟩, hm, hc⟩

theorem trans (h₁ : OnlyFills t s s₁) (h₂ : OnlyFills t s₁ s₂) : OnlyFills t s s₂ := by
  obtain ⟨⟨p₁, l₁, ht₁⟩, hm₁, hc₁⟩ := h₁
  obtain ⟨⟨p₂, l₂, ht₂⟩, hm₂, hc₂⟩ := h₂
  exact ⟨⟨p₂, l₁ ++ l₂, by rw [ht₂, ht₁, ← List.append_assoc]⟩, hm₂.trans hm₁, hc₂.trans hc₁⟩

theorem touch (s : State) (t : Tid) (k : Nat) : OnlyFills t s (s.modTile t fun x => x.touch k) := by
  have hx : ∀ x : Tile, ∃ p, x.touch k = { x with plru := p } := fun x => by
    unfold Tile.touch
    split
    · exact ⟨_, rfl⟩
    · exact ⟨x.plru, rfl⟩
  obtain ⟨p, hp⟩ := hx (s.tileAt t)
  exact ⟨⟨p, [], by rw [tileAt_modTile, if_pos rfl, hp, List.append_nil]⟩, rfl, rfl⟩

theorem startFill (s : State) (t : Tid) (sector : Nat) : OnlyFills t s (s.startFill t sector) := by
  unfold State.startFill
  split
  · exact same rfl rfl rfl
  · exact ⟨⟨(s.tileAt t).plru, [sector], by rw [tileAt_plan, tileAt_modTile, if_pos rfl]; rfl⟩, rfl, rfl⟩

theorem l1Find (h : OnlyFills t s s₁) (line : Nat) : (s₁.tileAt t).l1Find line = (s.tileAt t).l1Find line := by
  obtain ⟨p, l, ht⟩ := h.tile
  rw [ht]
  rfl

theorem fills {sector : Nat} (h : OnlyFills t s s₁) (hs : sector ∈ (s.tileAt t).fills) : sector ∈ (s₁.tileAt t).fills := by
  obtain ⟨p, l, ht⟩ := h.tile
  rw [ht]
  exact List.mem_append_left l hs

end OnlyFills

theorem mem_startFill (s : State) (t : Tid) (sector : Nat) : sector ∈ ((s.startFill t sector).tileAt t).fills := by
  unfold State.startFill
  split
  · rename_i h
    exact List.contains_iff_mem.mp h
  · rw [tileAt_plan, tileAt_modTile, if_pos rfl]
    exact List.mem_append_right _ (List.mem_singleton_self sector)

/-! ## The sectors of a line -/

/-- Every word of sector `k` of a line is valid in L1. -/
def sectorValid (x : Tile) (line k : Nat) : Bool :=
  match x.l1Find line with
  | some (_, l) => bits l.v.toNat (16 * k) 16 == 2 ^ 16 - 1
  | none => false

theorem sectorValid_eq_false {x : Tile} {line k : Nat} (h : ∀ w l, x.l1Find line = some (w, l) → bits l.v.toNat (16 * k) 16 ≠ 2 ^ 16 - 1) :
    sectorValid x line k = false := by
  unfold sectorValid
  split
  · rename_i w l hl
    simpa using h w l hl
  · rfl

/-- A sector that is not valid is filled. -/
def sectorFill (t : Tid) (line : Nat) (s : State) (k : Nat) : State :=
  if sectorValid (s.tileAt t) line k then s else s.startFill t (4 * line + k)

theorem sectorFill_only (t : Tid) (line : Nat) (s : State) (k : Nat) : OnlyFills t s (sectorFill t line s k) := by
  unfold sectorFill
  split
  · exact .same rfl rfl rfl
  · exact .startFill s t _

/-- The state in which a prefetch of a mapped line fills it: its way, if it has one, has been used (R201). -/
def prefetchTouch (s : State) (t : Tid) (line : Nat) : State :=
  match (s.tileAt t).l1Find line with
  | some (k, _) => s.modTile t fun x => x.touch k
  | none => s

theorem prefetchTouch_only (s : State) (t : Tid) (line : Nat) : OnlyFills t s (prefetchTouch s t line) := by
  unfold prefetchTouch
  split
  · exact .touch s t _
  · exact .same rfl rfl rfl

/-- The data part of a prefetch of a mapped line. -/
def prefetchLine (s : State) (t : Tid) (line : Nat) : State := (List.range 4).foldl (sectorFill t line) (prefetchTouch s t line)

theorem prefetchLine_only (s : State) (t : Tid) (line : Nat) : OnlyFills t s (prefetchLine s t line) :=
  (prefetchTouch_only s t line).trans
    (List.foldlRecOn _ (sectorFill t line) (motive := OnlyFills t (prefetchTouch s t line)) (.same rfl rfl rfl) fun u hu k _ =>
      hu.trans (sectorFill_only t line u k))

/-- Each sector that is not valid is being filled. -/
theorem mem_prefetchLine {s : State} {t : Tid} {line k : Nat} (hk : k < 4) (hv : sectorValid (s.tileAt t) line k = false) :
    4 * line + k ∈ ((prefetchLine s t line).tileAt t).fills := by
  refine foldl_establishes (f := sectorFill t line) (Q := OnlyFills t s) (P := fun u => 4 * line + k ∈ (u.tileAt t).fills)
    (fun u j hu => hu.trans (sectorFill_only t line u j)) (fun u hu => ?_) (fun u j _ hu => (sectorFill_only t line u j).fills hu)
    (List.mem_range.mpr hk) (prefetchTouch_only s t line)
  have hvu : sectorValid (u.tileAt t) line k = false := by
    unfold sectorValid at hv ⊢
    rwa [hu.l1Find]
  rw [sectorFill, hvu, if_neg Bool.false_ne_true]
  exact mem_startFill u t _

/-- The fetch buffer's part of a prefetch (R431), of an address that tile `x` may translate. -/
def fetchAhead (s : State) (x : Tile) (t : Tid) (va : Nat) : State :=
  match x.translate va needX with
  | .pa _ => s.drawNat.2.plan (s.now + 1 + s.drawNat.1) ordRead .fetchLineArrival { EvArg.none with t := t, n := va / 256 }
  | _ => s

theorem fetchAhead_only (s : State) (x : Tile) (t : Tid) (va : Nat) : OnlyFills t s (fetchAhead s x t va) := by
  unfold fetchAhead
  split
  · exact .same rfl rfl rfl
  · exact .same rfl rfl rfl

theorem prefetch_mapped {s : State} {t : Tid} {va pa : Nat} (h : (s.tileAt t).translate va needR = .pa pa) :
    s.prefetch t va = fetchAhead (prefetchLine s t (pa / 256)) (s.tileAt t) t va := by
  unfold State.prefetch
  dsimp only
  rw [h]
  dsimp only
  generalize hfold : List.foldl _ _ (List.range 4) = u
  have hu : prefetchLine s t (pa / 256) = u := by
    rw [← hfold]
    unfold prefetchLine
    congr 1
  rw [hu, fetchAhead]
  rfl

theorem prefetch_unmapped {s : State} {t : Tid} {va : Nat} (h : ∀ pa, (s.tileAt t).translate va needR ≠ .pa pa) :
    s.prefetch t va = fetchAhead s (s.tileAt t) t va := by
  unfold State.prefetch
  dsimp only
  cases ht : (s.tileAt t).translate va needR with
  | pa a => exact absurd ht (h a)
  | fault c l | miss => rfl

theorem prefetch_only (s : State) (t : Tid) (va : Nat) : OnlyFills t s (s.prefetch t va) := by
  by_cases h : ∃ pa, (s.tileAt t).translate va needR = .pa pa
  · obtain ⟨pa, h⟩ := h
    rw [prefetch_mapped h]
    exact (prefetchLine_only s t _).trans (fetchAhead_only _ _ _ _)
  · rw [prefetch_unmapped (not_exists.mp h)]
    exact fetchAhead_only _ _ _ _

/-! ## A walk changes neither tiles nor memory -/

theorem runWalks_only (s : State) (t : Tid) : OnlyFills t s s.runWalks :=
  List.foldlRecOn _ _ (motive := OnlyFills t s) (.same rfl rfl rfl) fun u hu w _ => hu.trans (by
    dsimp only
    split <;> exact .same rfl rfl rfl)

theorem startWalk_only (s : State) (t : Tid) (va req : Nat) : OnlyFills t s (s.startWalk t va req) := by
  unfold State.startWalk State.startWalkFor
  dsimp only
  generalize (if req = 16 then s.walking t (s.tileAt t).pdom va else s.walkingFor t (s.tileAt t).pdom va) = known
  cases known with
  | true => exact .same rfl rfl rfl
  | false =>
    have hadd : OnlyFills t s { s with walks := s.walks ++ [{ tile := t, pdom := (s.tileAt t).pdom, va := BitVec.ofNat 64 va, req := req }] } :=
      .same rfl rfl rfl
    exact hadd.trans (runWalks_only _ t)

/-! ## GPREF -/

/-- What `GPREF` does (R205): on a miss a walk starts and the prefetch waits for it. -/
def prefetchOrWalk (s : State) (a : Nat) : State :=
  match s.tile.translate a needR with
  | .miss => (s.startWalk s.cur a 16).schedule (s.now + 1) ordRead (.gprefWait s.cur a)
  | _ => s.prefetch s.cur a

theorem exec_gpref (s : State) (f : LF) : exec (.gpref f) s =
    s.issueSlot (.gpref f) [] (s.tile.cond f.pred.toNat f.n) (s.tile.lOwn f) none (prefetchOrWalk s (s.tile.lAddr f)) := rfl

theorem prefetchOrWalk_only (s : State) (a : Nat) : OnlyFills s.cur s (prefetchOrWalk s a) := by
  unfold prefetchOrWalk
  split
  · exact (startWalk_only s s.cur a 16).trans (.same rfl rfl rfl)
  · exact prefetch_only s s.cur a

theorem prefetchOrWalk_mapped {s : State} {a pa : Nat} (h : s.tile.translate a needR = .pa pa) :
    OnlyFills s.cur (prefetchLine s s.cur (pa / 256)) (prefetchOrWalk s a) := by
  rw [prefetchOrWalk, h]
  dsimp only
  rw [prefetch_mapped h]
  exact fetchAhead_only _ _ _ _

/-! ## GFLUSH -/

theorem exec_gflush_line {s : State} {f : TF} {line : Option Nat}
    (h : f.data.getLsbD 1 = true ∧ line = none ∨
      f.data.getLsbD 1 = false ∧ ∃ pa, s.tile.translate (s.tile.tAddr f) 0 = .pa pa ∧ line = some (pa / 256)) :
    exec (.gflush f) s = s.flushSlot f (s.tile.tOwn f) line := by
  change execGflush f s = _
  unfold execGflush
  obtain ⟨hall, rfl⟩ | ⟨hone, pa, ht, rfl⟩ := h
  · rw [hall, if_pos rfl]
  · rw [hone, if_neg Bool.false_ne_true]
    rw [ht]

/-- Settles O28: the data part of a prefetch touches a way and starts fills only; a flush turns on whether its range is dirty. -/
theorem prefetchAndFlush : Obligations.PrefetchAndFlush := by
  unfold Obligations.PrefetchAndFlush
  refine fun s => ⟨fun f hw hc hb hx => ?_, fun f line hw hc hb hline => ?_⟩
  · obtain ⟨⟨p, l, htile⟩, hmem, hcur⟩ := prefetchOrWalk_only s (s.tile.lAddr f)
    have ht : (prefetchOrWalk s (s.tile.lAddr f)).tile = { s.tile with plru := p, fills := s.tile.fills ++ l } := by
      rw [State.tile, hcur, htile]
      rfl
    refine ⟨_, (exec_gpref s f).trans (issueSlot_wf s _ _ _ _ hw hc (lOwn_good hb hx)), by rw [tile_note], ?_, ?_, ?_, hmem,
      fun pa hpa k hk hv => ?_⟩
    · rw [tile_note, ht]
    · rw [tile_note, ht]
    · rw [tile_note, ht]
    · have hfill := (prefetchOrWalk_mapped hpa).fills (mem_prefetchLine hk (sectorValid_eq_false hv))
      rw [tile_note, State.tile, hcur]
      exact hfill
  · have hown := tOwn_good hb
    rw [exec_gflush_line hline, State.flushSlot, hown]
    refine ⟨fun hd => ?_, fun hd ht => ?_, fun hd ht => ?_⟩
    · rw [hd, Bool.and_false, Bool.and_false]
      exact issueSlot_wf s _ _ _ _ hw hc rfl
    · rw [hd, ht]
      exact issueSlot_wf_fault s _ _ _ _ _ _ hw hc rfl
    · rw [hd, ht]
      exact issueSlot_wf_wait s _ _ _ _ _ _ hw hc rfl

end Sys2Proof.Machine
end

section
/-! O29: atomics issue (R209, R211). -/

namespace Sys2Proof.Machine

open Sys2Proof.Check Sys2Proof.Claims

/-! ## What the preparation of an atomic leaves as it is -/

/-- The clock, basin memory and, of the tile that issues, its scalars, its scratchpad, its results in flight and its tile cycle are as before. -/
structure KeepsResults (s u : State) : Prop where
  now : u.now = s.now
  cur : u.cur = s.cur
  mem : u.mem = s.mem
  scalars : u.tile.s = s.tile.s
  pad : u.tile.pad = s.tile.pad
  inflight : u.tile.inflight = s.tile.inflight
  rclk : u.tile.rclk = s.tile.rclk

namespace KeepsResults

variable {s u v : State}

theorem refl (s : State) : KeepsResults s s := ⟨rfl, rfl, rfl, rfl, rfl, rfl, rfl⟩

theorem trans (h : KeepsResults s u) (k : KeepsResults u v) : KeepsResults s v :=
  ⟨k.now.trans h.now, k.cur.trans h.cur, k.mem.trans h.mem, k.scalars.trans h.scalars, k.pad.trans h.pad, k.inflight.trans h.inflight,
    k.rclk.trans h.rclk⟩

/-- The tile that issues takes tile `x`, of which the named parts are as before. -/
theorem setTile {x : Tile} (hs : x.s = s.tile.s) (hp : x.pad = s.tile.pad) (hi : x.inflight = s.tile.inflight) (hr : x.rclk = s.tile.rclk) :
    KeepsResults s (s.setTile s.cur x) := by
  have ht := tile_setTile_cur s x
  exact ⟨rfl, rfl, rfl, by rw [ht, hs], by rw [ht, hp], by rw [ht, hi], by rw [ht, hr]⟩

theorem claim (s : State) (kind : Nat) (p : PortPlan) : KeepsResults s (s.claim kind p) := by
  obtain ⟨r, q, z, hclaim⟩ := claim_eq s kind p
  rw [hclaim]
  exact setTile rfl rfl rfl rfl

theorem addPend (s : State) (rows : List Nat) : KeepsResults s (s.onTile fun x => x.addPend rows) := setTile rfl rfl rfl rfl

theorem schedule (s : State) (n o : Nat) (e : Ev) : KeepsResults s (s.schedule n o e) := ⟨rfl, rfl, rfl, rfl, rfl, rfl, rfl⟩

theorem acquireTile (s : State) (c : Nat) : KeepsResults s (s.acquireTile s.cur c) := by
  unfold State.acquireTile
  split
  · exact setTile rfl rfl rfl rfl
  · have hset : KeepsResults s (s.modTile s.cur fun x => { x.acquire with acqAt := c }) := setTile rfl rfl rfl rfl
    exact hset.trans (schedule _ _ _ _)

theorem markEffect (s : State) (t : Tid) : KeepsResults s (s.markEffect t) := by
  unfold State.markEffect State.modTask
  split
  · exact refl s
  · split
    · exact refl s
    · exact ⟨rfl, rfl, rfl, rfl, rfl, rfl, rfl⟩

end KeepsResults

/-- An atomic takes its identifier and, with `.acq`, invalidates L1 (R51). -/
def amoPrepare (s : State) (a : Amo) : State :=
  if a.acq then s.newId.2.acquireTile s.cur (s.now + 1) else s.newId.2

theorem amoPrepare_keeps (s : State) (a : Amo) : KeepsResults s (amoPrepare s a) := by
  have hid : KeepsResults s s.newId.2 := ⟨rfl, rfl, rfl, rfl, rfl, rfl, rfl⟩
  unfold amoPrepare
  split
  · exact hid.trans (.acquireTile s.newId.2 (s.now + 1))
  · exact hid

/-! ## Checks -/

/-- An element inside its own width stands in one row, in any row of whole elements. -/
theorem aligned_sameRow {t a : Nat} (h : a % (tyWidth t / 8) = 0) : a / 256 = (a + tyWidth t / 8 - 1) / 256 := by
  obtain hw | hw | hw | hw | hw := tyWidth_cases t <;> rw [hw] at h ⊢ <;> omega

theorem aligned_fits {t a : Nat} (h : a % (tyWidth t / 8) = 0) (ha : a < 2 ^ 21) : Fits (tyWidth t / 8) false [a] := fun b hb => by
  rw [List.mem_singleton.mp hb]
  exact ⟨ha, h, aligned_sameRow h, fun hf => absurd hf Bool.false_ne_true⟩

/-- Good operands of an atomic raise nothing. -/
theorem amoOwn_good {x : Tile} {a : Amo} {f : TF} (hb : x.GoodS f.base) (hv : Clean (x.scalar a.val)) (hr : Clean (x.scalar a.ret)) :
    x.amoOwn a f = [] := by
  rw [Tile.amoOwn, consumeS_clean _ _ _ _ hv, consumeS_clean _ _ _ _ hr, tOwn_good hb, ite_self, List.append_nil, List.append_nil]

/-! ## In scratchpad -/

/-- The ports of an atomic's row, for its read and its write. -/
def amoPlan (s : State) (a : Amo) : PortPlan := planPorts (s.tile.bothBusy s.now) (s.now + 4) 1 [rowOf a.addr]

/-- An atomic that acts holds both ports of its bank at its cycle, and its row is pending. -/
def padAmoClaimed (s : State) (a : Amo) : State :=
  (((amoPrepare s a).claim 1 (amoPlan s a)).claim 2 (amoPlan s a)).onTile fun x => x.addPend [rowOf a.addr]

def padAmoIssued (s : State) (a : Amo) : State :=
  ((padAmoClaimed s a).landWaiting 5 6 [.scalar (BitVec.ofNat 6 a.ret) (.zero 1)] s.nextId).schedule ((padAmoClaimed s a).now + 4)
    (ordWrite (padAmoClaimed s a).cur 1)
    (.padAtomic (padAmoClaimed s a).cur (padAmoClaimed s a).now s.nextId s.tile.pc a.type a.op a.addr (s.tile.sv a.val) (s.tile.sv a.ret) a.acq)

theorem padAmoClaimed_keeps (s : State) (a : Amo) : KeepsResults s (padAmoClaimed s a) :=
  (amoPrepare_keeps s a).trans ((KeepsResults.claim _ _ _).trans ((KeepsResults.claim _ _ _).trans (.addPend _ _)))

section
variable {s : State} {i : Instr} {f : TF} {a : Amo} {gate : List Flt × Option (Wait × State)}

/-- A scratchpad atomic that nothing of chapter 7 stands against acts. -/
theorem padAmo_acts (hw : i.wf = true) (hc : s.tile.cond f.pred.toNat false = true) (hown : s.tile.amoOwn a f = [])
    (hal : a.addr % (tyWidth a.type / 8) = 0) (hg : gate = ([], none)) (ha : a.addr < 2 ^ 21) (hrow : s.tile.Ready (rowOf a.addr))
    (hp : PortsFree s.tile 5 (amoPlan s a)) : s.padAmo i f a gate = .next ((padAmoIssued s a).note .acted) := by
  have hready : ∀ r ∈ [rowOf a.addr], s.tile.Ready r := fun r hr => List.mem_singleton.mp hr ▸ hrow
  rw [State.padAmo, hg]
  refine issueFix_wf s i [] _ _ _ _ _ hw rfl hc ?_ (lateWait_ready hready)
  rw [hown, padFault_fits (aligned_fits hal ha), earlyFault_ready hready]
  exact hp

/-- What such an atomic has put in flight and in the calendar. -/
theorem padAmoIssued_effect (s : State) (a : Amo) :
    (∃ l, (padAmoIssued s a).tile = (padAmoClaimed s a).tile.addLanding l ∧ l.waiting = true ∧ l.due = s.tile.rclk + 6 ∧
      l.writes = [.scalar (BitVec.ofNat 6 a.ret) (.zero 1)]) ∧
    ∃ q ∈ (padAmoIssued s a).agenda, q.at_ = s.now + 4 ∧
      q.ev = .padAtomic s.cur s.now s.nextId s.tile.pc a.type a.op a.addr (s.tile.sv a.val) (s.tile.sv a.ret) a.acq := by
  have hkeep := padAmoClaimed_keeps s a
  refine ⟨⟨_, (tile_schedule _ _ _ _).trans (tile_landWaiting _ _ _ _ _), rfl, ?_, rfl⟩, _, mem_agenda_schedule _ _ _ _, ?_, ?_⟩
  · exact congrArg (· + 6) hkeep.rclk
  · exact congrArg (· + 4) hkeep.now
  · dsimp only
    rw [hkeep.cur, hkeep.now]

/-! ## In basin memory -/

/-- An atomic on its way to the L2. -/
def globalAmoIssued (s : State) (a : Amo) (pa : Nat) : State :=
  let m := s.markEffect s.cur
  (((amoPrepare m a).landHeld 5 64 [.scalar (BitVec.ofNat 6 a.ret) (.zero 1)] m.nextId).schedule (m.now + 31) ordRead
    (.l2Take m.cur (amoWords a.type pa))).schedule (m.now + 32) (ordWrite m.cur 1)
    (.l2Atomic m.cur m.now m.nextId a.type a.op pa (s.tile.sv a.val) (s.tile.sv a.ret) a.acq)

theorem globalAmo_acts {pa : Nat} (hw : i.wf = true) (hc : s.tile.cond f.pred.toNat false = true) (hown : s.tile.amoOwn a f = [])
    (hal : a.addr % (tyWidth a.type / 8) = 0) (hg : gate = ([], none)) (ht : s.tile.translate a.addr needRW = .pa pa) :
    s.globalAmo i f a gate = .next ((globalAmoIssued s a pa).note .acted) := by
  have hfaults : s.tile.amoOwn a f ++ lineFault s.tile 5 (tyWidth a.type / 8) [a.addr] = [] := by
    rw [hown, lineFault_single hal, List.append_nil]
  rw [State.globalAmo]
  exact globalSlot_acts hw hc ht hfaults hg

theorem markEffect_nextId (s : State) (t : Tid) : (s.markEffect t).nextId = s.nextId := by
  unfold State.markEffect State.modTask
  split
  · rfl
  · split <;> rfl

theorem globalAmoIssued_effect (s : State) (a : Amo) (pa : Nat) :
    (∃ u l, KeepsResults s u ∧ (globalAmoIssued s a pa).tile = u.tile.addLanding l ∧ (globalAmoIssued s a pa).mem = u.mem ∧ l.waiting = true ∧
      l.due = s.tile.rclk + 64 ∧ l.writes = [.scalar (BitVec.ofNat 6 a.ret) (.zero 1)]) ∧
    ∃ q ∈ (globalAmoIssued s a pa).agenda, q.at_ = s.now + 32 ∧
      q.ev = .l2Atomic s.cur s.now s.nextId a.type a.op pa (s.tile.sv a.val) (s.tile.sv a.ret) a.acq := by
  have hmark := KeepsResults.markEffect s s.cur
  have hkeep : KeepsResults s (amoPrepare (s.markEffect s.cur) a) := hmark.trans (amoPrepare_keeps _ a)
  refine ⟨⟨amoPrepare (s.markEffect s.cur) a, _, hkeep, (tile_schedule _ _ _ _).trans ((tile_schedule _ _ _ _).trans (tile_landHeld _ _ _ _ _)),
    rfl, rfl, ?_, rfl⟩, _, mem_agenda_schedule _ _ _ _, ?_, ?_⟩
  · exact congrArg (· + 64) hkeep.rclk
  · exact congrArg (· + 32) hmark.now
  · dsimp only
    rw [hmark.cur, hmark.now, markEffect_nextId]

end

/-! ## The nine instructions -/

theorem exec_atomic {e : (TF → Instr) × Nat} (he : e ∈ atomics) (s : State) (f : TF) : exec (e.1 f) s = s.amoSlot (e.1 f) f e.2 := by
  unfold atomics at he
  fin_cases he <;> rfl

/-- The gate of an atomic without a release to wait for. -/
def amoGate (s : State) (a : Amo) : List Flt × Option (Wait × State) := if a.rel then s.releaseGate 5 a.scope false else noGate

theorem amoGate_open {s : State} {a : Amo} (h : a.rel = true → s.releaseGate 5 a.scope false = ([], none)) : amoGate s a = ([], none) := by
  unfold amoGate
  split
  · rename_i hr
    exact h hr
  · rfl

theorem amoSlot_pad {s : State} {i : Instr} {f : TF} {op : Nat} (h : (s.tile.amo op f).global = false) :
    s.amoSlot i f op = s.padAmo i f (s.tile.amo op f) (amoGate s (s.tile.amo op f)) := by
  rw [State.amoSlot, h, if_neg Bool.false_ne_true]
  rfl

theorem amoSlot_global {s : State} {i : Instr} {f : TF} {op : Nat} (h : (s.tile.amo op f).global = true) :
    s.amoSlot i f op = s.globalAmo i f (s.tile.amo op f) (amoGate s (s.tile.amo op f)) := by
  rw [State.amoSlot, h, if_pos rfl]
  rfl

/-- Settles O29: with nothing of chapter 7 against it an atomic acts, in scratchpad or towards the L2. -/
theorem atomicIssues : Obligations.AtomicIssues := by
  unfold Obligations.AtomicIssues
  intro s f e he hw hc a hb hv hr hal hrel
  have hown : s.tile.amoOwn a f = [] := amoOwn_good hb hv hr
  have hgate := amoGate_open hrel
  refine ⟨fun hg ha hlate hpend hports => ?_, fun hg pa ht => ?_⟩
  · obtain ⟨⟨l, htile, hwait, hdue, hwr⟩, hq⟩ := padAmoIssued_effect s a
    have hkeep := padAmoClaimed_keeps s a
    refine ⟨_, l, ((exec_atomic he s f).trans (amoSlot_pad hg)).trans (padAmo_acts hw hc hown hal hgate ha ⟨hlate, hpend⟩ hports),
      by rw [tile_note], ?_, hwait, hdue, hwr, hq, ?_, ?_⟩
    · rw [tile_note, htile, addLanding_inflight, hkeep.inflight]
    · rw [tile_note, htile, addLanding_s, hkeep.scalars]
    · rw [tile_note, htile, addLanding_pad, hkeep.pad]
  · obtain ⟨⟨u, l, hkeep, htile, hmem, hwait, hdue, hwr⟩, hq⟩ := globalAmoIssued_effect s a pa
    refine ⟨_, l, ((exec_atomic he s f).trans (amoSlot_global hg)).trans (globalAmo_acts hw hc hown hal hgate ht), by rw [tile_note], ?_, hwait, hdue,
      hwr, hq, ?_, hmem.trans hkeep.mem⟩
    · rw [tile_note, htile, addLanding_inflight, hkeep.inflight]
    · rw [tile_note, htile, addLanding_s, hkeep.scalars]

end Sys2Proof.Machine
end

section
/-! O30: what an atomic writes (R210). -/

namespace Sys2Proof.Machine

open Sys2Proof.Check Sys2Proof.Claims

/-! ## One equation for each atomic, by its kind of type -/

section
variable {t old v cmp : Nat} (hv : v < 2 ^ tyWidth t)
include hv

theorem amoNew_add : amoNew 0x08 t old v cmp = some ((old + v) % 2 ^ tyWidth t) := by rw [amoNew, Nat.mod_eq_of_lt hv]

theorem amoNew_min (ht : tyF t = false) : amoNew 0x0A t old v cmp = some (if ival t old ≤ ival t v then old else v) := by
  rw [amoNew, Nat.mod_eq_of_lt hv, ht, if_neg Bool.false_ne_true]

theorem amoNew_max (ht : tyF t = false) : amoNew 0x0B t old v cmp = some (if ival t old ≤ ival t v then v else old) := by
  rw [amoNew, Nat.mod_eq_of_lt hv, ht, if_neg Bool.false_ne_true]

theorem amoNew_and : amoNew 0x0C t old v cmp = some (old &&& v) := by rw [amoNew, Nat.mod_eq_of_lt hv]

theorem amoNew_or : amoNew 0x0D t old v cmp = some (old ||| v) := by rw [amoNew, Nat.mod_eq_of_lt hv]

theorem amoNew_xor : amoNew 0x0E t old v cmp = some (old ^^^ v) := by rw [amoNew, Nat.mod_eq_of_lt hv]

theorem amoNew_swap : amoNew 0x0F t old v cmp = some v := by rw [amoNew, Nat.mod_eq_of_lt hv]

theorem amoNew_addf : amoNew 0x09 t old v cmp = some (fAdd 0 t 0 old v).1 := by rw [amoNew, Nat.mod_eq_of_lt hv, uAdd]

theorem amoNew_minf (ht : tyF t = true) : amoNew 0x0A t old v cmp = some (fMinMax false false 0 t old v).1 := by
  rw [amoNew, Nat.mod_eq_of_lt hv, ht, if_pos rfl, uMinMax]

theorem amoNew_maxf (ht : tyF t = true) : amoNew 0x0B t old v cmp = some (fMinMax true false 0 t old v).1 := by
  rw [amoNew, Nat.mod_eq_of_lt hv, ht, if_pos rfl, uMinMax]

theorem amoNew_cas (hc : cmp < 2 ^ tyWidth t) : amoNew 0x10 t old v cmp = if old = cmp then some v else none := by
  rw [amoNew, Nat.mod_eq_of_lt hv, Nat.mod_eq_of_lt hc]
  all_goals decide

end

theorem ival_ite_min (t old v : Nat) : ival t (if ival t old ≤ ival t v then old else v) = min (ival t old) (ival t v) := by
  rw [min_def, apply_ite (ival t)]

theorem ival_ite_max (t old v : Nat) : ival t (if ival t old ≤ ival t v then v else old) = max (ival t old) (ival t v) := by
  rw [max_def, apply_ite (ival t)]

/-! ## FP32 -/

/-- Flushing subnormals makes nothing a NaN (R89). -/
theorem fin_isNan (ctl t x : Nat) : (fin ctl t x).isNan = (fval t x).isNan := by
  unfold fin
  cases fval t x with
  | nan _ | inf _ => rfl
  | fin neg m e =>
    dsimp only
    split <;> rfl

theorem fAdd_nan {ctl t mode a b : Nat} (h : (fval t a).isNan = true ∨ (fval t b).isNan = true) :
    (fAdd ctl t mode a b).1 = (fmtOf t).nanBits := by
  have hany : [fin ctl t a, fin ctl t b].any FVal.isNan = true := by simpa [fin_isNan] using h
  rw [fAdd, fres, if_pos hany]

theorem fMinMax_nan {mx : Bool} {ctl t a b : Nat} (h : (fval t a).isNan = true ∨ (fval t b).isNan = true) :
    (fMinMax mx false ctl t a b).1 = (fmtOf t).nanBits := by
  have hor : ((fval t a).isNan || (fval t b).isNan) = true := by simpa using h
  rw [fMinMax]
  dsimp only
  rw [fin_isNan, fin_isNan, hor]
  split <;> rfl

/-- A NaN on either side gives the canonical NaN. -/
theorem amoNew_nan {old v cmp : Nat} (hv : v < 2 ^ 32) (h : (fval 10 old).isNan = true ∨ (fval 10 v).isNan = true) :
    ∀ op ∈ [0x09, 0x0A, 0x0B], amoNew op 10 old v cmp = some 0x7FC00000 := by
  intro op hop
  simp only [List.mem_cons, List.not_mem_nil, or_false] at hop
  obtain rfl | rfl | rfl := hop
  · rw [amoNew_addf hv, fAdd_nan h]
    rfl
  · rw [amoNew_minf hv rfl, fMinMax_nan h]
    rfl
  · rw [amoNew_maxf hv rfl, fMinMax_nan h]
    rfl

/-- The zeros of FP32. -/
theorem zero_cases {x : Nat} (hx : x < 2 ^ 32) (h : x % 2 ^ 31 = 0) : x = 0 ∨ x = 2 ^ 31 := by omega

/-- The smaller of two zeros is -0 where there is one, and the larger +0 (R86). -/
theorem fMinMax_zeros {a b : Nat} (ha : a = 0 ∨ a = 2 ^ 31) (hb : b = 0 ∨ b = 2 ^ 31) :
    (fMinMax false false 0 10 a b).1 = max a b ∧ (fMinMax true false 0 10 a b).1 = min a b := by
  obtain rfl | rfl := ha <;> obtain rfl | rfl := hb <;> decide

/-- Settles O30: the operand is already of the type's width; of floats only NaNs and zeros are told apart. -/
theorem atomicValue : Obligations.AtomicValue := by
  unfold Obligations.AtomicValue
  refine ⟨fun t old v cmp ht _ hv hc => ?_, fun old v cmp ho hv => ⟨amoNew_addf hv, amoNew_nan hv, fun hzo hzv => ?_⟩⟩
  · exact ⟨amoNew_add hv, ⟨_, amoNew_min hv ht, ival_ite_min t old v⟩, ⟨_, amoNew_max hv ht, ival_ite_max t old v⟩, amoNew_and hv, amoNew_or hv,
      amoNew_xor hv, amoNew_swap hv, amoNew_cas hv hc⟩
  · obtain ⟨hmin, hmax⟩ := fMinMax_zeros (zero_cases ho hzo) (zero_cases hv hzv)
    rw [amoNew_minf hv rfl, amoNew_maxf hv rfl, hmin, hmax]
    exact ⟨rfl, rfl⟩

end Sys2Proof.Machine
end

section
/-! SUPPORT. O33: the checks of a matrix command that do not stand against it, and how a command joins the queue and begins (R251 to R256). -/

namespace Sys2Proof.Machine

open Sys2Proof.Check Sys2Proof.Claims

/-! ## Checks that find nothing -/

theorem firstBad_eq_none_iff {n : Nat} {v : Reg n} {need : Nat → Bool} :
    v.firstBad need = none ↔ ∀ j < n, need j = true → (v.gran j).bad = false := by
  simp [Reg.firstBad]

/-- An aligned base and rows that lie in the scratchpad raise nothing (R253, R256). -/
theorem mRows_fit {x : Tile} {align base ext : Nat} {addrs : List Nat} (hb : base % align = 0) (h : ∀ a ∈ addrs, a + ext ≤ 2 ^ 21) :
    x.mRows align base ext addrs = [] := by
  have hfind : (addrs.find? fun a => padSize < a + ext) = none :=
    List.find?_eq_none.mpr fun a ha => by rw [decide_eq_true_iff]; exact Nat.not_lt.mpr (h a ha)
  rw [Tile.mRows, if_neg (not_not.mpr hb), hfind]

theorem forall_rowAddrs {c : MCmd} {p : Nat → Prop} : (∀ a ∈ rowAddrs c, p a) ↔ ∀ i < c.rows, p (c.addr i) := by
  simp [rowAddrs]

theorem mRows_of_rowsFit {x : Tile} {align ext : Nat} {c : MCmd} (h : RowsFit align ext c) :
    x.mRows align c.base.d.toNat ext (rowAddrs c) = [] :=
  mRows_fit h.1 (forall_rowAddrs.mpr h.2)

/-! ## A command joins the queue (R252) -/

/-- The command stands at the end of the queue, and its drain rows are pending (R265). -/
def Tile.enqueue (x : Tile) (c : MCmd) : Tile := ({ x with mq := x.mq ++ [c] } : Tile).addPend ((List.range c.rows).flatMap c.drains)

/-- The command starts: it latches what it uses, or leaves the queue with its fault due (R252, R255, R270). -/
def Tile.begin_ (x : Tile) (c : MCmd) : Tile :=
  match c.begin_ x with
  | (_, some f) => { x.dropCmd c x.mclk with dueF := x.dueF ++ [f] }
  | (d, none) => { x with mq := x.mq.map fun a => if a.id = c.id then d else a }

/-- The state in which the command has joined the queue, and has begun if its start offset is 0. -/
def joins (s : State) (c : MCmd) : State :=
  (({ s with nextId := s.nextId + 1 } : State).onTile fun x =>
    if c.start = 0 then (x.enqueue c).begin_ c else x.enqueue c).note .acted

/-- The number of the image that a command issued now uses, or 0 (R250). -/
def Tile.imageNumber (x : Tile) (w : Nat) : Nat := (x.curImage w).elim 0 (·.1)

theorem imageNumber_eq (x : Tile) (w : Nat) : x.imageNumber w = match x.curImage w with | some m => m.1 | none => 0 := by
  unfold Tile.imageNumber
  cases x.curImage w <;> rfl

/-- Outside a handler a well-formed command with nothing against it joins the queue with the number of its image. -/
theorem mIssue_joins {s : State} {i : Instr} {c : MCmd} {own t e : List Flt} (hw : i.wf = true) (htrp : s.tile.trp = false)
    (hown : own = []) (ht : t = []) (he : e = []) (hs : s.tile.mSched { c with img := s.tile.imageNumber c.f.w.toNat } = []) :
    s.mIssue i c own t e = .next (joins s { c with img := s.tile.imageNumber c.f.w.toNat }) := by
  subst hown ht he
  rw [imageNumber_eq] at hs ⊢
  exact issueSlot_wf_dyn s i _ true _ _ hw (comboErr_eq_nil htrp) rfl hs

/-! ## The forms of the commands -/

/-- The format of the bank at abase, and that of the next one (R253). -/
abbrev pairFormat (s : State) (f : MF) : Nat := s.tile.bfmt (bankOf (s.tile.sv f.abase.toNat) % 64)
abbrev nextFormat (s : State) (f : MF) : Nat := s.tile.bfmt ((bankOf (s.tile.sv f.abase.toNat) + 1) % 64)

/-- A load of the image whose pairs begin at abase. -/
abbrev loadCmd (s : State) (op : Nat) (f : MF) : MCmd :=
  cmd s op f [BitVec.ofNat 64 (pairFormat s f), BitVec.ofNat 64 (nextFormat s f)] (pairFormat s f % 256)

/-- A convolution step, with its descriptor (R259). -/
abbrev convCmd (s : State) (f : MF) : MCmd := cmd s 0x04 f ((List.range 3).map fun k => s.tile.sreg (srCVDIM + k)) 0

/-- The descriptor as one number. -/
abbrev convRecord (s : State) : Nat := packNat 64 (((List.range 3).map fun k => s.tile.sreg (srCVDIM + k)).map (·.toNat))

/-- The bank rows that a convolution step reads (R260). -/
abbrev convAddrs (c : MCmd) : List Nat := (List.range c.rows).filterMap fun i => match c.conv i with | .bank a => some a | _ => none

theorem mem_convAddrs {c : MCmd} {a : Nat} (h : a ∈ convAddrs c) : ∃ i < c.rows, c.conv i = .bank a := by
  obtain ⟨i, hi, ha⟩ := List.mem_filterMap.mp h
  refine ⟨i, List.mem_range.mp hi, ?_⟩
  split at ha
  · rw [← Option.some.inj ha]
    assumption
  · cases ha

section
variable {s : State} {f : MF} (htrp : s.tile.trp = false)
include htrp

theorem mStream_joins {i : Instr} {op : Nat} (hw : i.wf = true) (hb : s.tile.GoodS f.abase) (hr : RowsFit 256 256 (cmd s op f [] 0))
    (hf : s.tile.aFormat f.w.toNat (rowAddrs (cmd s op f [] 0)) = []) (hs : s.tile.mSched (cmd s op f [] 0) = []) :
    s.mStream i f op = .next (joins s (cmd s op f [] 0)) :=
  mIssue_joins hw htrp (consumeS_good _ _ _ _ hb) (mRows_of_rowsFit hr) hf hs

theorem mLoad_joins {i : Instr} {op : Nat} (hw : i.wf = true) (hb : s.tile.GoodS f.abase)
    (him : ∃ m, imageOf (pairFormat s f % 256) = some m ∧ f.rows.toNat ≤ m.2.2) (hsame : nextFormat s f % 256 = pairFormat s f % 256)
    (hqg : op = 0x0D → isQg (pairFormat s f % 256) = true →
      imageK (pairFormat s f % 256) f.rows.toNat % imageG (pairFormat s f % 256) = 0)
    (hr : RowsFit 256 (32768 + 256) (loadCmd s op f)) (hs : s.tile.mSched (loadCmd s op f) = []) :
    s.mLoad i f op = .next (joins s (loadCmd s op f)) := by
  obtain ⟨m, hm, hrows⟩ := him
  refine mIssue_joins hw htrp (consumeS_good _ _ _ _ hb) (mRows_of_rowsFit hr) ?_ hs
  rw [hm]
  simpa [hsame, hrows] using hqg

theorem mmac_joins (hw : (Instr.mmac f).wf = true) (hb : s.tile.GoodS f.abase) (hcv : convErr (convRecord s) = none)
    (hbits : bits (convRecord s) 48 16 = 0) (hal : (convCmd s f).base.d.toNat % 256 = 0)
    (hr : ∀ i < (convCmd s f).rows, ∀ a, (convCmd s f).conv i = .bank a → a + 256 ≤ 2 ^ 21)
    (hf : s.tile.aFormat f.w.toNat (convAddrs (convCmd s f)) = []) (hs : s.tile.mSched (convCmd s f) = []) :
    execMmac f s = .next (joins s (convCmd s f)) := by
  refine mIssue_joins hw htrp (consumeS_good _ _ _ _ hb) ?_ ?_ hs
  · rw [hcv, if_neg (not_not.mpr hbits)]
    refine mRows_fit hal fun a ha => ?_
    obtain ⟨i, hi, hai⟩ := mem_convAddrs (c := convCmd s f) ha
    exact hr i hi a hai
  · rw [hcv, if_neg (not_not.mpr hbits)]
    exact hf

theorem mzpc_joins (hw : (Instr.mzpc f).wf = true) (hb : s.tile.GoodS f.abase) (hal : s.tile.sv f.abase.toNat % 256 = 0)
    (hr : s.tile.sv f.abase.toNat + 256 ≤ 2 ^ 21) (hs : s.tile.mSched (cmd s 0x08 f [] 0) = []) :
    execMzpc f s = .next (joins s (cmd s 0x08 f [] 0)) :=
  mIssue_joins hw htrp (consumeS_good _ _ _ _ hb) (mRows_fit hal (List.forall_mem_singleton.mpr hr)) rfl hs

theorem mdrain_joins {d w : Nat} (hw : (Instr.mdrain f).wf = true) (hb : s.tile.GoodS f.abase) (hd : d = (cmd s 0x09 f [] 0).dfmt)
    (hwd : w = if d < 2 then 8 else if d = 2 then 16 else 32)
    (hr : RowsFit (if d < 2 then 128 else 256) (if d < 2 then 128 else if d = 2 then 256 else 32768 + 256) (cmd s 0x09 f [] 0))
    (hf : ∀ a ∈ rowAddrs (cmd s 0x09 f [] 0), tyWidth (bfType (s.tile.bfmt (bankOf a))) = w ∧
      (d = 3 → tyWidth (bfType (s.tile.bfmt (bankOf (a + 32768)))) = w))
    (hs : s.tile.mSched (cmd s 0x09 f [] 0) = []) : execMdrain f s = .next (joins s (cmd s 0x09 f [] 0)) := by
  subst hd hwd
  refine mIssue_joins hw htrp (consumeS_good _ _ _ _ hb) (mRows_of_rowsFit hr) (if_neg ?_) hs
  rw [Bool.not_eq_true]
  refine bankClash_eq_false fun a ha => ?_
  obtain ha | ha := List.mem_append.mp ha
  · exact (hf a ha).1
  · split at ha
    next h3 =>
      obtain ⟨r, hr, rfl⟩ := List.mem_map.mp ha
      exact (hf r hr).2 h3
    next => cases ha

end

theorem exec_matrixForm {s : State} {f : MF} (htrp : s.tile.trp = false) : ∀ e ∈ matrixForms s f, e.1.wf = true → e.2.2 →
    s.tile.mSched e.2.1 = [] → exec e.1 s = .next (joins s e.2.1) := by
  intro e he hw hok hs
  rw [matrixForms] at he
  iterate 10 rw [List.mem_cons] at he
  rw [List.mem_singleton] at he
  obtain rfl | rfl | rfl | rfl | rfl | rfl | rfl | rfl | rfl | rfl | rfl := he
  case _ | _ =>
    obtain ⟨hb, him, hsame, hqg, hr⟩ := hok
    exact mLoad_joins htrp hw hb him hsame hqg hr hs
  case _ | _ | _ =>
    obtain ⟨hb, hr, hf⟩ := hok
    exact mStream_joins htrp hw hb hr hf hs
  · obtain ⟨hb, hcv, hbits, hal, hr, hf⟩ := hok
    exact mmac_joins htrp hw hb hcv hbits hal hr hf hs
  · exact mIssue_joins hw htrp rfl rfl rfl hs
  · exact mIssue_joins hw htrp (consumeS_good _ _ _ _ hok) rfl rfl hs
  · obtain ⟨hb, hal, hr⟩ := hok
    exact mzpc_joins htrp hw hb hal hr hs
  · obtain ⟨hb, hr, hf⟩ := hok
    exact mdrain_joins htrp hw hb rfl rfl hr hf hs
  · obtain ⟨hb, hr⟩ := hok
    exact mIssue_joins hw htrp (consumeS_good _ _ _ _ hb) (mRows_of_rowsFit hr) rfl hs

/-- What a command of any form holds when it joins. -/
theorem matrixForm_command {s : State} {f : MF} : ∀ e ∈ matrixForms s f, e.2.1.start = f.start.toNat ∧ e.2.1.id = s.nextId := by
  intro e he
  rw [matrixForms] at he
  iterate 10 rw [List.mem_cons] at he
  rw [List.mem_singleton] at he
  obtain rfl | rfl | rfl | rfl | rfl | rfl | rfl | rfl | rfl | rfl | rfl := he
  all_goals exact ⟨rfl, rfl⟩

/-! ## Start -/

/-- The granules of parameter register `k` of an 8-bit drain that are checked (R265). -/
def paramGrans (k : Nat) : Nat := if k < 2 then 32 else 17

/-- The parameter registers of a drain (R265). -/
def drainParams (x : Tile) (w : Nat) : List (Reg 32) := (List.range 3).map fun k => x.vec (308 + 3 * w + k)

/-- What a command has latched at its start (R255, R265). -/
def MCmd.latched (c : MCmd) (x : Tile) : MCmd :=
  if c.usesW then { c with image := some (x.w.get .empty c.f.w.toNat) }
  else if c.o = 0x09 ∧ c.dfmt < 2 then { c with params := drainParams x c.f.w.toNat } else c

/-- The first bad granule of a drain's parameters. -/
def paramBad (x : Tile) (w : Nat) : Option (Nat × Gran) :=
  ((drainParams x w).mapIdx fun i p => p.firstBad fun j => i < 2 || decide (j < 17)).findSome? fun o => o

theorem paramBad_eq_none_iff {x : Tile} {w : Nat} :
    paramBad x w = none ↔ ∀ k < 3, ∀ j < paramGrans k, ((x.vec (308 + 3 * w + k)).gran j).bad = false := by
  have hk (k : Nat) (v : Reg 32) : (v.firstBad fun j => decide (k < 2) || decide (j < 17)) = none ↔
      ∀ j < paramGrans k, (v.gran j).bad = false := by
    simp only [firstBad_eq_none_iff, Bool.or_eq_true, decide_eq_true_eq, paramGrans]
    by_cases h : k < 2
    · simp [h]
    · simp only [h, false_or, if_false]
      exact ⟨fun hb j hj => hb j (by omega) hj, fun hb j _ hj => hb j hj⟩
  have hl : paramBad x w = none ↔ ∀ k < 3, ((x.vec (308 + 3 * w + k)).firstBad fun j => decide (k < 2) || decide (j < 17)) = none := by
    simp [paramBad, drainParams, List.findSome?_eq_none_iff, List.mem_mapIdx]
  simp only [hl, hk]

/-- The image of the weight slot is READY, is the one that the command was issued with, and is good (R255). -/
abbrev ImageReady (v : WSlot) (img : Nat) : Prop := v.ready.isSome = true ∧ v.img = img ∧ v.firstBad = none

theorem begin_image {c : MCmd} {x : Tile} (hu : c.usesW = true) (h : ImageReady (x.w.get .empty c.f.w.toNat) c.img) :
    c.begin_ x = ({ c with image := some (x.w.get .empty c.f.w.toNat) }, none) := by
  obtain ⟨hready, himg, hgood⟩ := h
  have hn : ¬((x.w.get .empty c.f.w.toNat).ready.isNone = true ∨ (x.w.get .empty c.f.w.toNat).img ≠ c.img) := by
    simp [himg, Option.isSome_iff_ne_none.mp hready]
  rw [MCmd.begin_, if_pos hu, if_neg hn, hgood]

theorem begin_image_fails {c : MCmd} {x : Tile} (hu : c.usesW = true) (h : ¬ImageReady (x.w.get .empty c.f.w.toNat) c.img) :
    ∃ q, c.begin_ x = (c, some q) := by
  rw [MCmd.begin_, if_pos hu]
  dsimp only
  split
  · exact ⟨_, rfl⟩
  next hn =>
    push Not at hn
    split
    · exact ⟨_, rfl⟩
    next hgood => exact absurd ⟨Option.isSome_iff_ne_none.mpr fun h0 => hn.1 (h0 ▸ rfl), hn.2, hgood⟩ h

theorem begin_drain {c : MCmd} {x : Tile} (hu : ¬c.usesW = true) (hd : c.o = 0x09 ∧ c.dfmt < 2) :
    c.begin_ x = match paramBad x c.f.w.toNat with
      | some b => (c, some (c.bad 0 b))
      | none => ({ c with params := drainParams x c.f.w.toNat }, none) := by
  rw [MCmd.begin_, if_neg hu, if_pos hd]
  rfl

theorem begin_other {c : MCmd} {x : Tile} (hu : ¬c.usesW = true) (hd : ¬(c.o = 0x09 ∧ c.dfmt < 2)) : c.begin_ x = (c, none) := by
  rw [MCmd.begin_, if_neg hu, if_neg hd]

theorem begin_latches {s : State} {c : MCmd} (h : Latches s c) : c.begin_ s.tile = (c.latched s.tile, none) := by
  unfold Latches at h
  unfold MCmd.latched
  by_cases hu : c.usesW = true
  · rw [if_pos hu] at h ⊢
    exact begin_image hu h
  · rw [if_neg hu] at h ⊢
    by_cases hd : c.o = 0x09 ∧ c.dfmt < 2
    · rw [begin_drain hu hd, if_pos hd, paramBad_eq_none_iff.mpr (h hd.1 hd.2)]
    · rw [begin_other hu hd, if_neg hd]

theorem begin_not_latches {s : State} {c : MCmd} (h : ¬Latches s c) : ∃ q, c.begin_ s.tile = (c, some q) := by
  unfold Latches at h
  by_cases hu : c.usesW = true
  · rw [if_pos hu] at h
    exact begin_image_fails hu h
  · rw [if_neg hu] at h
    push Not at h
    obtain ⟨ho, hf, k, hk, j, hj, hbad⟩ := h
    rw [begin_drain hu ⟨ho, hf⟩]
    cases hp : paramBad s.tile c.f.w.toNat with
    | some b => exact ⟨_, rfl⟩
    | none => exact absurd (paramBad_eq_none_iff.mp hp k hk j hj) hbad

/-! ## The queue after the start -/

theorem dropCmd_frame (x : Tile) (c : MCmd) (e : Nat) :
    (x.dropCmd c e).s = x.s ∧ (x.dropCmd c e).v = x.v ∧ (x.dropCmd c e).z = x.z ∧ (x.dropCmd c e).pad = x.pad ∧
      (x.dropCmd c e).dueF = x.dueF ∧ (x.dropCmd c e).mq = x.mq.filter fun d => d.id != c.id := by
  unfold Tile.dropCmd
  dsimp only
  split <;> exact ⟨rfl, rfl, rfl, rfl, rfl, rfl⟩

/-- A start touches neither registers nor accumulators nor the scratchpad. -/
theorem begun_frame (x : Tile) (c : MCmd) : ((x.enqueue c).begin_ c).s = x.s ∧ ((x.enqueue c).begin_ c).v = x.v ∧
    ((x.enqueue c).begin_ c).z = x.z ∧ ((x.enqueue c).begin_ c).pad = x.pad := by
  unfold Tile.begin_
  split
  · obtain ⟨hs, hv, hz, hp, -, -⟩ := dropCmd_frame (x.enqueue c) c (x.enqueue c).mclk
    exact ⟨hs, hv, hz, hp⟩
  · exact ⟨rfl, rfl, rfl, rfl⟩

theorem begin_enqueue (x : Tile) (c : MCmd) : c.begin_ (x.enqueue c) = c.begin_ x := rfl

theorem mq_begun_latches {s : State} {c : MCmd} (h : Latches s c) :
    ((s.tile.enqueue c).begin_ c).mq = (s.tile.mq ++ [c]).map (fun a => if a.id = c.id then c.latched s.tile else a) ∧
      ((s.tile.enqueue c).begin_ c).dueF = s.tile.dueF := by
  rw [Tile.begin_, begin_enqueue, begin_latches h]
  exact ⟨rfl, rfl⟩

theorem mq_begun_not_latches {s : State} {c : MCmd} (h : ¬Latches s c) :
    ((s.tile.enqueue c).begin_ c).mq = (s.tile.mq ++ [c]).filter (fun d => d.id != c.id) ∧
      ∃ q, ((s.tile.enqueue c).begin_ c).dueF = s.tile.dueF ++ [q] := by
  obtain ⟨q, hq⟩ := begin_not_latches h
  obtain ⟨-, -, -, -, -, hmq⟩ := dropCmd_frame (s.tile.enqueue c) c (s.tile.enqueue c).mclk
  rw [Tile.begin_, begin_enqueue, hq]
  exact ⟨hmq, q, rfl⟩

/-- With a number of its own only the command itself is replaced, or dropped. -/
theorem map_replace_last {l : List MCmd} {c d : MCmd} (h : ∀ m ∈ l, m.id ≠ c.id) :
    (l ++ [c]).map (fun a => if a.id = c.id then d else a) = l ++ [d] := by
  rw [List.map_append, List.map_congr_left fun a ha => if_neg (h a ha), List.map_id', List.map_singleton, if_pos rfl]

theorem filter_drop_last {l : List MCmd} {c : MCmd} (h : ∀ m ∈ l, m.id ≠ c.id) : (l ++ [c]).filter (fun d => d.id != c.id) = l := by
  rw [List.filter_append, List.filter_eq_self.mpr fun a ha => bne_iff_ne.mpr (h a ha)]
  simp

theorem latched_frame (c : MCmd) (x : Tile) : (c.latched x).id = c.id ∧ (c.latched x).op = c.op ∧ (c.latched x).f = c.f := by
  unfold MCmd.latched
  split
  · exact ⟨rfl, rfl, rfl⟩
  · split <;> exact ⟨rfl, rfl, rfl⟩

theorem latched_image {c : MCmd} {x : Tile} (h : (c.latched x).usesW = true) :
    (c.latched x).image = some (x.w.get .empty (c.latched x).f.w.toNat) := by
  obtain ⟨-, hop, hf⟩ := latched_frame c x
  have hu : c.usesW = true := by
    rw [MCmd.usesW, MCmd.o, ← hop]
    exact h
  rw [hf, MCmd.latched, if_pos hu]

theorem latched_params {c : MCmd} {x : Tile} (ho : (c.latched x).o = 0x09) (hd : (c.latched x).dfmt < 2) :
    (c.latched x).params = drainParams x (c.latched x).f.w.toNat := by
  obtain ⟨-, hop, hf⟩ := latched_frame c x
  rw [MCmd.o, hop] at ho
  rw [MCmd.dfmt, hf] at hd
  have hu : ¬c.usesW = true := by simp [MCmd.usesW, MCmd.o, ho]
  rw [hf, MCmd.latched, if_neg hu, if_pos ⟨ho, hd⟩]

end Sys2Proof.Machine
end

section
/-! O33: the eleven matrix commands join the queue (R251 to R269). -/

namespace Sys2Proof.Machine

open Sys2Proof.Check Sys2Proof.Claims

theorem joins_later {s : State} {c : MCmd} (h : c.start ≠ 0) : joins s c = queues s c := by
  simp only [joins, if_neg h]
  rfl

theorem tile_joins_now {s : State} {c : MCmd} (h : c.start = 0) :
    (joins s c).tile = { (s.tile.enqueue c).begin_ c with issued := .acted } := by
  rw [joins, tile_note, tile_onTile, if_pos h]
  rfl

/-- Settles O33: a command that nothing stands against joins the queue, and at a start offset of 0 it latches what it uses or leaves again. -/
theorem matrixCommandJoins : Obligations.MatrixCommandJoins := by
  unfold Obligations.MatrixCommandJoins
  intro s f htrp e he hw hok hsched
  obtain ⟨hstart, hid⟩ := matrixForm_command e he
  have hexec := exec_matrixForm htrp e he hw hok hsched
  generalize e.2.1 = c at *
  refine ⟨fun h => ?_, fun h => ?_⟩
  · have hne : c.start ≠ 0 := by rw [hstart]; exact fun h0 => h (BitVec.eq_of_toNat_eq h0)
    rw [hexec, joins_later hne]
  · have hz : c.start = 0 := by rw [hstart, h]; rfl
    obtain ⟨hs, hv, hzz, hp⟩ := begun_frame s.tile c
    refine ⟨joins s c, hexec, ?_⟩
    rw [tile_joins_now hz]
    refine ⟨rfl, hs, hv, hzz, hp, rfl, fun hl => ?_, fun hl => ?_, fun hu => ⟨fun hl => ?_, fun hl => ?_⟩⟩
    · obtain ⟨hmq, hdue⟩ := mq_begun_latches hl
      exact ⟨by simp only [hmq]; simp, hdue⟩
    · exact (mq_begun_not_latches hl).2
    · obtain ⟨hmq, -⟩ := mq_begun_latches hl
      obtain ⟨hlid, hop, hf⟩ := latched_frame c s.tile
      exact ⟨c.latched s.tile, hmq.trans (map_replace_last (hid ▸ hu)), hlid.trans hid, congrArg BitVec.toNat hop, latched_image, latched_params⟩
    · exact (mq_begun_not_latches hl).1.trans (filter_drop_last (hid ▸ hu))

end Sys2Proof.Machine
end

section
/-! SUPPORT. O34: the rows that a matrix command reads and makes, element by element (R104, R258, R263, R265). -/

namespace Sys2Proof.Machine

open Sys2Proof.Check Sys2Proof.Claims

/-! ## Granules and elements of rows -/

theorem gran_ofGrans (l : List Gran) (n j : Nat) (hj : j < n) (hl : j < l.length) : (Reg.ofGrans n l).gran j = l[j] := by
  have hr : ((Reg.ofGrans n l).gran j).r = l[j].r := by
    apply BitVec.eq_of_toNat_eq
    simp only [Reg.gran, Reg.ofGrans, BitVec.toNat_ofNat]
    rw [bits_mod_two_pow _ (by omega), bits_packNat]
    simpa [hl] using l[j].r.isLt
  have hd : ((Reg.ofGrans n l).gran j).d = l[j].d := by rw [gran_ofGrans_d l n j hj, List.getD_eq_getElem _ _ hl]
  exact congr (congrArg Gran.mk hd) hr

/-- Two bank rows side by side are one accumulator row (R267). -/
theorem gran_joined (a b : Reg 32) : ∀ j < 32, (Reg.ofGrans 64 (a.grans ++ b.grans)).gran j = a.gran j ∧
    (Reg.ofGrans 64 (a.grans ++ b.grans)).gran (32 + j) = b.gran j := by
  intro j hj
  have hla : a.grans.length = 32 := by simp [Reg.grans]
  have hlb : b.grans.length = 32 := by simp [Reg.grans]
  have hlen : (a.grans ++ b.grans).length = 64 := by simp [hla, hlb]
  constructor
  · rw [gran_ofGrans _ _ _ (by omega) (by omega), List.getElem_append_left (by omega)]
    simp [Reg.grans]
  · rw [gran_ofGrans _ _ _ (by omega) (by omega), List.getElem_append_right (by omega)]
    simp [Reg.grans]

theorem mapIdx_map_range {α β : Type} (n : Nat) (g : Nat → α) (h : Nat → α → β) :
    ((List.range n).map g).mapIdx h = (List.range n).map fun k => h k (g k) := by
  apply List.ext_getElem <;> simp

theorem getD_map_range {α : Type} (n j : Nat) (g : Nat → α) (d : α) (hj : j < n) : ((List.range n).map g).getD j d = g j := by
  simp [List.getD_eq_getElem?_getD, hj]

/-- The first `kl` elements of a row that has as many. -/
theorem take_elems {w kl : Nat} (x : Nat) (h : kl ≤ 2048 / w) : (elems w x).take kl = (List.range kl).map fun k => bits x (w * k) w := by
  rw [elems, ← List.map_take, List.take_range, Nat.min_eq_left h]

/-- Element `k` of an A row as an integer. -/
def aInt (mode : Nat) (sgn : Bool) (row : Reg 32) (k : Nat) : Int :=
  if sgn then Sys2Proof.sext (modeBits mode) (bits row.d.toNat (modeBits mode * k) (modeBits mode))
  else bits row.d.toNat (modeBits mode * k) (modeBits mode)

theorem aInts_eq {mode kl : Nat} (sgn : Bool) (row : Reg 32) (h : kl ≤ 2048 / modeBits mode) :
    aInts mode kl sgn row = (List.range kl).map (aInt mode sgn row) := by
  rw [aInts, take_elems _ h, List.map_map]
  rfl

theorem aFloats_eq {mode kl : Nat} (ctl : Nat) (row : Reg 32) (h : kl ≤ 128) :
    aFloats ctl mode kl row = (List.range kl).map fun k => fin ctl (modeType mode) (bits row.d.toNat (16 * k) 16) := by
  rw [aFloats, take_elems _ h, List.map_map]
  rfl

/-- Element `j` of an accumulator row. -/
abbrev accEl (z : Reg 64) (j : Nat) : Nat := bits z.d.toNat (32 * j) 32

theorem accElems_getD (z : Reg 64) {j : Nat} (hj : j < 128) : (accElems z).getD j 0 = accEl z j := getD_map_range 128 j _ 0 hj

/-! ## The rows of MMA, MMAZ and MMAC (R258) -/

/-- The inner product of an A row and column `j` of an integer image. -/
def dotInt (f : MF) (v : WSlot) (row : Reg 32) (j : Nat) : Int :=
  ((List.range v.kl).map fun k => aInt v.mode f.sgnA row k * v.iEl f.sgnB v.codes k j).sum

/-- The products of an A row and column `j` of a float image, summed from `z` on (R104). -/
def dotFloat (ctl : Nat) (v : WSlot) (row : Reg 32) (z : FVal) (j : Nat) : Res :=
  mmasum ctl z ((List.range v.kl).map fun k =>
    mulV (fin ctl (modeType v.mode) (bits row.d.toNat (16 * k) 16)) (v.fEl ctl v.codes k j))

/-- What element `j` of a row is added to: the old row's, or zero (R258). -/
def startInt (old : Option (Reg 64)) (j : Nat) : Int := match old with | some z => ival 4 (accEl z j) | none => 0
def startFloat (old : Option (Reg 64)) (j : Nat) : FVal := match old with | some z => fval 10 (accEl z j) | none => .fin true 0 0

section
variable {ctl : Nat} {f : MF} {v : WSlot} {row : Reg 32} (hk : v.kl ≤ 2048 / modeBits v.mode) (old : Option (Reg 64))
include hk

theorem mmaRow_int (hm : 2 ≤ v.mode) : mmaRow ctl f v row (old.map accElems) =
    (List.range 128).map fun j => (satOr f.sat 4 (dotInt f v row j + startInt old j), 0) := by
  rw [mmaRow]
  dsimp only
  rw [if_neg (Nat.not_lt.mpr hm), aInts_eq _ _ hk]
  refine List.map_congr_left fun j hj => ?_
  rw [mapIdx_map_range]
  cases old with
  | none => rfl
  | some z =>
    dsimp only [Option.map_some]
    rw [accElems_getD z (List.mem_range.mp hj)]
    rfl

theorem mmaRow_float (hm : v.mode < 2) : mmaRow ctl f v row (old.map accElems) =
    (List.range 128).map fun j => dotFloat ctl v row (startFloat old j) j := by
  have h16 : modeBits v.mode = 16 := if_pos hm
  rw [h16] at hk
  rw [mmaRow]
  dsimp only
  rw [if_pos hm, aFloats_eq _ _ hk]
  refine List.map_congr_left fun j hj => ?_
  rw [mapIdx_map_range]
  cases old with
  | none => rfl
  | some z =>
    dsimp only [Option.map_some]
    rw [accElems_getD z (List.mem_range.mp hj)]
    rfl

end

/-! ## The rows of MZPC and MDRAIN (R263, R265) -/

/-- Zero point `j` of the B row, and that of A (R263). -/
def zeroPointB (f : MF) (zb : Reg 32) (j : Nat) : Int :=
  if f.sgnB then Sys2Proof.sext 8 (bits zb.d.toNat (8 * j) 8) else bits zb.d.toNat (8 * j) 8
def zeroPointA (f : MF) : Int := if f.sgnA then Sys2Proof.sext 8 f.pitch.toNat else f.pitch.toNat

theorem zpcRow_eq (f : MF) (v : WSlot) (zb : Reg 32) (rs : Int) (z : Reg 64) : zpcRow f v zb rs (accElems z) =
    (List.range 128).map fun j => satOr f.sat 4 (ival 4 (accEl z j) + (-(zeroPointB f zb j * rs) - zeroPointA f * columnAt v.colsum j +
      v.kl * zeroPointA f * zeroPointB f zb j)) := by
  rw [zpcRow, accElems, mapIdx_map_range]
  rfl

/-- Multiplier `j` of an 8-bit drain's parameters (R265). -/
def drainMul (params : List (Reg 32)) (j : Nat) : Int :=
  ival 4 (bits (params.getD (j / 64) (.zero 32)).d.toNat (32 * (j % 64)) 32)

/-- The shift of column `j`. -/
def drainShift (params : List (Reg 32)) (j : Nat) : Nat := bits (params.getD 2 (.zero 32)).d.toNat (8 * j) 6

/-- What an 8-bit drain makes of element `z` of column `j`. -/
def drain8 (fmt : Nat) (params : List (Reg 32)) (j z : Nat) : Nat :=
  satT (1 - fmt) ((ival 4 z * drainMul params j + if drainShift params j = 0 then 0 else 2 ^ (drainShift params j - 1)) / 2 ^ drainShift params j +
    Sys2Proof.sext 32 (bits (params.getD 2 (.zero 32)).d.toNat 1024 32))

/-- Element `j` of two registers side by side. -/
theorem getD_params (a b p : Reg 32) {j : Nat} (hj : j < 128) : (([a, b, p].take 2).flatMap fun r => elems 32 r.d.toNat).getD j 0 =
    bits ([a, b, p].getD (j / 64) (.zero 32)).d.toNat (32 * (j % 64)) 32 := by
  change (elems 32 a.d.toNat ++ (elems 32 b.d.toNat ++ [])).getD j 0 = _
  have hlen (r : Reg 32) : (elems 32 r.d.toNat).length = 64 := by simp [elems]
  rw [List.append_nil]
  by_cases h : j < 64
  · rw [List.getD_append _ _ _ _ (by rw [hlen]; exact h), Nat.div_eq_of_lt h, Nat.mod_eq_of_lt h]
    exact getD_map_range 64 j _ 0 h
  · rw [List.getD_append_right _ _ _ _ (by rw [hlen]; omega), hlen, show j / 64 = 1 by omega, show j % 64 = j - 64 by omega]
    exact getD_map_range 64 (j - 64) _ 0 (by omega)

theorem drainRow_8 {fmt ctl : Nat} {params : List (Reg 32)} (z : Reg 64) (hf : fmt < 2) (hp : params.length = 3) :
    drainRow fmt ctl params (accElems z) = ((List.range 128).map fun j => (drain8 fmt params j (accEl z j), 0), 8) := by
  obtain ⟨a, b, p, rfl⟩ := List.length_eq_three.mp hp
  rw [drainRow, if_pos hf]
  dsimp only
  rw [accElems, mapIdx_map_range]
  refine congrArg (·, 8) (List.map_congr_left fun j hj => ?_)
  rw [getD_params a b p (List.mem_range.mp hj), drain8, ← drainShift, ← drainMul]
  split <;> simp

theorem drainRow_16 (ctl : Nat) (params : List (Reg 32)) (z : Reg 64) : drainRow 2 ctl params (accElems z) =
    ((List.range 128).map fun j => cvt (ctl &&& (2 ^ 64 - 2)) 10 8 0 false (accEl z j), 16) := by
  rw [drainRow, if_neg (by decide), if_pos rfl, accElems, List.map_map]
  rfl

theorem drainRow_32 {fmt : Nat} (ctl : Nat) (params : List (Reg 32)) (z : Reg 64) (h8 : ¬fmt < 2) (h16 : ¬fmt = 2) :
    drainRow fmt ctl params (accElems z) = ((List.range 128).map fun j => (accEl z j, 0), 32) := by
  rw [drainRow, if_neg h8, if_neg h16, accElems, List.map_map]
  rfl

/-- Width and elements of a drained row, by drain format (R264, R265). -/
def drainWidth (fmt : Nat) : Nat := if fmt < 2 then 8 else if fmt = 2 then 16 else 32
def drainEl (fmt ctl : Nat) (params : List (Reg 32)) (z : Reg 64) (j : Nat) : Nat :=
  if fmt < 2 then drain8 fmt params j (accEl z j)
  else if fmt = 2 then (cvt (ctl &&& (2 ^ 64 - 2)) 10 8 0 false (accEl z j)).1 else accEl z j

theorem pack_drainRow {fmt ctl : Nat} {params : List (Reg 32)} (z : Reg 64) (hp : fmt < 2 → params.length = 3) :
    packNat (drainRow fmt ctl params (accElems z)).2 ((drainRow fmt ctl params (accElems z)).1.map (·.1)) =
      packNat (drainWidth fmt) ((List.range 128).map (drainEl fmt ctl params z)) := by
  unfold drainWidth drainEl
  by_cases h8 : fmt < 2
  · simp only [drainRow_8 z h8 (hp h8), h8, if_true, List.map_map]
    rfl
  · by_cases h16 : fmt = 2
    · subst h16
      rw [drainRow_16, List.map_map]
      rfl
    · simp only [drainRow_32 ctl params z h8 h16, h8, h16, if_false, List.map_map]
      rfl

end Sys2Proof.Machine
end

section
/-! SUPPORT. O34: what each matrix command writes at the cycle of a row, and what the engine's cycle does with it (R257 to R271). -/

namespace Sys2Proof.Machine

open Sys2Proof.Check Sys2Proof.Claims

/-! ## One equation for each command (R258 to R267) -/

theorem oldBad_clean {c : MCmd} {x : Tile} {i : Nat} (h : Clean (x.acc (c.accRow i))) : c.oldBad x i = none := by
  rw [MCmd.oldBad, firstBad_clean _ _ h, Option.map_none]

theorem oldBad_bad {c : MCmd} {x : Tile} {i : Nat} {b : Nat × Gran} (h : (x.acc (c.accRow i)).firstBad (fun _ => true) = some b) :
    c.oldBad x i = some (c.bad (c.f.zrow0.toNat + i) b) := by
  rw [MCmd.oldBad, h, Option.map_some]

/-- The command adds products to the old row `i`. -/
abbrev MCmd.Adds (c : MCmd) (i : Nat) : Prop := c.o = 0x02 ∨ c.o = 0x04 ∧ c.conv i ≠ .past

/-- The products of row `i`, added to an old row or summed from zero. -/
def MCmd.products (c : MCmd) (v : WSlot) (i : Nat) (old : Option (Reg 64)) : MOut :=
  let r := mmaRow c.fpctl.toNat c.f v (c.src.get (.zero 32) i) (old.map accElems)
  c.rowOut i (Reg.fresh 64 (packNat 32 (r.map (·.1)))) (if v.mode < 2 then r.foldl (fun f a => f ||| a.2) 0 else 0)

theorem products_int {c : MCmd} {v : WSlot} {i : Nat} (hk : v.kl ≤ 2048 / modeBits v.mode) (hm : 2 ≤ v.mode) (old : Option (Reg 64)) :
    c.products v i old = c.rowOut i (Reg.fresh 64 (packNat 32 ((List.range 128).map fun j =>
      satOr c.f.sat 4 (dotInt c.f v (c.src.get (.zero 32) i) j + startInt old j)))) 0 := by
  rw [MCmd.products, mmaRow_int hk old hm, List.map_map, if_neg (Nat.not_lt.mpr hm)]
  rfl

theorem products_float {c : MCmd} {v : WSlot} {i : Nat} (hk : v.kl ≤ 2048 / modeBits v.mode) (hm : v.mode < 2) (old : Option (Reg 64)) :
    let g := fun j => dotFloat c.fpctl.toNat v (c.src.get (.zero 32) i) (startFloat old j) j
    c.products v i old = c.rowOut i (Reg.fresh 64 (packNat 32 ((List.range 128).map fun j => (g j).1)))
      ((List.range 128).foldl (fun f j => f ||| (g j).2) 0) := by
  rw [MCmd.products, mmaRow_float hk old hm, List.map_map, if_pos hm, List.foldl_map]
  rfl

section
variable {c : MCmd} {x : Tile} {i : Nat} (hi : i < c.rows)
include hi

theorem writeAt_mzero (ho : c.o = 0x05) : c.writeAt x (c.s + c.lat + i) = (c, c.rowOut i (.zero 64) 0, none) := by
  simp [MCmd.writeAt, MCmd.isLoad, ho, hi]

theorem writeAt_mzset (ho : c.o = 0x06) : c.writeAt x (c.s + c.lat + i) =
    (c, c.rowOut i (Reg.fresh 64 (packNat 32 (List.replicate 128 c.base.d.toNat))) 0, none) := by
  simp [MCmd.writeAt, MCmd.isLoad, ho, hi]

theorem writeAt_mzld (ho : c.o = 0x0A) : c.writeAt x (c.s + c.lat + i) =
    (c, c.rowOut i (Reg.ofGrans 64 ((c.src.get (.zero 32) i).grans ++ (c.src2.get (.zero 32) i).grans)) 0, none) := by
  simp [MCmd.writeAt, MCmd.isLoad, ho, hi]

section
variable {v : WSlot} (hv : c.image = some v)
include hv

theorem writeAt_mrowsum (ho : c.o = 0x07) : c.writeAt x (c.s + c.lat + i) = (c,
    { MOut.none with rs := some (c.f.zrow0.toNat + i, scalarOf (wrapI 32 (aInts v.mode v.kl c.f.sgnA (c.src.get (.zero 32) i)).sum)) }, none) := by
  simp [MCmd.writeAt, MCmd.isLoad, ho, hi, hv]

theorem writeAt_mzpc (ho : c.o = 0x08) (hold : Clean (x.acc (c.accRow i))) (hrs : Clean (x.rowSum (c.f.zrow0.toNat + i)))
    (hcol : Clean v.colsum) : c.writeAt x (c.s + c.lat + i) =
      (c, c.rowOut i (Reg.fresh 64 (packNat 32 (zpcRow c.f v (c.src.get (.zero 32) 0)
        (Sys2Proof.sext 32 (x.rowSum (c.f.zrow0.toNat + i)).d.toNat) (accElems (x.acc (c.accRow i)))))) 0, none) := by
  simp [MCmd.writeAt, MCmd.isLoad, ho, hi, hv, oldBad_clean hold, firstBad_clean _ _ hrs, firstBad_clean _ _ hcol]

theorem writeAt_product (ho : c.Adds i) (hold : Clean (x.acc (c.accRow i))) :
    c.writeAt x (c.s + c.lat + i) = (c, c.products v i (some (x.acc (c.accRow i))), none) := by
  obtain ho | ⟨ho, hp⟩ := ho
  · simp [MCmd.writeAt, MCmd.products, MCmd.isLoad, ho, hi, hv, oldBad_clean hold]
  · simp [MCmd.writeAt, MCmd.products, MCmd.isLoad, ho, hp, hi, hv, oldBad_clean hold]

theorem writeAt_mmaz (ho : c.o = 0x03) : c.writeAt x (c.s + c.lat + i) = (c, c.products v i none, none) := by
  simp [MCmd.writeAt, MCmd.products, MCmd.isLoad, ho, hi, hv]

/-- A bad old row ends the command (R271). -/
theorem writeAt_bad (ho : c.Adds i ∨ c.o = 0x08) {b : Nat × Gran} (hb : (x.acc (c.accRow i)).firstBad (fun _ => true) = some b) :
    c.writeAt x (c.s + c.lat + i) = (c, .none, some (c.bad (c.f.zrow0.toNat + i) b)) := by
  obtain (ho | ⟨ho, hp⟩) | ho := ho
  · simp [MCmd.writeAt, MCmd.isLoad, ho, hi, hv, oldBad_bad hb]
  · simp [MCmd.writeAt, MCmd.isLoad, ho, hp, hi, hv, oldBad_bad hb]
  · simp [MCmd.writeAt, MCmd.isLoad, ho, hi, hv, oldBad_bad hb]

theorem writeAt_mmac_past (ho : c.o = 0x04) (hp : c.conv i = .past) : c.writeAt x (c.s + c.lat + i) =
    (c, { MOut.none with land := some (c.result [] 0 (BitVec.ofNat 64 (2 ^ stCVO))) }, none) := by
  simp [MCmd.writeAt, MCmd.isLoad, ho, hi, hv, hp]

end

end

/-! ## Draining (R265) -/

/-- What a drain makes of its row `k`: elements and their width, with flags. -/
def MCmd.drainOf (c : MCmd) (x : Tile) (k : Nat) : List Res × Nat := drainRow c.dfmt c.fpctl.toNat c.params (accElems (x.acc (c.accRow k)))

/-- The drain with its row `k` read. -/
def MCmd.drainRead (c : MCmd) (x : Tile) (k : Nat) : MCmd :=
  let o := c.drainOf x k
  { c with src := c.src.set (.zero 32) k (Reg.fresh 32 (packNat o.2 (o.1.map (·.1)) % 2 ^ 2048)),
           src2 := c.src2.set (.zero 32) k (Reg.fresh 32 (packNat o.2 (o.1.map (·.1)) / 2 ^ 2048)),
           fls := c.fls.set 0 k (o.1.foldl (fun f r => f ||| r.2) 0) }

/-- What a drain writes at its row `i`. -/
def MCmd.drainOut (c : MCmd) (i : Nat) : MOut :=
  { MOut.none with
    land := some (c.result [.latch 3 (c.src.get (.zero 32) i) (BitVec.ofNat 256 (2 ^ 256 - 1))] (fpFlags 8 (c.fls.get 0 i)) 0),
    pad := gwCarry (c.addr i / 8) (c.src.get (.zero 32) i) (2 ^ (if c.dfmt < 2 then 128 else 256) - 1) ++
      (if c.dfmt = 3 then gwCarry ((c.addr i + 32768) / 8) (c.src2.get (.zero 32) i) (2 ^ 256 - 1) else []),
    rows := c.drains i }

theorem lat_mdrain {c : MCmd} (ho : c.o = 0x09) : c.lat = 8 := by simp [MCmd.lat, ho]

/-- The command and what it writes at S + 2 + k, when nothing is bad. -/
def MCmd.drainStep (c : MCmd) (k : Nat) : MCmd × MOut × Option DueFault :=
  (c, if 6 ≤ k ∧ k - 6 < c.rows then c.drainOut (k - 6) else .none, none)

theorem drainStep_eq {c : MCmd} (ho : c.o = 0x09) (k : Nat) :
    (if c.s + c.lat ≤ c.s + 2 + k ∧ c.s + 2 + k - (c.s + c.lat) < c.rows then (c, c.drainOut (c.s + 2 + k - (c.s + c.lat)), none)
      else (c, .none, none)) = c.drainStep k := by
  have hi : c.s + 2 + k - (c.s + 8) = k - 6 := by omega
  have hw : c.s + 8 ≤ c.s + 2 + k ↔ 6 ≤ k := by omega
  rw [lat_mdrain ho, hi, MCmd.drainStep]
  simp only [hw]
  split <;> rfl

theorem drainStep_row {c : MCmd} {i : Nat} (hi : i < c.rows) : (c.drainStep (i + 6)).2 = (c.drainOut i, none) := by
  rw [MCmd.drainStep, if_pos (by omega)]
  rfl

section
variable {c : MCmd} {x : Tile} {k : Nat} (ho : c.o = 0x09)
include ho

theorem writeAt_drain_bad (hk : k < c.rows) {b : Nat × Gran} (hb : (x.acc (c.accRow k)).firstBad (fun _ => true) = some b) :
    c.writeAt x (c.s + 2 + k) = (c, .none, some (c.bad (c.f.zrow0.toNat + k) b)) := by
  have hr : c.s + 2 ≤ c.s + 2 + k ∧ c.s + 2 + k < c.s + 2 + c.rows := by omega
  have hi : c.s + 2 + k - c.s - 2 = k := by omega
  unfold MCmd.writeAt
  dsimp only
  rw [if_pos ho, if_pos hr, hi, oldBad_bad hb]

theorem writeAt_drain_reads (hk : k < c.rows) (hold : Clean (x.acc (c.accRow k))) :
    c.writeAt x (c.s + 2 + k) = (c.drainRead x k).drainStep k := by
  have hr : c.s + 2 ≤ c.s + 2 + k ∧ c.s + 2 + k < c.s + 2 + c.rows := by omega
  have hi : c.s + 2 + k - c.s - 2 = k := by omega
  unfold MCmd.writeAt
  dsimp only
  rw [if_pos ho, if_pos hr, hi, oldBad_clean hold]
  exact drainStep_eq (c := c.drainRead x k) ho k

theorem writeAt_drain_done (hk : c.rows ≤ k) : c.writeAt x (c.s + 2 + k) = c.drainStep k := by
  have hr : ¬(c.s + 2 ≤ c.s + 2 + k ∧ c.s + 2 + k < c.s + 2 + c.rows) := by omega
  unfold MCmd.writeAt
  dsimp only
  rw [if_pos ho, if_neg hr]
  exact drainStep_eq ho k

end

/-- The row that a drain reads stands in it, cut into two bank rows. -/
theorem drainRead_row (c : MCmd) (x : Tile) (k : Nat) :
    (c.drainRead x k).src.get (.zero 32) k = Reg.fresh 32 (packNat (c.drainOf x k).2 ((c.drainOf x k).1.map (·.1)) % 2 ^ 2048) ∧
    (c.drainRead x k).src2.get (.zero 32) k = Reg.fresh 32 (packNat (c.drainOf x k).2 ((c.drainOf x k).1.map (·.1)) / 2 ^ 2048) :=
  ⟨SMap.get_set_same _ _ _ _, SMap.get_set_same _ _ _ _⟩

/-- Reading a later row leaves what the drain writes for row `i`. -/
theorem drainOut_drainRead (c : MCmd) (x : Tile) {k i : Nat} (h : i ≠ k) : (c.drainRead x k).drainOut i = c.drainOut i := by
  have hsrc : (c.drainRead x k).src.get (.zero 32) i = c.src.get (.zero 32) i := SMap.get_set_other _ _ _ _ _ h
  have hsrc2 : (c.drainRead x k).src2.get (.zero 32) i = c.src2.get (.zero 32) i := SMap.get_set_other _ _ _ _ _ h
  have hfls : (c.drainRead x k).fls.get 0 i = c.fls.get 0 i := SMap.get_set_other _ _ _ _ _ h
  rw [MCmd.drainOut, hsrc, hsrc2, hfls]
  rfl

theorem writeAt_drain_row {c : MCmd} {x : Tile} {i : Nat} (ho : c.o = 0x09) (hi : i < c.rows)
    (hold : i + 6 < c.rows → Clean (x.acc (c.accRow (i + 6)))) : (c.writeAt x (c.s + c.lat + i)).2 = (c.drainOut i, none) := by
  have he : c.s + c.lat + i = c.s + 2 + (i + 6) := by rw [lat_mdrain ho]; omega
  rw [he]
  by_cases hk : i + 6 < c.rows
  · rw [writeAt_drain_reads ho hk (hold hk), drainStep_row (c := c.drainRead x (i + 6)) hi, drainOut_drainRead c x (by omega)]
  · rw [writeAt_drain_done ho (by omega), drainStep_row hi]

/-! ## The engine's cycle (R257) -/

/-- Of the tile, what the engine's cycle can change but for the queue, the weight slots, pending rows and port reservations. -/
def Tile.engineView (x : Tile) := (x.mclk, x.mxNow, x.pad, x.z, x.rs, x.s, x.v)

theorem loaded_engineView (x : Tile) (c : MCmd) : (c.loaded x).engineView = x.engineView := by
  unfold MCmd.loaded
  dsimp only
  split <;> rfl

/-- All reads of engine cycle `e`, from the tile as it stood (R257). -/
def Tile.readCmd (x : Tile) (now e : Nat) (y : Tile) (c : MCmd) : Tile :=
  let r := c.readAt x now e
  (if r.2.2 then y.raiseBcol else y).stepCmd r.1 e r.2.1
def Tile.readRows (x : Tile) (now e : Nat) : Tile := x.mq.foldl (x.readCmd now e) x

/-- The bank ports that the reads take. -/
def Tile.claimReads (x : Tile) (now e : Nat) : Tile :=
  { x with resv := x.resv ++ x.mq.flatMap fun c => if c.s < e then (c.reads (e - c.s - 1)).map fun r => (now, r / 128, 3) else [] }

/-- All writes of engine cycle `e`, from the tile as it stood. -/
def Tile.writeCmd (x : Tile) (e : Nat) (a : Tile × List MOut) (c : MCmd) : Tile × List MOut :=
  let r := c.writeAt x e
  (a.1.stepCmd r.1 e r.2.2, a.2 ++ [r.2.1])
def Tile.writeRows (x : Tile) (e : Nat) : Tile × List MOut := x.mq.foldl (x.writeCmd e) (x, [])

/-- What a command writes reaches the landing of the cycle, the scratchpad and RS. -/
def Tile.put (x : Tile) (now : Nat) (o : MOut) : Tile :=
  let y := { x with mxNow := x.mxNow ++ o.land.toList, pad := x.pad.writes o.pad, resv := x.resv ++ o.rows.map fun r => (now, r / 128, 2) }
  let y := y.subPend o.rows
  match o.rs with
  | some r => y.setRowSum r.1 r.2
  | none => y

/-- The commands whose last event has come leave the queue. -/
def Tile.endCmds (x : Tile) (e : Nat) : Tile :=
  (x.mq.filter fun c => c.last ≤ e).foldl (fun x c =>
    let x := if c.isLoad then c.loaded x else x
    { x with mq := x.mq.filter fun d => d.id != c.id }) x

theorem endCmds_engineView (x : Tile) (e : Nat) : (x.endCmds e).engineView = x.engineView := by
  refine List.foldlRecOn (motive := fun y => Tile.engineView y = x.engineView) _ _ rfl fun y hy c _ => ?_
  dsimp only
  split
  · exact (loaded_engineView y c).trans hy
  · exact hy

/-- A step of the only command that leaves it as it is leaves the tile as it is. -/
theorem stepCmd_only {x : Tile} {c : MCmd} (h : x.mq = [c]) (e : Nat) : x.stepCmd c e none = x := by
  have hm : (x.mq.map fun d => if d.id = c.id then c else d) = x.mq := by
    rw [h, List.map_singleton, if_pos rfl]
  rw [Tile.stepCmd, hm]

/-- The tile after the reads of its queue and the steps of its commands, with what they write. -/
def Tile.matrixWrites (x : Tile) (now : Nat) : Tile × List MOut :=
  ((({ x with mclk := x.mclk + 1 } : Tile).readRows now (x.mclk + 1)).claimReads now (x.mclk + 1)).writeRows (x.mclk + 1)

theorem matrixStep_eq (x : Tile) (now : Nat) :
    x.matrixStep now = ((x.matrixWrites now).2.foldl (fun y o => y.put now o) (x.matrixWrites now).1).endCmds (x.mclk + 1) := rfl

theorem readRows_only {x : Tile} {now e : Nat} {c : MCmd} (hq : x.mq = [c]) (hr : c.readAt x now e = (c, none, false)) :
    x.readRows now e = x := by
  rw [Tile.readRows, hq, List.foldl_cons, List.foldl_nil, Tile.readCmd, hr]
  exact stepCmd_only hq e

theorem writeRows_only {x : Tile} {e : Nat} {c : MCmd} {o : MOut} (hq : x.mq = [c]) (hw : c.writeAt x e = (c, o, none)) :
    x.writeRows e = (x, [o]) := by
  rw [Tile.writeRows, hq, List.foldl_cons, List.foldl_nil, Tile.writeCmd, hw, stepCmd_only hq]
  rfl

/-- A command alone in the queue, which reads without a fault and without a change of its own, gives the cycle its writes. -/
theorem matrixWrites_only {x : Tile} {now : Nat} {c : MCmd} {o : MOut} (hq : x.mq = [c])
    (hr : c.readAt { x with mclk := x.mclk + 1 } now (x.mclk + 1) = (c, none, false))
    (hw : ∀ y : Tile, y.z = x.z → y.rs = x.rs → c.writeAt y (x.mclk + 1) = (c, o, none)) :
    ∃ r, x.matrixWrites now = ({ x with mclk := x.mclk + 1, resv := r }, [o]) := by
  rw [Tile.matrixWrites, readRows_only (x := { x with mclk := x.mclk + 1 }) hq hr]
  exact ⟨_, writeRows_only hq (hw _ rfl rfl)⟩

/-- Results land later in the cycle, and row sums and the scratchpad change at once. -/
theorem put_engineView (x : Tile) (now : Nat) (o : MOut) : (x.put now o).engineView =
    (x.mclk, x.mxNow ++ o.land.toList, x.pad.writes o.pad, x.z, o.rs.elim x.rs fun r => x.rs.set (Reg.zero 1) r.1 r.2, x.s, x.v) := by
  unfold Tile.put
  dsimp only
  split
  next h =>
    rw [h]
    rfl
  next h =>
    rw [h]
    rfl

theorem matrixStep_engineView {x : Tile} {now : Nat} {c : MCmd} {o : MOut} (hq : x.mq = [c])
    (hr : c.readAt { x with mclk := x.mclk + 1 } now (x.mclk + 1) = (c, none, false))
    (hw : ∀ y : Tile, y.z = x.z → y.rs = x.rs → c.writeAt y (x.mclk + 1) = (c, o, none)) : (x.matrixStep now).engineView =
      (x.mclk + 1, x.mxNow ++ o.land.toList, x.pad.writes o.pad, x.z, o.rs.elim x.rs fun r => x.rs.set (Reg.zero 1) r.1 r.2, x.s, x.v) := by
  obtain ⟨r, hwrites⟩ := matrixWrites_only hq hr hw
  rw [matrixStep_eq, hwrites, endCmds_engineView]
  exact put_engineView _ _ _

end Sys2Proof.Machine
end

section
/-! O34: what a matrix command writes to its rows (R257 to R271). -/

namespace Sys2Proof.Machine

open Sys2Proof.Check Sys2Proof.Claims

/-- Settles O34: each command has its own equation at the cycle of a row, and a command alone in the queue gives the cycle its writes. -/
theorem matrixRowsWritten : Obligations.MatrixRowsWritten := by
  unfold Obligations.MatrixRowsWritten
  refine ⟨fun x c i hi => ⟨writeAt_mzero hi, fun ho => ?_, fun ho => ?_, fun v hv hk =>
    ⟨fun hm => ⟨fun ho hold => ?_, fun ho => ?_, fun ho => ?_⟩, fun hm => ⟨fun ho hold => ?_, fun ho => ?_⟩, fun ho hp => ?_,
      fun ho hold hrs hcol => ?_, fun ho b hb => ?_⟩,
    fun ho => ⟨fun hold hp => ?_, fun b hb => ?_, fun hold => ?_⟩⟩, fun x now c o hq hr hw => ?_⟩
  · exact writeAt_mzset hi ho
  · exact ⟨_, writeAt_mzld hi ho, gran_joined _ _⟩
  · rw [writeAt_product hi hv ho hold, products_int hk hm]
    rfl
  · rw [writeAt_mmaz hi hv ho, products_int hk hm]
    simp only [startInt, Int.add_zero]
    rfl
  · rw [writeAt_mrowsum hi hv ho, aInts_eq _ _ hk]
    rfl
  · rw [writeAt_product hi hv ho hold, products_float hk hm]
    rfl
  · rw [writeAt_mmaz hi hv ho, products_float hk hm]
    rfl
  · exact writeAt_mmac_past hi hv ho hp
  · rw [writeAt_mzpc hi hv ho hold hrs hcol, zpcRow_eq]
    rfl
  · exact writeAt_bad hi hv ho hb
  · have hrow := drainRead_row c x i
    rw [MCmd.drainOf, pack_drainRow _ hp] at hrow
    rw [writeAt_drain_reads ho hi hold]
    exact ⟨rfl, hrow⟩
  · rw [writeAt_drain_bad ho hi hb]
  · rw [writeAt_drain_row ho hi hold]
    exact ⟨rfl, rfl, rfl, rfl, rfl⟩
  · have hview := matrixStep_engineView hq hr hw
    simp only [Tile.engineView, Prod.mk.injEq] at hview
    obtain ⟨hclk, hnow, hpad, hz, hrs, hs, hv⟩ := hview
    refine ⟨hclk, hnow, hpad, hz, fun r ho => ?_, fun n hn => ?_, hs, hv⟩
    · rw [Tile.rowSum, hrs, ho]
      exact SMap.get_set_same _ _ _ _
    · rw [Tile.rowSum, hrs, Tile.rowSum]
      cases ho : o.rs with
      | none => rfl
      | some r => exact SMap.get_set_other _ _ _ _ _ fun h => hn r.2 (ho.trans (by rw [h]))

end Sys2Proof.Machine
end

section
/-! SUPPORT. O42, O43: what keeps the registers, the scratchpad and memory, and a result of the C slot that waits for its unit. -/

namespace Sys2Proof.Claims

open Sys2Proof.Machine

/-- The registers and the scratchpad of a tile, in the order in which `Keeps` lists them. -/
def files (x : Tile) : SMap (Reg 1) × SMap (Reg 4) × SMap (Reg 32) × SMap Word × SMap (Reg 64) × Store := (x.s, x.p, x.v, x.sr, x.z, x.pad)

section
variable {s t u : State}

theorem keeps_iff : Keeps s t ↔ files t.tile = files s.tile ∧ t.mem = s.mem := by
  simp only [Keeps, files, Prod.mk.injEq, and_assoc]

theorem Keeps.refl (s : State) : Keeps s s := keeps_iff.mpr ⟨rfl, rfl⟩

theorem Keeps.trans (h : Keeps s t) (k : Keeps t u) : Keeps s u := by
  obtain ⟨hf, hm⟩ := keeps_iff.mp h
  obtain ⟨kf, km⟩ := keeps_iff.mp k
  exact keeps_iff.mpr ⟨kf.trans hf, km.trans hm⟩

theorem Keeps.onTile {f : Tile → Tile} (h : files (f s.tile) = files s.tile) : Keeps s (s.onTile f) :=
  keeps_iff.mpr ⟨by rw [tile_onTile, h], rfl⟩

theorem Keeps.schedule (s : State) (n o : Nat) (ev : Ev) : Keeps s (s.schedule n o ev) := keeps_iff.mpr ⟨rfl, rfl⟩

theorem Keeps.note (h : Keeps s t) (n : Issued) : Keeps s (t.note n) := h.trans (.onTile rfl)

end

end Sys2Proof.Claims

namespace Sys2Proof.Machine

open Sys2Proof.Claims

/-- An instruction that takes a number, puts its scalar in flight under it and sends its unit the request has asked the unit. -/
theorem landWaiting_asks (s : State) (d : BitVec 6) (lat at_ ord : Nat) (ev : Ev) :
    Asks s (((s.newId.2.landWaiting 6 lat [.scalar d (.zero 1)] s.nextId).schedule at_ ord ev).note .acted) d lat at_ ev := by
  have hkeeps : Keeps s.newId.2 (s.newId.2.landWaiting 6 lat [.scalar d (.zero 1)] s.nextId) := .onTile rfl
  refine ⟨?_, ⟨{ s.tile.landing 6 lat [.scalar d (.zero 1)] with id := s.nextId, waiting := true }, ?_, rfl, rfl, rfl, rfl, rfl⟩,
    ⟨_, mem_agenda_schedule _ at_ ord ev, rfl, rfl⟩, (hkeeps.trans (.schedule _ at_ ord ev)).note .acted⟩
  · rw [tile_note]
  · rw [tile_note, tile_schedule, tile_landWaiting]
    rfl

theorem unitScalar_asks (s : State) (d : BitVec 6) (lat ord : Nat) (ev : Nat → Ev) :
    Asks s ((s.unitScalar d lat ord ev).note .acted) d lat (s.now + lat) (ev s.nextId) :=
  landWaiting_asks s d lat (s.now + lat) ord (ev s.nextId)

/-- An instruction that only sends its unit a request has told it. -/
theorem schedule_tells (s : State) (at_ ord : Nat) (ev : Ev) : Tells s ((s.schedule at_ ord ev).note .acted) at_ ev := by
  refine ⟨?_, ?_, ⟨_, mem_agenda_schedule s at_ ord ev, rfl, rfl⟩, (Keeps.schedule s at_ ord ev).note .acted⟩
  · rw [tile_note]
  · rw [tile_note, tile_schedule]

end Sys2Proof.Machine
end

section
/-! O43: TBIND, TUNBIND, TFLUSH, WCREATE and WFREE. -/

namespace Sys2Proof.Machine

open Sys2Proof.Check Sys2Proof.Claims

/-- The register of a record is the low nine bits of imm20 (R304, R326). -/
theorem recordReg_eq (f : CF) : bits f.imm20.toNat 0 9 = f.imm20.toNat % 512 := (bits_eq _ 0 9).trans (by norm_num)

/-- A binding's id is the low sixteen bits of its scalar (R299, R305). -/
theorem bindingId_eq (n : Nat) : bits n 0 16 = n % 2 ^ 16 := (bits_eq n 0 16).trans (by rw [pow_zero, Nat.div_one])

theorem recordBad_good {x : Tile} {v words : Nat} (h : ∀ j < words, (x.recordGran v j).bad = false) : x.recordBad v words = [] := by
  have hfind : ((List.range words).find? fun j => (x.recordGran v j).bad) = none :=
    List.find?_eq_none.mpr fun j hj => by rw [h j (List.mem_range.mp hj)]; exact Bool.false_ne_true
  rw [Tile.recordBad, hfind]

section
variable {s : State} {f : CF} (hc : s.tile.cCond f = true)
include hc

theorem exec_tbind_acts (hw : (Instr.tbind f).wf = true) (hg : ∀ j < 12, (s.tile.recordGran (f.imm20.toNat % 512) j).bad = false)
    (he : tensorErrs (s.tile.tensorRecord (f.imm20.toNat % 512)).toNat = []) : exec (.tbind f) s =
      .next ((s.unitScalar f.d 32 ordBind fun id => .tbind s.cur id (s.tile.tensorRecord (f.imm20.toNat % 512)) s.tile.pdom).note .acted) := by
  change execTbind f s = _
  rw [execTbind, recordReg_eq]
  exact issueSlot_wf s _ _ _ _ hw hc (by rw [recordBad_good hg, he]; rfl)

theorem exec_wcreate_acts (hw : (Instr.wcreate f).wf = true) (hv : s.tile.sv? = true)
    (hg : ∀ j < 4, (s.tile.recordGran (f.imm20.toNat % 512) j).bad = false)
    (he : windowErrs (s.tile.windowDesc (f.imm20.toNat % 512)).toNat = []) : exec (.wcreate f) s =
      .next ((s.unitScalar f.d 32 ordBind fun id => .wcreate s.cur id (s.tile.windowDesc (f.imm20.toNat % 512)) s.tile.pdom).note .acted) := by
  change execWcreate f s = _
  rw [execWcreate, recordReg_eq]
  exact issueSlot_wf_dyn s _ _ _ _ _ hw (privErr_supervisor 6 hv) hc (by rw [recordBad_good hg, he]; rfl)

section
variable (ha : s.tile.GoodS f.a)
include ha

theorem exec_tunbind_acts (hw : (Instr.tunbind f).wf = true) : exec (.tunbind f) s =
    .next ((s.unitScalar f.d 32 ordBind fun id => .tunbind s.cur id (s.tile.sv f.a.toNat % 2 ^ 16)).note .acted) := by
  rw [← bindingId_eq]
  exact issueSlot_wf s _ _ _ _ hw hc (consumeS_good _ _ _ _ ha)

theorem exec_tflush_acts (hw : (Instr.tflush f).wf = true) : exec (.tflush f) s =
    .next ((s.schedule (s.now + 32) ordBind (.tflush (s.tile.sv f.a.toNat % 2 ^ 16) (tflushMode f))).note .acted) := by
  rw [← bindingId_eq]
  exact issueSlot_wf s _ _ _ _ hw hc (consumeS_good _ _ _ _ ha)

theorem exec_wfree_acts (hw : (Instr.wfree f).wf = true) : exec (.wfree f) s =
    .next (((s.newId.2.landWaiting 6 (2 ^ 64) [.scalar f.d (.zero 1)] s.nextId).schedule (s.now + 8) (ordPort s.rank)
      (.wclose s.cur s.nextId (twWin (s.tile.sv f.a.toNat)) s.tile.pdom s.tile.sv?)).note .acted) :=
  issueSlot_wf s _ _ _ _ hw hc (consumeS_good _ _ _ _ ha)

end

end

/-- Settles O43: nothing stands against the instruction, and what it does is one request, with or without a scalar that waits for its value. -/
theorem bindingInstructions : Obligations.BindingInstructions := by
  unfold Obligations.BindingInstructions
  intro s f hc v
  exact ⟨fun hw hg he => ⟨_, exec_tbind_acts hc hw hg he, unitScalar_asks ..⟩,
    fun hw hadm hg he => ⟨_, exec_wcreate_acts hc hw hadm hg he, unitScalar_asks ..⟩,
    fun ha => ⟨fun hw => ⟨_, exec_tunbind_acts hc ha hw, unitScalar_asks ..⟩, fun hw => ⟨_, exec_tflush_acts hc ha hw, schedule_tells ..⟩,
      fun hw => ⟨_, exec_wfree_acts hc ha hw, landWaiting_asks ..⟩⟩⟩

end Sys2Proof.Machine
end

section
/-! SUPPORT. O42: reading an engine after a write, what requesting translations ahead leaves, and an engine armed for a later cycle
(R283, R293). -/

namespace Sys2Proof.Machine

open Sys2Proof.Claims

/-! ## The two engines of a tile -/

section
variable (x : Tile) (e : Bool) (g : CopyEngine) (f : CopyEngine → CopyEngine)

@[simp] theorem engine_setEngine_same : (x.setEngine e g).engine e = g := SMap.get_set_same _ _ _ _

@[simp] theorem engine_setEngine_other : (x.setEngine e g).engine (!e) = x.engine (!e) :=
  SMap.get_set_other _ _ _ _ _ (by cases e <;> decide)

@[simp] theorem engine_modEngine_same : (x.modEngine e f).engine e = f (x.engine e) := engine_setEngine_same x e _

@[simp] theorem engine_modEngine_other : (x.modEngine e f).engine (!e) = x.engine (!e) := engine_setEngine_other x e _

@[simp] theorem files_setEngine : files (x.setEngine e g) = files x := rfl

end

/-- An instruction that changes one engine and nothing else. -/
theorem onEngine_note (s : State) (e : Bool) (f : CopyEngine → CopyEngine) :
    let t := (s.onTile fun x => x.modEngine e f).note .acted
    t.tile.issued = .acted ∧ Keeps s t ∧ t.tile.engine (!e) = s.tile.engine (!e) ∧ t.tile.engine e = f (s.tile.engine e) := by
  have htile : ((s.onTile fun x => x.modEngine e f).note .acted).tile = { s.tile.modEngine e f with issued := .acted } := by
    rw [tile_note, tile_onTile]
  dsimp only
  rw [htile]
  exact ⟨rfl, (Keeps.onTile (files_setEngine _ _ _)).note .acted, engine_modEngine_other _ _ _, engine_modEngine_same _ _ _⟩

/-! ## Requesting translations ahead (R283) -/

theorem runWalks_eq (s : State) : ∃ a n, s.runWalks = { s with agenda := a, free := n } :=
  List.foldlRecOn _ _ (motive := fun u : State => ∃ a n, u = { s with agenda := a, free := n }) ⟨s.agenda, s.free, rfl⟩ fun u hu w _ => by
    obtain ⟨a, n, rfl⟩ := hu
    dsimp only
    split
    · exact ⟨a, n, rfl⟩
    · exact ⟨_, n + 1, rfl⟩

/-- A walk that starts changes the calendar, the walks in flight and the counter of free values. -/
theorem startWalkFor_eq (s : State) (t : Tid) (pdom : BitVec 16) (va req : Nat) :
    ∃ w a n, s.startWalkFor t pdom va req = { s with walks := w, agenda := a, free := n } := by
  unfold State.startWalkFor
  extract_lets w
  generalize (if req = 16 then s.walking t pdom va else s.walkingFor t pdom va) = known
  cases known with
  | true => exact ⟨s.walks, s.agenda, s.free, rfl⟩
  | false =>
    obtain ⟨a, n, h⟩ := runWalks_eq { s with walks := s.walks ++ [w] }
    exact ⟨s.walks ++ [w], a, n, h⟩

/-- The nest of an engine: its state, the cycle of its next emission, the bundle that started it, its configuration and its next copy. -/
def CopyEngine.nestView (g : CopyEngine) : CState × Nat × Word × CopyCfg × Nat := (g.st, g.next, g.pc, g.cfg, g.cn)

/-- From `s` to `u` translations have been requested for engine `e`, whose nest is as before. -/
structure Requests (e : Bool) (s u : State) : Prop where
  keeps : Keeps s u
  cur : u.cur = s.cur
  mclk : u.tile.mclk = s.tile.mclk
  nest : (u.tile.engine e).nestView = (s.tile.engine e).nestView

namespace Requests

variable {e : Bool} {s u v : State}

theorem refl (e : Bool) (s : State) : Requests e s s := ⟨.refl s, rfl, rfl, rfl⟩

theorem trans (h : Requests e s u) (k : Requests e u v) : Requests e s v :=
  ⟨h.keeps.trans k.keeps, k.cur.trans h.cur, k.mclk.trans h.mclk, k.nest.trans h.nest⟩

theorem startWalkFor (e : Bool) (s : State) (t : Tid) (pdom : BitVec 16) (va req : Nat) : Requests e s (s.startWalkFor t pdom va req) := by
  obtain ⟨w, a, n, h⟩ := startWalkFor_eq s t pdom va req
  rw [h]
  exact ⟨keeps_iff.mpr ⟨rfl, rfl⟩, rfl, rfl, rfl⟩

theorem modEngine {t : Tid} {f : CopyEngine → CopyEngine} (ht : t = s.cur) (hf : (f (s.tile.engine e)).nestView = (s.tile.engine e).nestView) :
    Requests e s (s.modTile t fun x => x.modEngine e f) := by
  subst ht
  have htile : (s.onTile fun x => x.modEngine e f).tile = s.tile.modEngine e f := tile_onTile s _
  refine ⟨.onTile (files_setEngine _ _ _), rfl, ?_, ?_⟩
  · change (s.onTile fun x => x.modEngine e f).tile.mclk = _
    rw [htile]
    rfl
  · change ((s.onTile fun x => x.modEngine e f).tile.engine e).nestView = _
    rw [htile, engine_modEngine_same, hf]

end Requests

theorem copyAhead_requests {e : Bool} {t : Tid} (n : Nat) {s : State} (ht : t = s.cur) : Requests e s (s.copyAhead t e n) := by
  induction n generalizing s with
  | zero => exact .refl e s
  | succ n ih =>
    unfold State.copyAhead
    extract_lets x g asked
    have hasked : Requests e s asked := List.foldlRecOn _ _ (motive := Requests e s) (.refl e s) fun u hu a _ => by
      split
      · exact hu.trans (.startWalkFor e u _ _ _ _)
      · split
        · exact hu.trans (.modEngine (ht.trans hu.cur.symm) rfl)
        · exact hu
    have htile : t = asked.cur := ht.trans hasked.cur.symm
    split
    · exact (hasked.trans (.modEngine htile rfl)).trans (ih htile)
    · exact .refl e s

/-! ## Arming an engine for a later cycle (R293) -/

/-- From `s` to `u` engine `e` has been armed for `start` cycles later, with a configuration and the number of its next copy. -/
def Arms (e : Bool) (start : Nat) (cfg : CopyCfg) (cn : Nat) (s u : State) : Prop :=
  Keeps s u ∧ (u.tile.engine e).nestView = (.armed, s.tile.mclk + start, s.tile.pc, cfg, cn)

/-- An engine whose next emission lies ahead does not emit. -/
theorem copyDue_ahead {x : Tile} {e : Bool} (h : x.mclk < (x.engine e).next) : x.copyDue e = false := by
  rw [Tile.copyDue, decide_eq_false (Nat.not_le.mpr h), Bool.and_false]

theorem armCopy_arms (s : State) (e : Bool) {start : Nat} (g : CopyEngine) (h : start ≠ 0) :
    Arms e start g.cfg g.cn s (s.armCopy e start g) := by
  unfold State.armCopy
  extract_lets x armed asked
  have hset : (s.onTile fun x => x.setEngine e armed).tile = s.tile.setEngine e armed := tile_onTile s _
  have hreq : Requests e (s.onTile fun x => x.setEngine e armed) asked := copyAhead_requests 257 rfl
  have hnest : (asked.tile.engine e).nestView = (.armed, s.tile.mclk + start, s.tile.pc, g.cfg, g.cn) := by
    rw [hreq.nest, hset, engine_setEngine_same]
    rfl
  have hclock : asked.tile.mclk = s.tile.mclk := hreq.mclk.trans (by rw [hset]; rfl)
  have hahead : asked.tile.mclk < (asked.tile.engine e).next := by
    have hnext : (asked.tile.engine e).next = s.tile.mclk + start := congrArg (·.2.1) hnest
    rw [hnext, hclock]
    exact Nat.lt_add_of_pos_right (Nat.pos_of_ne_zero h)
  rw [copyDue_ahead hahead, if_neg Bool.false_ne_true]
  exact ⟨(Keeps.onTile (files_setEngine _ _ _)).trans hreq.keeps, hnest⟩

theorem freshCopy_arms (s : State) (e : Bool) {start : Nat} (c : CopyCfg) (h : start ≠ 0) : Arms e start c 0 s (s.freshCopy e start c) :=
  armCopy_arms s.newId.2 e _ h

theorem Arms.note {e : Bool} {start cn : Nat} {cfg : CopyCfg} {s u : State} (h : Arms e start cfg cn s u) (n : Issued) :
    Arms e start cfg cn s (u.note n) :=
  ⟨h.1.note n, by rw [tile_note]; exact h.2⟩

end Sys2Proof.Machine
end

section
/-! O42: CLOOP, CBASE, CGO, CSTOP and CQUERY. -/

namespace Sys2Proof.Machine

open Sys2Proof.Check Sys2Proof.Claims

/-- The three sources of a C-slot instruction, all good. -/
theorem threeSources_good {x : Tile} {f : CF} (ha : x.GoodS f.a) (hb : x.GoodS f.b) (hc : x.GoodS f.c) :
    x.consumeS 6 0 f.a.toNat ++ x.consumeS 6 1 f.b.toNat ++ x.consumeS 6 2 f.c.toNat = [] := by
  rw [consumeS_good _ _ _ _ ha, consumeS_good _ _ _ _ hb, consumeS_good _ _ _ _ hc, List.append_nil, List.append_nil]

/-! ## CGO -/

/-- The refusal of a `CGO` (R293). -/
def cgoRefusal (x : Tile) (e : Bool) : Flt := x.classS 6 0xC (copyInfo e 5 0)

/-- What stands against a fresh nest: the engine's own, armed or running. -/
def nestFaults (x : Tile) (e : Bool) : List Flt := if (x.engine e).st == .armed || (x.engine e).st == .running then [cgoRefusal x e] else []

section
variable {x : Tile} {e : Bool}

theorem nestFaults_free (h : (x.engine e).st = .idle ∨ (x.engine e).st = .stopped) : nestFaults x e = [] := by
  rw [nestFaults]
  obtain h | h := h <;> rw [h] <;> rfl

theorem nestFaults_busy (h : (x.engine e).st = .armed ∨ (x.engine e).st = .running) : nestFaults x e = [cgoRefusal x e] := by
  rw [nestFaults]
  obtain h | h := h <;> rw [h] <;> rfl

end

section
variable {s : State} {f : CF}

theorem exec_cgo_res (hr : cgoRes f = true) : exec (.cgo f) s =
    s.issueSlot (.cgo f) [] (s.tile.cCond f) (if (s.tile.engine (copyE f)).st == .stopped then [] else [cgoRefusal s.tile (copyE f)]) none
      (s.armCopy (copyE f) f.imm20.toNat (s.tile.engine (copyE f))) :=
  if_pos hr

theorem exec_cgo_fresh (hr : cgoRes f = false) (ht : cgoTensor f = false) : exec (.cgo f) s =
    s.issueSlot (.cgo f) [] (s.tile.cCond f) (nestFaults s.tile (copyE f)) none
      (s.freshCopy (copyE f) f.imm20.toNat (s.tile.engine (copyE f)).staged) :=
  (if_neg (Bool.eq_false_iff.mp hr)).trans (if_neg (Bool.eq_false_iff.mp ht))

theorem exec_cgo_tensor (hr : cgoRes f = false) (ht : cgoTensor f = true) : exec (.cgo f) s = s.cgoTensor f (nestFaults s.tile (copyE f)) :=
  (if_neg (Bool.eq_false_iff.mp hr)).trans (if_pos ht)

variable (hw : (Instr.cgo f).wf = true) (hc : s.tile.cCond f = true)
include hw hc

/-- A `CGO` outside tensor mode arms its engine: with `.res` for the nest that it has, else for the staged one. -/
theorem cgo_acts (ht : cgoTensor f = false) (hst : (s.tile.engine (copyE f)).st = .idle ∨ (s.tile.engine (copyE f)).st = .stopped)
    (hres : cgoRes f = true → (s.tile.engine (copyE f)).st = .stopped) :
    ∃ u, exec (.cgo f) s = .next (u.note .acted) ∧ (f.imm20.toNat ≠ 0 →
      Arms (copyE f) f.imm20.toNat (if cgoRes f then (s.tile.engine (copyE f)).cfg else (s.tile.engine (copyE f)).staged)
        (if cgoRes f then (s.tile.engine (copyE f)).cn else 0) s u) := by
  cases hr : cgoRes f with
  | true =>
    rw [exec_cgo_res hr]
    exact ⟨_, issueSlot_wf s _ _ _ _ hw hc (by rw [hres hr]; rfl), armCopy_arms s _ _⟩
  | false =>
    rw [exec_cgo_fresh hr ht]
    exact ⟨_, issueSlot_wf s _ _ _ _ hw hc (nestFaults_free hst), freshCopy_arms s _ _⟩

theorem cgo_refused (ht : cgoTensor f = false)
    (hst : if cgoRes f = true then (s.tile.engine (copyE f)).st ≠ .stopped
      else (s.tile.engine (copyE f)).st = .armed ∨ (s.tile.engine (copyE f)).st = .running) :
    exec (.cgo f) s = .next (s.raise (cgoRefusal s.tile (copyE f))) := by
  cases hr : cgoRes f with
  | true =>
    rw [hr, if_pos rfl] at hst
    rw [exec_cgo_res hr]
    exact issueSlot_wf_fault s _ _ _ _ _ _ hw hc (if_neg fun h => hst (eq_of_beq h))
  | false =>
    rw [hr, if_neg Bool.false_ne_true] at hst
    rw [exec_cgo_fresh hr ht]
    exact issueSlot_wf_fault s _ _ _ _ _ _ hw hc (nestFaults_busy hst)

/-- A `CGO` in tensor mode against which nothing stands starts a nest of a bound tensor (R299 to R301). -/
theorem cgo_tensor_acts (hr : cgoRes f = false) (ht : cgoTensor f = true)
    (hst : (s.tile.engine (copyE f)).st = .idle ∨ (s.tile.engine (copyE f)).st = .stopped)
    (ha : s.tile.GoodS f.a) (hb : s.tile.GoodS f.b) (hg : s.tile.GoodS f.c) (hd : s.tile.GoodS f.d)
    (htm : bits (s.tile.sv f.d.toNat) 16 2 = 0 ∨ bits (s.tile.sv f.d.toNat) 16 2 ≠ 3 ∧ cgoOp f = 0)
    (hchk : s.tensorChecks (cgoOp f) (s.tile.sv f.a.toNat % 2 ^ 16) (bits (s.tile.sv f.d.toNat) 0 7)
      (originOf (s.tile.sv f.b.toNat) (s.tile.sv f.c.toNat)) = []) :
    ∃ c : CopyCfg, c.tensor.isSome = true ∧ exec (.cgo f) s = .next ((s.freshCopy (copyE f) f.imm20.toNat c).note .acted) := by
  have hmode : errIf (bits (s.tile.sv f.d.toNat) 16 2 == 3) (encErr 6 .operandKind 13 18) ++
      errIf (bits (s.tile.sv f.d.toNat) 16 2 != 0 && bits (s.tile.sv f.d.toNat) 16 2 != 3 && cgoOp f != 0) (encErr 6 .reservedField 13 18) = [] := by
    obtain h | ⟨h3, hop⟩ := htm
    · rw [h]
      rfl
    · simp [errIf, h3, hop]
  rw [exec_cgo_tensor hr ht, State.cgoTensor]
  refine ⟨_, ?_, issueSlot_wf s _ _ _ _ hw hc ?_⟩
  · rfl
  · rw [threeSources_good ha hb hg, consumeS_good _ _ _ _ hd, hmode, bindingId_eq, hchk, nestFaults_free hst]
    rfl

end

/-! ## CQUERY (R295) -/

section
variable (g : CopyEngine) (lvl free : Nat)

/-- Copies are numbered from 0: none precedes the first. -/
theorem query_last_first (h : g.cn = 0) : g.query 2 lvl free = 0 := by
  have hfind : (g.lasts.find? fun l => l.1 + 1 == g.cn) = none := List.find?_eq_none.mpr fun l _ => by simp [h]
  rw [CopyEngine.query, hfind]
  rfl

theorem query_last_counted {k : Nat} {c : Word} (h : g.cn = k + 1) (hl : g.lasts.find? (fun l => l.1 == k) = some (k, c)) :
    g.query 2 lvl free = c.toNat := by
  have hfind : (g.lasts.find? fun l => l.1 + 1 == g.cn) = some (k, c) := by
    rw [← hl]
    congr 1
    funext l
    simp [h]
  rw [CopyEngine.query, hfind]
  rfl

theorem query_index (h : g.cfg.tensor = none) : g.query 3 lvl free = g.cfg.index g.cn lvl := by
  rw [CopyEngine.query, h]
  rfl

end

/-! ## CSTOP (R294) -/

/-- An engine after `CSTOP`: stopped while copies are left, free once there is none. -/
def CopyEngine.afterStop (g : CopyEngine) : CopyEngine :=
  if g.st = .idle then g else if g.cn < g.cfg.copies then { g with st := .stopped, cause := 1 } else { g with st := .idle }

theorem exec_cstop (s : State) (f : CF) : exec (.cstop f) s =
    s.issueSlot (.cstop f) [] (s.tile.cCond f) [] none (s.onTile fun x => x.modEngine (copyE f) CopyEngine.afterStop) := by
  change execCstop f s = _
  rw [execCstop]
  congr 3
  funext x
  congr 1
  funext g
  rw [CopyEngine.afterStop]
  cases g.st <;> rfl

/-! ## The obligation -/

/-- Settles O42: staging and stopping change one engine; a start that nothing stands against arms the engine, and arming it for a later cycle
only requests translations; a query reads the engine. -/
theorem copyInstructions : Obligations.CopyInstructions := by
  unfold Obligations.CopyInstructions
  intro s f hc e g a b c
  have hne : f.imm20 ≠ 0 → f.imm20.toNat ≠ 0 := fun h h0 => h (BitVec.eq_of_toNat_eq h0)
  refine ⟨fun ha hb hg => ⟨fun hw => ?_, fun hw => ?_⟩, fun hw hst ht hres => ?_, fun hw hst ht hr ha hb hg hd htm hchk => ?_,
    fun hw ht hst => cgo_refused hw hc ht hst, fun hw => ?_, fun hw => ?_⟩
  · exact ⟨_, issueSlot_wf s _ _ _ _ hw hc (threeSources_good ha hb hg), onEngine_note s e _⟩
  · exact ⟨_, issueSlot_wf s _ _ _ _ hw hc (threeSources_good ha hb hg), onEngine_note s e _⟩
  · obtain ⟨u, hu, harms⟩ := cgo_acts hw hc ht hst hres
    refine ⟨_, hu, by rw [tile_note], fun hstart => ?_⟩
    obtain ⟨hkeeps, hnest⟩ := (harms (hne hstart)).note .acted
    simp only [CopyEngine.nestView, Prod.mk.injEq] at hnest
    exact ⟨hkeeps, hnest⟩
  · obtain ⟨k, hk, hexec⟩ := cgo_tensor_acts hw hc hr ht hst ha hb hg hd htm hchk
    refine ⟨_, hexec, by rw [tile_note], fun hstart => ?_⟩
    obtain ⟨hkeeps, hnest⟩ := (freshCopy_arms s e k (hne hstart)).note .acted
    simp only [CopyEngine.nestView, Prod.mk.injEq] at hnest
    obtain ⟨harmed, -, -, hcfg, -⟩ := hnest
    exact ⟨hkeeps, harmed, by rw [hcfg, hk]⟩
  · obtain ⟨hacted, hkeeps, -, hengine⟩ := onEngine_note s e CopyEngine.afterStop
    exact ⟨_, (exec_cstop s f).trans (issueSlot_wf s _ _ _ _ hw hc rfl), hacted, hkeeps, hengine⟩
  · refine ⟨g.query (cquerySel f) (cqueryLevel f) s.free, issueSlot_wf s _ _ _ _ hw hc rfl, fun h => ?_, fun h => ?_, fun h hn => ?_,
      fun h k w hn hl => ?_, fun h => ?_, fun h hn => ?_⟩ <;> rw [h]
    · rfl
    · rfl
    · exact query_last_first g _ _ hn
    · exact query_last_counted g _ _ hn hl
    · rfl
    · exact query_index g _ _ hn

end Sys2Proof.Machine
end

section
/-! SUPPORT. O44, O45: an operation to a rank that cannot be reached fails at issue, and no record of it is left (R322, Table 11-3 code 9). -/

namespace Sys2Proof.Machine

open Sys2Proof.Check Sys2Proof.Claims

section
variable {s : State} {seq : Nat} {o : OpRec}

/-- An operation that changes and is not finished by it is still the one of its number. -/
theorem op?_modOp {g : OpRec → OpRec} (ho : s.op? seq = some o) (hseq : (g o).seq = seq) (hlive : (g o).finished = false) :
    (s.modOp seq g).op? seq = some (g o) := by
  obtain ⟨hmem, before, after, hops, hbefore⟩ := List.find?_eq_some_iff_append.mp ho
  refine List.find?_eq_some_iff_append.mpr ⟨by simpa using hseq, ?_⟩
  refine ⟨((before.map fun o => if o.seq = seq then g o else o).filter fun o => !o.finished),
    ((after.map fun o => if o.seq = seq then g o else o).filter fun o => !o.finished), ?_, fun p hp => ?_⟩
  · have hos : o.seq = seq := by simpa using hmem
    simp [State.modOp, hops, hos, hlive]
  · obtain ⟨q, hq, rfl⟩ := List.mem_map.mp (List.mem_of_mem_filter hp)
    have hqs : q.seq ≠ seq := by simpa using hbefore q hq
    simp [hqs]

/-- Once it is finished, an operation has no record. -/
theorem seq_ne_of_mem_modOp {g : OpRec → OpRec} (hg : ∀ o, (g o).finished = true) : ∀ p ∈ (s.modOp seq g).ops, p.seq ≠ seq := by
  intro p hp
  obtain ⟨hmap, hlive⟩ := List.mem_filter.mp hp
  obtain ⟨q, -, rfl⟩ := List.mem_map.mp hmap
  by_cases hq : q.seq = seq
  · rw [if_pos hq, hg] at hlive
    cases hlive
  · rwa [if_neg hq]

/-- A failure of a task's own operation, which no cask has taken over, finishes it (R322). -/
theorem seq_ne_of_mem_opFail (code : Nat) (ho : s.op? seq = some o) (hf : o.failed = false) (hv : o.vis = false) (hk : o.cask = none) :
    ∀ p ∈ (s.opFail seq code).ops, p.seq ≠ seq := by
  rw [State.opFail, ho]
  simp only [hf, hv, hk, Bool.or_false, Bool.false_eq_true, if_false]
  exact seq_ne_of_mem_modOp fun _ => by simp [OpRec.finished]

theorem op?_issueOp (hnew : ∀ p ∈ s.ops, p.seq ≠ o.seq) : (s.issueOp o).op? o.seq = some o :=
  List.find?_eq_some_iff_append.mpr ⟨by simp, s.ops, [], rfl, fun p hp => by simpa using hnew p hp⟩

/-- A new operation is locally complete at issue (R323). -/
theorem op?_opLevel_local (ho : s.op? seq = some o) (hf : o.failed = false) (hl : o.loc = false) (hv : o.vis = false) (hk : o.cask = none) :
    (s.opLevel seq 0).op? seq = some (o.reach 0) := by
  have hseq : o.seq = seq := by simpa using (List.find?_eq_some_iff_append.mp ho).1
  rw [State.opLevel, ho]
  simp only [hf, OpRec.has, hl, hk, Bool.or_false, Bool.false_eq_true, if_false]
  exact op?_modOp (s := s.modHandle o.tile o.h fun h => h.reach o 0) (g := fun o => o.reach 0) ho hseq
    (by simp [OpRec.reach, OpRec.finished, hv, hf])

/-- A control operation to a rank that cannot be reached is over when it has issued. -/
theorem seq_ne_of_mem_startOp (hnew : ∀ p ∈ s.ops, p.seq ≠ o.seq) (hf : o.failed = false) (hl : o.loc = false) (hv : o.vis = false)
    (hk : o.cask = none) (hr : s.reachable o.rank = false) : ∀ p ∈ (s.startOp o).ops, p.seq ≠ o.seq := by
  have hlocal := op?_opLevel_local (op?_issueOp hnew) hf hl hv hk
  have hfar : ((s.issueOp o).opLevel o.seq 0).reachable o.rank = false := by
    rw [← hr, State.opLevel, op?_issueOp hnew]
    simp only [hf, OpRec.has, hl, hk, Bool.or_false, Bool.false_eq_true, if_false]
    rfl
  rw [State.startOp, hfar]
  exact seq_ne_of_mem_opFail 9 hlocal hf hv hk

/-- The task's first outward effect is marked in the task table alone (R402). -/
theorem markEffect_eq (s : State) (t : Tid) : ∃ k, s.markEffect t = { s with tasks := k } := by
  unfold State.markEffect State.modTask
  split
  · exact ⟨s.tasks, rfl⟩
  · split
    · exact ⟨s.tasks, rfl⟩
    · exact ⟨_, rfl⟩

/-- A put to a rank that cannot be reached is over when it has issued. -/
theorem seq_ne_of_mem_remoteIssue (hnew : ∀ p ∈ s.ops, p.seq ≠ o.seq) (hf : o.failed = false) (hv : o.vis = false) (hk : o.cask = none)
    (hr : s.reachable o.rank = false) : ∀ p ∈ (s.remoteIssue { o with kind := .put }).ops, p.seq ≠ o.seq := by
  obtain ⟨k, hmark⟩ := markEffect_eq s s.cur
  have hfar : ({ s with tasks := k } : State).reachable o.rank = false := hr
  have hissue := op?_issueOp (s := { s with tasks := k }) (o := { o with kind := .put, chambered := s.holdsOps o.rank o.win }) hnew
  simp only [State.remoteIssue, hmark, hfar, Bool.not_false, if_true]
  exact seq_ne_of_mem_opFail 9 hissue hf hv hk

end

/-- A basin that has not been powered up, so that its reach is its own rank 0; tile 0 holds the target word of rank 1, window 0, in s1. -/
def farTarget : State := State.reset.onTile fun x => x.setScalar 1 (scalarOf 1)

theorem farTarget_tile : farTarget.tile = Tile.reset.setScalar 1 (scalarOf 1) := tile_onTile _ _

theorem farTarget_word : farTarget.tile.sv 1 = 1 := by rw [farTarget_tile]; rfl

theorem farTarget_good : farTarget.tile.GoodS 0 ∧ farTarget.tile.GoodS 1 := by rw [farTarget_tile]; decide +kernel

theorem farTarget_out_of_reach : farTarget.reachable 1 = false := by decide +kernel

end Sys2Proof.Machine
end

section
/-! O44: window control. The statement asks for the operation's record after issue; one to a rank out of reach has none. -/

namespace Sys2Proof.Machine

open Sys2Proof.Check Sys2Proof.Claims

/-- A lock with a good word takes effect at issue (R317). -/
theorem exec_wlock_acts {s : State} {f : CF} (hc : s.tile.cCond f = true) (ha : s.tile.GoodS f.a) (hw : (Instr.wlock f).wf = true) :
    exec (.wlock f) s = .next ((s.startOp (s.newOp f (.lock (bit f.x.toNat 0)) (twRank (s.tile.sv f.a.toNat)) (twWin (s.tile.sv f.a.toNat)))).note
      .acted) :=
  issueSlot_wf s _ _ _ _ hw hc (by rw [consumeS_good _ _ _ _ ha]; rfl)

/-- An exclusive lock under handle 0 of the window that the word in s1 names. -/
def farLock : CF := { imm20 := 0, x := 1, c := 0, b := 0, a := 1, d := 0, neg := false, pred := 0 }

/-- Refutes O44: a lock of a window of rank 1, which cannot be reached, issues, but fails at once with code 9, and no record of it is left. -/
theorem not_windowControl : ¬ Obligations.WindowControl := by
  unfold Obligations.WindowControl
  intro h
  obtain ⟨-, ha⟩ := farTarget_good
  have hc : farTarget.tile.cond 0 false = true := by rw [farTarget_tile]; rfl
  have hw : (Instr.wlock farLock).wf = true := by decide
  obtain ⟨-, -, -, -, hlocks, -⟩ := h farTarget farLock hc ha
  obtain ⟨t, o, hexec, -, hmem, hseq, -⟩ := hlocks hw
  rw [exec_wlock_acts (s := farTarget) (f := farLock) hc ha hw] at hexec
  cases hexec
  refine seq_ne_of_mem_startOp (fun _ hp => absurd hp List.not_mem_nil) rfl rfl rfl rfl ?_ o hmem hseq
  rw [← farTarget_out_of_reach]
  exact congrArg (fun w => farTarget.reachable (twRank w)) farTarget_word

end Sys2Proof.Machine
end

section
/-! O45: remote operations. The statement asks for the operation's record after issue; one to a rank out of reach has none. -/

namespace Sys2Proof.Machine

open Sys2Proof.Check Sys2Proof.Claims

/-- The operation that a put from scratchpad issues (R328). -/
def State.putOp (s : State) (f : CF) : OpRec :=
  { s.newOp f .put (twRank (s.tile.sv f.a.toNat)) (twWin (s.tile.sv f.a.toNat)) with
    off := s.tile.sv f.b.toNat, len := remLen f, type := remType f, laddr := s.tile.sv f.c.toNat }

/-- A put from scratchpad acts when nothing of R315 or R328 stands against it. -/
theorem exec_wput_acts {s : State} {f : CF} (hc : s.tile.cCond f = true) (ha : s.tile.GoodS f.a) (hb : s.tile.GoodS f.b) (hd : s.tile.GoodS f.c)
    (hw : (Instr.wput f).wf = true) (hroom : (s.ops.filter (·.chambered)).length < 256) (hpad : bit f.x.toNat 0 = false)
    (hfit : padRunFault s.tile (s.tile.sv f.c.toNat) (remLen f) (cWidth f) = []) :
    exec (.wput f) s = .next ((s.remoteIssue (s.putOp f)).note .acted) := by
  change execWput f s = _
  have hgate : ∀ b : Bool, s.chamberGate f (b && decide (256 ≤ (s.ops.filter (·.chambered)).length)) = ([], none) := fun b => by
    rw [decide_eq_false (by omega), Bool.and_false]
    rfl
  simp only [execWput, State.remoteSlot, hpad, Bool.false_eq_true, if_false, hgate]
  exact issueSlot_wf s _ _ _ _ hw hc (by rw [consumeS_good _ _ _ _ ha, consumeS_good _ _ _ _ hb, consumeS_good _ _ _ _ hd, hfit]; rfl)

/-- A put under handle 0 of the 32-bit word at scratchpad address 0 to offset 0 of the window that the word in s1 names. -/
def farPut : CF := { imm20 := BitVec.ofNat 20 (4 + 4 * 2 ^ 15), x := 0, c := 0, b := 0, a := 1, d := 0, neg := false, pred := 0 }

/-- Refutes O45: a put to rank 1, which cannot be reached, issues, but fails at once with code 9, and no record of it is left. -/
theorem not_remoteOperations : ¬ Obligations.RemoteOperations := by
  unfold Obligations.RemoteOperations
  intro h
  obtain ⟨hz, ha⟩ := farTarget_good
  have hc : farTarget.tile.cond 0 false = true := by rw [farTarget_tile]; rfl
  have hw : (Instr.wput farPut).wf = true := by decide
  have hroom : (farTarget.ops.filter (·.chambered)).length < 256 := by decide +kernel
  obtain ⟨hops, -⟩ := h farTarget farPut hc
  obtain ⟨hruns, -⟩ := hops ha hz hz hroom
  obtain ⟨hputs, -⟩ := hruns needR (.inl rfl) (.inl (by decide))
  obtain ⟨t, o, hexec, ⟨-, hmem, hseq, -⟩, -⟩ := hputs hw rfl
  rw [exec_wput_acts (s := farTarget) (f := farPut) hc ha hz hz hw hroom (by decide) (by decide)] at hexec
  cases hexec
  refine seq_ne_of_mem_remoteIssue (o := farTarget.putOp farPut) (fun _ hp => absurd hp List.not_mem_nil) rfl rfl rfl ?_ o hmem hseq
  rw [← farTarget_out_of_reach]
  exact congrArg (fun w => farTarget.reachable (twRank w)) farTarget_word

end Sys2Proof.Machine
end

section
/-! SUPPORT. O50: what stands in the calendar, and what changing one window entry changes. -/

namespace Sys2Proof.Claims

open Sys2Proof.Machine

/-- What is scheduled stands in the calendar. -/
theorem schedules_schedule (s : State) (at_ ord : Nat) (ev : Ev) : Schedules (s.schedule at_ ord ev) at_ ev :=
  ⟨_, mem_agenda_schedule s at_ ord ev, rfl, rfl⟩

/-- Scheduling one thing drops no other. -/
theorem Schedules.schedule {s : State} {a : Nat} {e : Ev} (h : Schedules s a e) (at_ ord : Nat) (ev : Ev) :
    Schedules (s.schedule at_ ord ev) a e := by
  obtain ⟨x, hx, hat⟩ := h
  exact ⟨x, mem_agendaIns_of_mem hx, hat⟩

/-- A notice departs in the next cycle (R322). -/
theorem schedules_notify (s : State) (rank opn lvl code : Nat) :
    Schedules (s.notify rank opn lvl code) (s.now + 1) (.send (s.noticeFlit rank opn lvl code)) := schedules_schedule ..

/-- A fold that schedules drops nothing either. -/
theorem Schedules.foldl_schedule {α : Type} {ev : State → α → Ev} {at_ ord : State → α → Nat} {a : Nat} {e : Ev} (l : List α) {s : State}
    (h : Schedules s a e) : Schedules (l.foldl (fun s x => s.schedule (at_ s x) (ord s x) (ev s x)) s) a e :=
  List.foldlRecOn l _ (motive := fun t => Schedules t a e) h fun _ ht _ _ => ht.schedule _ _ _

end Sys2Proof.Claims

namespace Sys2Proof.Machine

open Sys2Proof.Claims

/-! ## Window entries (R309, R320) -/

section
variable {s : State} {win : Nat} {e : WEntry} {g : WEntry → WEntry}

theorem window_eq_some_iff : s.window win = some e ↔ s.windows.get none win = some e ∧ e.freeing = none := by
  rw [State.window]
  cases s.windows.get none win with
  | none => simp
  | some d =>
    by_cases hd : d.freeing = none
    · simp only [hd, Option.isSome_none, Bool.false_eq_true, if_false, Option.some.injEq]
      exact ⟨fun h => ⟨h, h ▸ hd⟩, fun h => h.1⟩
    · simp only [Option.isSome_iff_ne_none.mpr hd, if_true, Option.some.injEq]
      exact ⟨(nomatch ·), fun ⟨hde, hfree⟩ => absurd (hde ▸ hfree) hd⟩

/-- Changing an entry changes the window table alone. -/
theorem modWindow_eq (s : State) (win : Nat) (g : WEntry → WEntry) : ∃ w, s.modWindow win g = { s with windows := w } := by
  unfold State.modWindow
  split
  · exact ⟨s.windows, rfl⟩
  · exact ⟨_, rfl⟩

theorem get_modWindow (h : s.windows.get none win = some e) : (s.modWindow win g).windows.get none win = some (g e) := by
  rw [State.modWindow, h]
  exact SMap.get_set_same none win (some (g e)) s.windows

/-- An entry that is not being freed, and is not freed by the change, is read back changed. -/
theorem window_modWindow (h : s.window win = some e) (hg : (g e).freeing = none) : (s.modWindow win g).window win = some (g e) :=
  window_eq_some_iff.mpr ⟨get_modWindow (window_eq_some_iff.mp h).1, hg⟩

/-- A control flit is let in at a window that is there and not being freed (R313). -/
theorem window_of_controlWindow {f : Flit} {mode : Nat} (h : s.controlWindow f mode = .ok e) :
    s.window f.win.toNat = some e ∧ e.freeing = none := by
  have hwin : s.window f.win.toNat = some e := by
    unfold State.controlWindow at h
    split at h
    · cases h
    · split at h
      · cases h
      · split at h
        · cases h
        · cases h
          assumption
  exact ⟨hwin, (window_eq_some_iff.mp hwin).2⟩

end

end Sys2Proof.Machine
end

section
/-! O50: requests at a window (R311, R318, R319). -/

namespace Sys2Proof.Machine

open Sys2Proof.Check Sys2Proof.Claims

/-- The request flits that are only checked, with the right that they need and the bytes that they name. -/
def requestsOf (f : Flit) : List (Instr × Nat × Nat) :=
  [(.putRequest, rightPut, flitLen f), (.getRequest, rightGet, flitLen f), (.accumulateRequest, rightAcc, flitLen f),
    (.atomicRequest, rightAmo, tyWidth f.type.toNat / 8), (.futureFill, rightAmo, tyWidth f.type.toNat / 8)]

/-- The flit is let in: it performs 16 cycles later, its operation is acknowledged with its last flit, and nothing else has happened yet. -/
def LetIn (s : State) (f : Flit) (t : State) : Prop :=
  Schedules t (s.now + 16) (.event .remoteApply { EvArg.none with flit := s.brought f }) ∧
  (f.last = true → s.failedHere f = false → Schedules t (s.now + 1) (.send (s.noticeFlit f.src.toNat f.opn.toNat 0 0))) ∧
  t.mem = s.mem ∧ t.tiles = s.tiles

section
variable {s : State} {f : Flit}

theorem portCheck_of_portOk {right n : Nat} (h : PortOk s f right n) : ∃ e, s.portCheck f right n = .ok e := by
  obtain ⟨e, hwin, hlo, hhi, hadm, hright, hwhole, hflit, hoff, hlen⟩ := h
  refine ⟨e, ?_⟩
  have hrange : ¬ (e.length < (f.whole.getD (f.offset.toNat, n)).1 + (f.whole.getD (f.offset.toNat, n)).2 ∨ e.length < f.offset.toNat + n ∨
      (f.whole.getD (f.offset.toNat, n)).1 % max 1 (tyWidth f.type.toNat / 8) ≠ 0 ∨
      (f.whole.getD (f.offset.toNat, n)).2 % max 1 (tyWidth f.type.toNat / 8) ≠ 0) := by
    rintro (h | h | h | h)
    · exact absurd hwhole (Nat.not_le.mpr h)
    · exact absurd hflit (Nat.not_le.mpr h)
    · exact h hoff
    · exact h hlen
  simp only [State.portCheck, hwin, WEntry.inGroup, hlo, hhi, hadm, hright, decide_true, Bool.and_self, Bool.not_true, Bool.false_eq_true, if_false]
  exact if_neg hrange

theorem endRejected_eq (s : State) (f : Flit) : s.endRejected f = s ∨ ∃ n o ev, s.endRejected f = s.schedule n o ev := by
  unfold State.endRejected
  split
  · exact .inr ⟨_, _, _, rfl⟩
  · exact .inl rfl

theorem schedules_endRejected {a : Nat} {ev : Ev} (h : Schedules s a ev) : Schedules (s.endRejected f) a ev := by
  obtain hsame | ⟨n, o, ev', hlater⟩ := endRejected_eq s f
  · rwa [hsame]
  · rw [hlater]
    exact h.schedule _ _ _

theorem stores_endRejected (s : State) (f : Flit) : (s.endRejected f).mem = s.mem ∧ (s.endRejected f).tiles = s.tiles ∧
    (s.endRejected f).dedup = s.dedup ∧ (s.endRejected f).rejected = s.rejected := by
  obtain hsame | ⟨n, o, ev, hlater⟩ := endRejected_eq s f
  · rw [hsame]
    exact ⟨rfl, rfl, rfl, rfl⟩
  · rw [hlater]
    exact ⟨rfl, rfl, rfl, rfl⟩

/-- Letting in counts the flit at its window and plans it; then its operation is acknowledged, or forgotten if a flit of it was rejected. -/
theorem letIn_eq (s : State) (f : Flit) (read : Bool) : ∃ w ord,
    let u := ({ s with windows := w } : State).plan (s.now + 16) ord .remoteApply { EvArg.none with flit := s.brought f }
    s.letIn f read = if f.last && !s.failedHere f then u.notify f.src.toNat f.opn.toNat 0 0 else u.endRejected f := by
  obtain ⟨w, hw⟩ := modWindow_eq s f.win.toNat fun e => { e with inFlight := e.inFlight + 1 }
  rw [State.letIn, hw]
  exact ⟨w, _, rfl⟩

theorem letIn_letIn (s : State) (f : Flit) (read : Bool) : LetIn s f (s.letIn f read) ∧ (s.letIn f read).dedup = s.dedup := by
  obtain ⟨w, ord, hlet⟩ := letIn_eq s f read
  have hplan : Schedules (({ s with windows := w } : State).plan (s.now + 16) ord .remoteApply { EvArg.none with flit := s.brought f })
    (s.now + 16) (.event .remoteApply { EvArg.none with flit := s.brought f }) := schedules_schedule ..
  rw [hlet]
  by_cases hlast : (f.last && !s.failedHere f) = true
  · rw [if_pos hlast]
    exact ⟨⟨hplan.schedule _ _ _, fun _ _ => schedules_notify .., rfl, rfl⟩, rfl⟩
  · rw [if_neg hlast]
    obtain ⟨hmem, htiles, hdedup, -⟩ := stores_endRejected
      (({ s with windows := w } : State).plan (s.now + 16) ord .remoteApply { EvArg.none with flit := s.brought f }) f
    exact ⟨⟨schedules_endRejected hplan, fun hl hf => absurd (by rw [hl, hf]; rfl) hlast, hmem, htiles⟩, hdedup⟩

/-- A request is checked with its right and its bytes (R311). -/
theorem exec_request {i : Instr} {right n : Nat} (h : (i, right, n) ∈ requestsOf s.arg.flit) :
    ∃ read, exec i s = .next (s.checked s.arg.flit right n read) := by
  simp only [requestsOf, List.mem_cons, List.not_mem_nil, or_false, Prod.mk.injEq] at h
  rcases h with ⟨rfl, rfl, rfl⟩ | ⟨rfl, rfl, rfl⟩ | ⟨rfl, rfl, rfl⟩ | ⟨rfl, rfl, rfl⟩ | ⟨rfl, rfl, rfl⟩
  · exact ⟨false, rfl⟩
  · exact ⟨true, rfl⟩
  · exact ⟨false, rfl⟩
  · exact ⟨false, rfl⟩
  · exact ⟨false, rfl⟩

theorem request_letIn {i : Instr} {right n : Nat} (h : (i, right, n) ∈ requestsOf s.arg.flit) (hok : PortOk s s.arg.flit right n) :
    ∃ t, exec i s = .next t ∧ LetIn s s.arg.flit t := by
  obtain ⟨read, hexec⟩ := exec_request h
  obtain ⟨e, he⟩ := portCheck_of_portOk hok
  rw [State.checked, he] at hexec
  exact ⟨_, hexec, (letIn_letIn s _ read).1⟩

theorem request_rejected {i : Instr} {right n c : Nat} (h : (i, right, n) ∈ requestsOf s.arg.flit)
    (hc : s.portCheck s.arg.flit right n = .error c) : exec i s = .next (s.reject s.arg.flit c) := by
  obtain ⟨read, hexec⟩ := exec_request h
  rwa [State.checked, hc] at hexec

/-- A rejected operation is remembered, and a notice of the code departs (R54, R311). -/
theorem reject_notifies (s : State) (f : Flit) (c : Nat) : (s.reject f c).rejected.contains (f.src.toNat, f.opn.toNat) = true ∧
    Schedules (s.reject f c) (s.now + 1) (.send (s.noticeFlit f.src.toNat f.opn.toNat 2 c)) := by
  have hkept : (if s.failedHere f then s.rejected else flitOp f :: s.rejected).contains (f.src.toNat, f.opn.toNat) = true := by
    split
    · assumption
    · exact List.contains_iff_mem.mpr List.mem_cons_self
  obtain ⟨w, hw⟩ := modWindow_eq { s with rejected := if s.failedHere f then s.rejected else flitOp f :: s.rejected } f.win.toNat
    fun e => { e with rej := e.rej + 1 }
  rw [State.reject, hw]
  refine ⟨?_, schedules_endRejected (schedules_notify _ _ _ _ _)⟩
  obtain ⟨-, -, -, hrejected⟩ := stores_endRejected
    ((({ s with rejected := if s.failedHere f then s.rejected else flitOp f :: s.rejected, windows := w } : State).event srcPort 0 evReject
      (f.win.toNat + c * 2 ^ 8 + f.src.toNat * 2 ^ 16 + f.opn.toNat * 2 ^ 32)).notify f.src.toNat f.opn.toNat 2 c) f
  exact (congrArg (List.contains · _) hrejected).trans hkept

end

/-! ## Tagged accumulates (R319) -/

theorem dedup_any_eq_false {s : State} {f : Flit}
    (h : ∀ k ∈ s.dedup, ¬ (k.1 = f.win.toNat ∧ k.2.1 = f.src.toNat ∧ k.2.2.1 = f.tag.toNat)) :
    (s.dedup.any fun k => k.1 == f.win.toNat && k.2.1 == f.src.toNat && k.2.2.1 == f.tag.toNat) = false :=
  List.any_eq_false.mpr fun k hk hm => h k hk (by simpa [and_assoc] using hm)

section
variable {s : State} {f : Flit} {e : WEntry} {c : Nat} (hnew : ∀ q ∈ s.tagOps, ¬ (q.1 = f.src.toNat ∧ q.2.1 = f.opn.toNat))
include hnew

theorem tagged_first : s.tagOps.find? (fun p => p.1 == f.src.toNat && p.2.1 == f.opn.toNat) = none :=
  List.find?_eq_none.mpr fun q hq h => hnew q hq (by simpa using h)

theorem tagged_rejected (hc : s.portCheck f rightAcc (flitLen f) = .error c) : s.tagged f = s.reject f c := by
  simp only [State.tagged, tagged_first hnew, hc]

theorem tagged_of_untagged_window (he : s.portCheck f rightAcc (flitLen f) = .ok e) (hbit : bit e.desc.toNat bitDedup = false) :
    s.tagged f = s.reject f 3 := by
  simp only [State.tagged, tagged_first hnew, he, hbit, Bool.not_false, if_true]

/-- A tag that the window has seen is not performed again. -/
theorem tagged_repeated (he : s.portCheck f rightAcc (flitLen f) = .ok e) (hbit : bit e.desc.toNat bitDedup = true)
    (hseen : ∃ k ∈ s.dedup, k.1 = f.win.toNat ∧ k.2.1 = f.src.toNat ∧ k.2.2.1 = f.tag.toNat) :
    ∃ l, s.tagged f = ({ s with tagOps := l } : State).notify f.src.toNat f.opn.toNat 2 6 := by
  have hany : (s.dedup.any fun k => k.1 == f.win.toNat && k.2.1 == f.src.toNat && k.2.2.1 == f.tag.toNat) = true := by
    obtain ⟨k, hk, hwin, hsrc, htag⟩ := hseen
    exact List.any_eq_true.mpr ⟨k, hk, by simp [hwin, hsrc, htag]⟩
  simp only [State.tagged, tagged_first hnew, he, hbit, hany, Bool.not_true, Bool.false_eq_true, if_false, if_true]
  cases f.last
  · exact ⟨_, rfl⟩
  · exact ⟨_, rfl⟩

section
variable (hfresh : ∀ k ∈ s.dedup, ¬ (k.1 = f.win.toNat ∧ k.2.1 = f.src.toNat ∧ k.2.2.1 = f.tag.toNat))
include hfresh

theorem tagged_full (he : s.portCheck f rightAcc (flitLen f) = .ok e) (hbit : bit e.desc.toNat bitDedup = true) (hfull : 4096 ≤ s.dedup.length) :
    ∃ l, s.tagged f = ({ s with tagOps := l } : State).notify f.src.toNat f.opn.toNat 2 7 := by
  simp only [State.tagged, tagged_first hnew, he, hbit, dedup_any_eq_false hfresh, hfull, Bool.not_true, Bool.false_eq_true, if_false, if_true]
  cases f.last
  · exact ⟨_, rfl⟩
  · exact ⟨_, rfl⟩

theorem tagged_new (he : s.portCheck f rightAcc (flitLen f) = .ok e) (hbit : bit e.desc.toNat bitDedup = true) (hroom : s.dedup.length < 4096) :
    LetIn s f (s.tagged f) ∧ (f.win.toNat, f.src.toNat, f.tag.toNat, f.tile.val) ∈ (s.tagged f).dedup := by
  simp only [State.tagged, tagged_first hnew, he, hbit, dedup_any_eq_false hfresh, Nat.not_le.mpr hroom, Bool.not_true, Bool.false_eq_true,
    if_false]
  obtain ⟨hlet, hdedup⟩ := letIn_letIn ({ s with
    tagOps := s.tagOps ++ [(f.src.toNat, f.opn.toNat, 0)]
    dedup := s.dedup ++ [(f.win.toNat, f.src.toNat, f.tag.toNat, f.tile.val)] } : State) f false
  have hmem := (congrArg ((f.win.toNat, f.src.toNat, f.tag.toNat, f.tile.val) ∈ ·) hdedup).mpr
    (List.mem_append_right s.dedup (List.mem_singleton_self _))
  cases f.last
  · exact ⟨hlet, hmem⟩
  · exact ⟨hlet, hmem⟩

end

end

end Sys2Proof.Machine
end

section
/-! O50: admitted flits perform, and what comes back at the origin (R318, R328, R329, R338). -/

namespace Sys2Proof.Machine

open Sys2Proof.Check Sys2Proof.Claims

/-! ## At the window -/

section
variable {s : State} {e : WEntry}

theorem remoteApply_gone (h : s.windows.get none s.arg.flit.win.toNat = none) : exec .remoteApply s = .next s := by
  change execRemoteApply s = _
  simp only [execRemoteApply, h]

/-- One flit fewer is in flight at the window. -/
def State.applying (s : State) : State := s.modWindow s.arg.flit.win.toNat fun e => { e with inFlight := e.inFlight - 1 }

section
variable (he : s.windows.get none s.arg.flit.win.toNat = some e)
include he

theorem remoteApply_put (hop : s.arg.flit.op = 0) : exec .remoteApply s = .next ((s.applying.applyPut e s.arg.flit).visibleNotice s.arg.flit) := by
  have hcode : s.arg.flit.op.toNat = 0 := by rw [hop]; rfl
  change execRemoteApply s = _
  simp only [execRemoteApply, he, hcode]
  rfl

theorem remoteApply_get (hop : s.arg.flit.op = 1) : exec .remoteApply s = .next (s.applying.applyGet e s.arg.flit) := by
  have hcode : s.arg.flit.op.toNat = 1 := by rw [hop]; rfl
  change execRemoteApply s = _
  simp only [execRemoteApply, he, hcode]
  rfl

/-- Codes from 2 on are accumulates but for the atomics from 9 to 17. -/
theorem remoteApply_other (hop : 2 ≤ s.arg.flit.op.toNat) : exec .remoteApply s =
    .next (if 9 ≤ s.arg.flit.op.toNat ∧ s.arg.flit.op.toNat < 18 then s.applying.applyAmo e s.arg.flit
      else (s.applying.applyAcc e s.arg.flit).visibleNotice s.arg.flit) := by
  obtain ⟨k, hk⟩ := Nat.exists_eq_add_of_le' hop
  change execRemoteApply s = _
  simp only [execRemoteApply, he, hk]
  rfl

theorem remoteApply_acc (hop : 2 ≤ s.arg.flit.op.toNat) (hacc : s.arg.flit.op.toNat < 9 ∨ 18 ≤ s.arg.flit.op.toNat) :
    exec .remoteApply s = .next ((s.applying.applyAcc e s.arg.flit).visibleNotice s.arg.flit) := by
  rw [remoteApply_other he hop, if_neg (by omega)]

theorem remoteApply_amo (hlow : 9 ≤ s.arg.flit.op.toNat) (hhigh : s.arg.flit.op.toNat < 18) :
    exec .remoteApply s = .next (s.applying.applyAmo e s.arg.flit) := by
  rw [remoteApply_other he (by omega), if_pos ⟨hlow, hhigh⟩]

end

theorem visibleNotice_none {f : Flit} (h : f.last = false ∨ s.failedHere f = true) : s.visibleNotice f = s := by
  rw [State.visibleNotice, if_pos]
  rcases h with h | h
  · rw [h]
    rfl
  · rw [h, Bool.or_true]

theorem visibleNotice_departs {f : Flit} (hlast : f.last = true) (hf : s.failedHere f = false) :
    Schedules (s.visibleNotice f) (s.now + 1) (.send (s.noticeFlit f.src.toNat f.opn.toNat 1
      (if s.poisoned.contains (f.src.toNat, f.opn.toNat) then 8 else 0))) := by
  rw [State.visibleNotice, if_neg (by simp [hlast, hf])]
  exact schedules_notify _ _ _ _ _

end

/-! ## Replies -/

/-- The host port replaces the data of a flit, and no other field (R77). -/
theorem brought_eq (s : State) (f : Flit) : s.brought f = { f with data := (s.brought f).data } := by
  unfold State.brought
  split <;> rfl

section
variable {s : State} {o : OpRec}

/-- A reply to an operation that is not out has no effect. -/
theorem reply_unknown (h : s.opOf s.arg.flit.opn.toNat = none) :
    exec .getData s = .next s ∧ exec .atomicOldValue s = .next s ∧ exec .fenceDone s = .next s ∧ exec .grant s = .next s := by
  have hb : s.opOf (s.brought s.arg.flit).opn.toNat = none := by rwa [brought_eq]
  refine ⟨?_, ?_, ?_, ?_⟩
  · change execGetData s = _
    simp only [execGetData, hb]
  · change execAtomicOldValue s = _
    simp only [execAtomicOldValue, hb]
  · change execFenceDone s = _
    simp only [execFenceDone, h]
  · change execGrant s = _
    simp only [execGrant, h]

section
variable (ho : s.opOf s.arg.flit.opn.toNat = some o)
include ho

/-- Data of a get that lie in one row land there, and nowhere else. -/
theorem getData_lands {row : Nat} (hglob : o.glob = false)
    (hrow : runRows (o.laddr + (s.arg.flit.offset.toNat - o.off)) (s.arg.flit.count.toNat + 1) = [row]) :
    exec .getData s = .next (s.landRow o.seq row
      ((landWrites (o.laddr + (s.arg.flit.offset.toNat - o.off)) (s.arg.flit.count.toNat + 1) (s.brought s.arg.flit).data).filter
        fun w => w.g / 32 == row)) := by
  change execGetData s = _
  rw [execGetData, brought_eq]
  simp only [ho, hrow, List.foldl_cons, List.foldl_nil, hglob, Bool.false_eq_true, if_false]

theorem atomicOldValue_lands : exec .atomicOldValue s = .next (s.landRow o.seq (rowOf o.laddr)
    (gwCarry (o.laddr / 8 + 1) (Reg.ofGrans 1 [(s.brought s.arg.flit).data.gran 0]) 0xFF)) := by
  change execAtomicOldValue s = _
  rw [execAtomicOldValue, brought_eq]
  simp only [ho]

theorem fenceDone_visible : exec .fenceDone s = .next (s.opLevel o.seq 2) := by
  change execFenceDone s = _
  simp only [execFenceDone, ho]

theorem grant_held {ex : Bool} (hkind : o.kind = .lock ex) (hk : o.cask = none) : exec .grant s = .next (({ s with locks := s.locks ++
    [({ rank := o.rank, win := o.win, tile := o.tile, holder := o.lockTile, ex := ex } : LockHeld)] } : State).opLevel o.seq 2) := by
  change execGrant s = _
  simp only [execGrant, ho, hkind, hk]

theorem grant_other (h : (∀ ex, o.kind ≠ .lock ex) ∨ o.cask ≠ none) : exec .grant s = .next (s.opLevel o.seq 2) := by
  change execGrant s = _
  simp only [execGrant, ho]
  congr 2
  split
  · rename_i ex hkind hk
    rcases h with h | h
    · exact absurd hkind (h ex)
    · exact absurd hk h
  · rfl

end

/-! ## Rows that land (R328) -/

theorem SameStores.modOp (seq : Nat) (g : OpRec → OpRec) : SameStores s (s.modOp seq g) := ⟨rfl, fun _ => rfl, rfl⟩

theorem SameStores.modHandle (t : Tid) (h : Nat) (g : Handle → Handle) : SameStores s (s.modHandle t h g) :=
  modTile t (f := fun x => { x with handles := x.handles.modify .zero h g }) fun _ => rfl

/-- A level counts at a handle, or at a cask later. -/
theorem SameStores.opLevel (seq lvl : Nat) : SameStores s (s.opLevel seq lvl) := by
  unfold State.opLevel
  split
  · exact refl s
  · split
    · exact refl s
    · split
      · exact schedule _ _ _
      · exact (modHandle _ _ _).trans (modOp _ _)

section
variable {row : Nat} (ho : s.op? o.seq = some o) (hf : o.failed = false) (hglob : o.glob = false) (hret : o.ret.contains row = true)
include ho hf hglob hret

/-- A row that the operation waits for is written when its port is free. -/
theorem landRow_writes (ws : List GWrite) (hfree : s.padTaken o.tile (row / 128) = false) :
    ((s.landRow o.seq row ws).tileAt o.tile).pad = (s.tileAt o.tile).pad.writes ws := by
  simp only [State.landRow, ho, hf, hglob, hret, hfree, Bool.not_true, Bool.not_false, Bool.or_false, Bool.and_false, Bool.false_eq_true, if_false]
  have hwrite := (padPut_becomes s o.tile ws).same (.modTile o.tile (f := fun x =>
    { (if o.kind = .get then x.subPend [row] else x) with resv := x.resv ++ [(s.now, row / 128, 2)] }) fun x => by dsimp only; split <;> rfl)
  have hrow := hwrite.same (.modOp o.seq fun q => { q with ret := q.ret.erase row })
  split
  · exact (hrow.same (.opLevel o.seq 2)).pad
  · exact hrow.pad

/-- A row whose port is taken tries again in the next cycle. -/
theorem landRow_waits (ws : List GWrite) (htaken : s.padTaken o.tile (row / 128) = true) :
    ((s.landRow o.seq row ws).tileAt o.tile).pad = (s.tileAt o.tile).pad ∧
      Schedules (s.landRow o.seq row ws) (s.now + 1) (.landRow o.seq row ws) := by
  simp only [State.landRow, ho, hf, hglob, hret, htaken, Bool.not_true, Bool.not_false, Bool.or_false, Bool.and_self, Bool.false_eq_true, if_false,
    if_true]
  exact ⟨(SameStores.modTile (s := s) o.tile (f := Tile.raiseBcol) fun _ => rfl).pad o.tile, schedules_schedule ..⟩

end

/-! ## Notices (R338) -/

theorem notices_none (h : s.arg.flit.count.toNat + 1 < 16) : exec .notices s = .next s := by
  change execNotices s = _
  simp only [execNotices, Nat.div_eq_of_lt h]
  rfl

theorem notices_one (h : s.arg.flit.count.toNat + 1 = 16) : exec .notices s = .next (s.notice (bits s.arg.flit.data.d.toNat 0 128)) := by
  change execNotices s = _
  simp only [execNotices, h]
  rfl

theorem notice_other_rank {r : Nat} (h : bits r 69 13 ≠ s.rank) : s.notice r = s := by rw [State.notice, if_pos h]

section
variable {r : Nat} (hrank : bits r 69 13 = s.rank)
include hrank

theorem notice_unknown (ho : s.opOf (bits r 55 14) = none) : s.notice r = s := by
  rw [State.notice, if_neg (not_not.mpr hrank), ho]

section
variable (ho : s.opOf (bits r 55 14) = some o) (hone : s.members o = [o])
include ho hone

theorem notice_fails (hlvl : bits r 53 2 = 2) : s.notice r = s.opFail o.seq (bits r 48 5) := by
  rw [State.notice, if_neg (not_not.mpr hrank), ho]
  simp only [hone, List.foldl_cons, List.foldl_nil, hlvl, if_true]

theorem notice_accepts (hlvl : bits r 53 2 = 0) (hcode : bits r 48 5 = 0) : s.notice r = s.opLevel o.seq 1 := by
  rw [State.notice, if_neg (not_not.mpr hrank), ho]
  simp [hone, hlvl, hcode]

theorem notice_visible (hlvl : bits r 53 2 = 1) (hcode : bits r 48 5 = 0) (hkind : o.kind = .put) : s.notice r = s.opLevel o.seq 2 := by
  rw [State.notice, if_neg (not_not.mpr hrank), ho]
  simp [hone, hlvl, hcode, hkind]

end

end

end

end Sys2Proof.Machine
end

section
/-! O50: access epochs, fences and locks at a window, and what the origin holds back (R314 to R317, R320). -/

namespace Sys2Proof.Machine

open Sys2Proof.Check Sys2Proof.Claims

variable {s : State} {e : WEntry}

/-! ## Posts (R314) -/

/-- A post that no started record waits for is kept. -/
theorem post_kept (h : ∀ r ∈ s.accRecs, ¬ (r.rank = s.arg.flit.src.toNat ∧ r.win = s.arg.flit.win.toNat ∧ r.open_ = false)) :
    exec .post s = .next { s with posts := s.posts ++ [(s.arg.flit.src.toNat, s.arg.flit.win.toNat)] } := by
  have hnone : s.accRecs.find? (fun r => r.rank == s.arg.flit.src.toNat && r.win == s.arg.flit.win.toNat && !r.open_) = none :=
    List.find?_eq_none.mpr fun r hr hm => h r hr (by simpa [and_assoc] using hm)
  change execPost s = _
  simp only [execPost, hnone]

/-- The record opens, and what it held back in the chamber queue departs. -/
theorem post_opens {r : AccRec}
    (h : s.accRecs.find? (fun r => r.rank == s.arg.flit.src.toNat && r.win == s.arg.flit.win.toNat && !r.open_) = some r) :
    exec .post s = .next ((({ s with
      accRecs := s.accRecs.map fun q => if q == r then { q with open_ := true } else q
      ops := s.ops.map fun (o : OpRec) => if ((s.chamberOf r).map (·.seq)).contains o.seq then { o with chambered := false } else o } :
        State).opLevel r.opn 2).depart r.rank) := by
  change execPost s = _
  simp only [execPost, h]

/-! ## Fences (R316) -/

theorem window_planFence (s : State) (win n : Nat) : (s.planFence win).window n = s.window n := by
  unfold State.planFence
  split
  · rfl
  · split <;> rfl

theorem fenceArrival_fails {c : Nat} (h : s.controlWindow s.arg.flit 0 = .error c) :
    exec .fenceArrival s = .next (s.notify s.arg.flit.src.toNat s.arg.flit.opn.toNat 2 c) := by
  change execFenceArrival s = _
  simp only [execFenceArrival, h]
  rfl

theorem fenceArrival_counts (h : s.controlWindow s.arg.flit 0 = .ok e) : ∃ t e', exec .fenceArrival s = .next t ∧
    t.window s.arg.flit.win.toNat = some e' ∧ ∃ ns, e'.arrivals = e.arrivals ++ [(s.arg.flit.src.toNat, s.arg.flit.opn.toNat, ns)] := by
  obtain ⟨hwin, hfree⟩ := window_of_controlWindow h
  refine ⟨_, _, ?_, (window_planFence _ s.arg.flit.win.toNat s.arg.flit.win.toNat).trans
    (window_modWindow (g := fun e => { e with arrivals := e.arrivals ++ [(s.arg.flit.src.toNat, s.arg.flit.opn.toNat,
      s.arg.flit.src.toNat == s.rank && (s.ops.any fun o => o.opn == s.arg.flit.opn.toNat && o.kind == .fence true))] }) hwin hfree), _, rfl⟩
  change execFenceArrival s = _
  simp only [execFenceArrival, h]

/-! ## Completions (R314) -/

theorem completion_fails {c : Nat} (h : s.controlWindow s.arg.flit 1 = .error c) : exec .completion s =
    .next ((s.event srcPort 0 evOther s.arg.flit.win.toNat).notify s.arg.flit.src.toNat s.arg.flit.opn.toNat 2 c) := by
  change execCompletion s = _
  simp only [execCompletion, h]
  rfl

theorem completion_not_posted (h : s.controlWindow s.arg.flit 1 = .ok e) (hst : e.st ≠ .posted) : exec .completion s =
    .next ((s.event srcPort 0 evOther s.arg.flit.win.toNat).notify s.arg.flit.src.toNat s.arg.flit.opn.toNat 2 1) := by
  change execCompletion s = _
  simp only [execCompletion, h]
  rw [if_pos hst]
  rfl

/-- The entry with an origin among those that have completed. -/
def WEntry.complete (e : WEntry) (rank : Nat) : WEntry := { e with bitmap := if e.bitmap.contains rank then e.bitmap else e.bitmap ++ [rank] }

theorem mem_bitmap_complete (e : WEntry) (rank : Nat) : rank ∈ (e.complete rank).bitmap := by
  rw [WEntry.complete]
  split
  · rename_i h
    exact List.contains_iff_mem.mp h
  · exact List.mem_append_right _ (List.mem_singleton_self rank)

/-- The origin's bit is set, its operation is visible, its tags are forgotten, and with the last origin the exposure ends. -/
theorem completion_counts (h : s.controlWindow s.arg.flit 1 = .ok e) (hst : e.st = .posted) : ∃ t e', exec .completion s = .next t ∧
    t.window s.arg.flit.win.toNat = some e' ∧ s.arg.flit.src.toNat ∈ e'.bitmap ∧
    Schedules t (s.now + 1) (.send (s.noticeFlit s.arg.flit.src.toNat s.arg.flit.opn.toNat 1 0)) ∧
    (e'.allDone = true → Schedules t (s.now + 1) (.postEnd s.arg.flit.win.toNat)) ∧
    ∀ k ∈ t.dedup, ¬ (k.1 = s.arg.flit.win.toNat ∧ k.2.1 = s.arg.flit.src.toNat) := by
  obtain ⟨hwin, hfree⟩ := window_of_controlWindow h
  obtain ⟨w, hw⟩ := modWindow_eq s s.arg.flit.win.toNat fun _ => e.complete s.arg.flit.src.toNat
  have hread : ({ s with windows := w } : State).window s.arg.flit.win.toNat = some (e.complete s.arg.flit.src.toNat) :=
    hw ▸ window_modWindow (g := fun _ => e.complete s.arg.flit.src.toNat) hwin hfree
  have hdedup : ∀ k ∈ s.dedup.filter (fun k => !(k.1 == s.arg.flit.win.toNat && k.2.1 == s.arg.flit.src.toNat)),
      ¬ (k.1 = s.arg.flit.win.toNat ∧ k.2.1 = s.arg.flit.src.toNat) := fun k hk ⟨hw, hs⟩ => by
    simpa [hw, hs] using (List.mem_filter.mp hk).2
  have hexec : exec .completion s = .next (
      let u : State := { ({ s with windows := w } : State).notify s.arg.flit.src.toNat s.arg.flit.opn.toNat 1 0 with
        dedup := s.dedup.filter fun k => !(k.1 == s.arg.flit.win.toNat && k.2.1 == s.arg.flit.src.toNat) }
      if (e.complete s.arg.flit.src.toNat).allDone then u.schedule (s.now + 1) (ordPort s.rank) (.postEnd s.arg.flit.win.toNat) else u) := by
    change execCompletion s = _
    simp only [execCompletion, h]
    rw [if_neg (not_not.mpr hst), ← WEntry.complete, hw]
    rfl
  refine ⟨_, _, hexec, ?_, mem_bitmap_complete e s.arg.flit.src.toNat, ?_, fun hdone => ?_, ?_⟩
  · split
    · exact hread
    · exact hread
  · split
    · exact (schedules_notify { s with windows := w } ..).schedule _ _ _
    · exact schedules_notify { s with windows := w } ..
  · rw [if_pos hdone]
    exact schedules_schedule ..
  · split
    · exact hdedup
    · exact hdedup

/-! ## Locks (R317) -/

theorem lockRequest_yields (h : s.lowerRequest s.arg.flit = true) :
    exec .lockRequest s = .next (s.plan s.now (ordPort s.arg.flit.src.toNat) .lockRequest s.arg) := by
  change execLockRequest s = _
  simp only [execLockRequest, h, if_true]

theorem lockRequest_fails {c : Nat} (hlow : s.lowerRequest s.arg.flit = false) (h : s.controlWindow s.arg.flit 2 = .error c) :
    exec .lockRequest s = .next (s.notify s.arg.flit.src.toNat s.arg.flit.opn.toNat 2 c) := by
  change execLockRequest s = _
  simp only [execLockRequest, hlow, h, Bool.false_eq_true, if_false]
  rfl

theorem release_fails {c : Nat} (h : s.controlWindow s.arg.flit 2 = .error c) :
    exec .release s = .next (s.notify s.arg.flit.src.toNat s.arg.flit.opn.toNat 2 c) := by
  change execRelease s = _
  simp only [execRelease, h]
  rfl

theorem lockRequest_full (hlow : s.lowerRequest s.arg.flit = false) (h : s.controlWindow s.arg.flit 2 = .ok e) (hfull : 64 ≤ e.fifo.length) :
    exec .lockRequest s = .next (s.notify s.arg.flit.src.toNat s.arg.flit.opn.toNat 2 5) := by
  change execLockRequest s = _
  simp only [execLockRequest, hlow, h, hfull, Bool.false_eq_true, if_false, if_true]
  rfl

theorem release_not_held (h : s.controlWindow s.arg.flit 2 = .ok e)
    (hnone : ∀ q ∈ e.holders, ¬ (q.rank = s.arg.flit.src.toNat ∧ q.tile = s.arg.flit.tile.val)) :
    exec .release s = .next (s.notify s.arg.flit.src.toNat s.arg.flit.opn.toNat 2 1) := by
  have hfind : e.holders.find? (fun q => q.rank == s.arg.flit.src.toNat && q.tile == s.arg.flit.tile.val) = none :=
    List.find?_eq_none.mpr fun q hq hm => hnone q hq (by simpa using hm)
  change execRelease s = _
  simp only [execRelease, h, hfind]
  rfl

/-- Granting leaves at the window the queue and the holders that `grantLocks` gives. -/
theorem window_grantAll {win : Nat} (h : s.window win = some e) : (s.grantAll win).window win =
    some { e with fifo := (grantLocks e.fifo e.holders []).1, holders := (grantLocks e.fifo e.holders []).2.1 } := by
  have hread := window_modWindow (g := fun d =>
    { d with fifo := (grantLocks e.fifo e.holders []).1, holders := (grantLocks e.fifo e.holders []).2.1 }) h (window_eq_some_iff.mp h).2
  rw [State.grantAll, h]
  exact (foldl_keeps (State.window · win)
    (fun s q => s.schedule (s.now + 1) (ordPort s.rank) (.send (s.controlFlit 6 q.rank win q.opn (tid q.tile))))
    (fun _ _ => rfl) (grantLocks e.fifo e.holders []).2.2 _).trans hread

theorem schedules_grantAll {win a : Nat} {ev : Ev} (h : Schedules s a ev) : Schedules (s.grantAll win) a ev := by
  unfold State.grantAll
  split
  · exact h
  · rename_i e _
    obtain ⟨w, hw⟩ := modWindow_eq s win fun d =>
      { d with fifo := (grantLocks e.fifo e.holders []).1, holders := (grantLocks e.fifo e.holders []).2.1 }
    dsimp only
    rw [hw]
    exact Schedules.foldl_schedule (s := { s with windows := w }) _ h

/-- The request of a flit (R317). -/
def lockReq (f : Flit) : LockReq := { rank := f.src.toNat, tile := f.tile.val, ex := f.op == 5, opn := f.opn.toNat }

/-- A request joins the queue, and what can be granted is. -/
theorem lockRequest_queues (hlow : s.lowerRequest s.arg.flit = false) (h : s.controlWindow s.arg.flit 2 = .ok e) (hroom : e.fifo.length < 64) :
    ∃ t, exec .lockRequest s = .next t ∧ t.window s.arg.flit.win.toNat =
      some { e with fifo := (grantLocks (e.fifo ++ [lockReq s.arg.flit]) e.holders []).1,
                    holders := (grantLocks (e.fifo ++ [lockReq s.arg.flit]) e.holders []).2.1 } := by
  obtain ⟨hwin, hfree⟩ := window_of_controlWindow h
  have hqueued := window_modWindow (g := fun d => { d with fifo := d.fifo ++ [lockReq s.arg.flit] }) hwin hfree
  refine ⟨_, ?_, window_grantAll (s := (s.modWindow s.arg.flit.win.toNat fun d => { d with fifo := d.fifo ++ [lockReq s.arg.flit] }).notify
    s.arg.flit.src.toNat s.arg.flit.opn.toNat 0 0) hqueued⟩
  change execLockRequest s = _
  simp only [execLockRequest, hlow, h, Nat.not_le.mpr hroom, Bool.false_eq_true, if_false]
  rfl

/-- With nobody waiting and nobody holding, a request is granted. -/
theorem grantLocks_free (q : LockReq) : grantLocks [q] [] [] = ([], [q], [q]) := by
  cases hq : q.ex <;> simp [grantLocks, hq]

/-- Behind an exclusive holder a request waits. -/
theorem grantLocks_held {q h : LockReq} (hex : h.ex = true) : grantLocks [q] [h] [] = ([q], [h], []) := by
  cases hq : q.ex <;> simp [grantLocks, hq, hex]

/-- The only holder's release leaves the window free, and is visible. -/
theorem release_frees {q : LockReq} (h : s.controlWindow s.arg.flit 2 = .ok e) (hfifo : e.fifo = []) (hheld : e.holders = [q])
    (hrank : q.rank = s.arg.flit.src.toNat) (htile : q.tile = s.arg.flit.tile.val) : ∃ t e', exec .release s = .next t ∧
      t.window s.arg.flit.win.toNat = some e' ∧ e'.holders = [] ∧
      Schedules t (s.now + 1) (.send (s.noticeFlit s.arg.flit.src.toNat s.arg.flit.opn.toNat 1 0)) := by
  obtain ⟨hwin, hfree⟩ := window_of_controlWindow h
  have hfind : e.holders.find? (fun q => q.rank == s.arg.flit.src.toNat && q.tile == s.arg.flit.tile.val) = some q := by
    simp [hheld, hrank, htile]
  have hread := window_modWindow (g := fun d => { d with holders := d.holders.erase q }) hwin hfree
  obtain ⟨w, hw⟩ := modWindow_eq s s.arg.flit.win.toNat fun d => { d with holders := d.holders.erase q }
  rw [hw] at hread
  let u : State := { ({ s with windows := w } : State).notify s.arg.flit.src.toNat s.arg.flit.opn.toNat 1 0 with
    dedup := s.dedup.filter fun k => !(k.1 == s.arg.flit.win.toNat && k.2.1 == s.arg.flit.src.toNat && k.2.2.2 == s.arg.flit.tile.val) }
  have hnotice : Schedules u (s.now + 1) (.send (s.noticeFlit s.arg.flit.src.toNat s.arg.flit.opn.toNat 1 0)) :=
    schedules_notify { s with windows := w } ..
  refine ⟨u.grantAll s.arg.flit.win.toNat, _, ?_, window_grantAll (s := u) hread, ?_, schedules_grantAll hnotice⟩
  · change execRelease s = _
    simp only [execRelease, h, hfind, hw]
    rfl
  · simp [hfifo, hheld, grantLocks]

/-! ## Operations that are held (R56) -/

theorem letGo_unknown {n : Nat} (h : s.op? n = none) : s.letGo n = s := by rw [State.letGo, h]

section
variable {n : Nat} {o : OpRec} (ho : s.op? n = some o)
include ho

theorem letGo_held (h : s.mayDepart o = false) : s.letGo n = s := by simp only [State.letGo, ho, h, Bool.not_false, if_true]

theorem letGo_departs (h : s.mayDepart o = true) (hkind : o.kind ≠ .compl) :
    s.letGo n = (s.modOp n fun q => { q with held := false }).depart o.rank := by
  simp only [State.letGo, ho, h, hkind, Bool.not_true, Bool.false_eq_true, if_false]

/-- A completion that departs closes its access record. -/
theorem letGo_closes {r : AccRec} (h : s.mayDepart o = true) (hkind : o.kind = .compl)
    (hr : s.accRecs.find? (fun r => r.rank == o.rank && r.win == o.win && r.closing) = some r) :
    s.letGo n = (({ s with accRecs := s.accRecs.erase r } : State).modOp n fun q => { q with held := false }).depart o.rank := by
  simp only [State.letGo, ho, h, hkind, hr, Bool.not_true, Bool.false_eq_true, if_false, if_true]

end

theorem exec_send {i : Instr} (h : i ∈ [Instr.completionNoticeSend, .fenceArrivalSend, .releaseSend]) : exec i s = .next (s.letGo s.arg.n) := by
  simp only [List.mem_cons, List.not_mem_nil, or_false] at h
  rcases h with rfl | rfl | rfl
  · rfl
  · rfl
  · rfl

/-! ## Timeouts (R315) and freed entries (R320) -/

theorem chamberQueueTimeout_none
    (h : ∀ r ∈ s.accRecs, ¬ (r.rank = s.arg.n ∧ r.win = s.arg.m ∧ r.open_ = false ∧ r.at_ + 2 ^ 24 ≤ s.now)) :
    exec .chamberQueueTimeout s = .next s := by
  have hnone : s.accRecs.find? (fun r => r.rank == s.arg.n && r.win == s.arg.m && !r.open_ && decide (r.at_ + 16777216 ≤ s.now)) = none :=
    List.find?_eq_none.mpr fun r hr hm => h r hr (by simpa [and_assoc] using hm)
  change execChamberQueueTimeout s = _
  simp only [execChamberQueueTimeout, hnone]

/-- The record and what it held back fail with code 10. -/
theorem chamberQueueTimeout_fails {r : AccRec}
    (h : s.accRecs.find? (fun r => r.rank == s.arg.n && r.win == s.arg.m && !r.open_ && decide (r.at_ + 2 ^ 24 ≤ s.now)) = some r) :
    exec .chamberQueueTimeout s = .next ((((r.opn :: (s.chamberOf r).map (·.seq)).foldl (fun s i => s.opFail i 10)
      ({ s with accRecs := s.accRecs.filter fun q => q != r } : State))).depart r.rank) := by
  have hfind : s.accRecs.find? (fun r => r.rank == s.arg.n && r.win == s.arg.m && !r.open_ && decide (r.at_ + 16777216 ≤ s.now)) = some r := h
  change execChamberQueueTimeout s = _
  simp only [execChamberQueueTimeout, hfind]

section
variable (he : s.windows.get none s.arg.m = some e)
include he

theorem windowEntryFreed_waits (h : e.freeing = none ∨ e.inFlight ≠ 0) : exec .windowEntryFreed s = .next s := by
  change execWindowEntryFreed s = _
  simp only [execWindowEntryFreed, he]
  split
  · rename_i hfree hflight
    rcases h with h | h
    · cases hfree.symm.trans h
    · exact absurd hflight h
  · rfl

/-- The entry is gone, and a `WFREE` that waits gets its status 0. -/
theorem windowEntryFreed_frees {w : Option (Tid × Nat)} (hfree : e.freeing = some w) (hflight : e.inFlight = 0) :
    ∃ t, exec .windowEntryFreed s = .next t ∧ t.windows.get none s.arg.m = none ∧ t.mem = s.mem ∧
      ∀ u id, w = some (u, id) → t.tileAt u = (s.tileAt u).fillNow id 0 := by
  have hgone : SMap.get none s.arg.m (s.windows.set none s.arg.m none) = none := SMap.get_set_same none s.arg.m none s.windows
  change ∃ t, execWindowEntryFreed s = .next t ∧ _
  simp only [execWindowEntryFreed, he, hfree, hflight]
  cases w with
  | none => exact ⟨_, rfl, hgone, rfl, fun _ _ h => nomatch h⟩
  | some p =>
    refine ⟨_, rfl, hgone, rfl, fun u id hp => ?_⟩
    cases hp
    rw [tileAt_modTile, if_pos rfl]
    rfl

end

end Sys2Proof.Machine
end

section
/-! O50: launches, reservation, go, staging and partials at the collective engine (R363 to R365, R371, R373). -/

namespace Sys2Proof.Machine

open Sys2Proof.Check Sys2Proof.Claims

variable {s : State} {c : CollRec}

/-! ## Launch notices (R363, R373) -/

section
variable (hnew : ∀ l ∈ s.launches, l.id ≠ s.arg.launch.id)
include hnew

/-- The notice is the first of its number. -/
theorem launches_of_number : (s.launches ++ [s.arg.launch]).filter (fun q => q.id == s.arg.launch.id) = [s.arg.launch] := by
  have hnone : s.launches.filter (fun q => q.id == s.arg.launch.id) = [] :=
    List.filter_eq_nil_iff.mpr fun l hl h => hnew l hl (by simpa using h)
  rw [List.filter_append, hnone]
  simp

theorem launchNotice_waits (hn : 1 < s.arg.launch.id.n) : exec .launchNotice s = .next { s with launches := s.launches ++ [s.arg.launch] } := by
  change execLaunchNotice s = _
  simp only [execLaunchNotice, launches_of_number hnew, List.length_singleton, hn, if_true]

/-- A group of one member has all its notices, and member 0 is asked to reserve. -/
theorem launchNotice_requests (hn : s.arg.launch.id.n = 1) (hstrm : crStrm s.arg.launch.record = false) :
    exec .launchNotice s = .next (s.collSend (crRank s.arg.launch.record 0) (.request s.arg.launch.id)) := by
  have hrest : (s.launches ++ [s.arg.launch]).filter (fun q => q.id != s.arg.launch.id) = s.launches := by
    have hall : s.launches.filter (fun q => q.id != s.arg.launch.id) = s.launches :=
      List.filter_eq_self.mpr fun l hl => by simpa using hnew l hl
    rw [List.filter_append, hall]
    simp
  change execLaunchNotice s = _
  simp only [execLaunchNotice, launches_of_number hnew, hrest, List.length_singleton, hn, hstrm, Nat.lt_irrefl, List.any_cons, List.any_nil,
    bne_self_eq_false, Bool.or_false, Bool.false_eq_true, if_false]

end

theorem launches_collSend (s : State) (rank : Nat) (m : CollMsg) : (s.collSend rank m).launches = s.launches := by
  unfold State.collSend
  split
  · cases m <;> rfl
  · rfl

theorem grants_collSend (s : State) (rank : Nat) (m : CollMsg) : (s.collSend rank m).grants = s.grants := by
  unfold State.collSend
  split
  · cases m <;> rfl
  · rfl

theorem arg_collSend (s : State) (rank : Nat) (m : CollMsg) : (s.collSend rank m).arg = s.arg := by
  unfold State.collSend
  split
  · cases m <;> rfl
  · rfl

/-! ## Reservation (R373) -/

section
variable (hg : s.grants = [])
include hg

theorem reservationRequest_unknown (h : s.collOf s.arg.coll = none) : exec .reservationRequest s = .next s := by
  have hunknown : ({ s with grants := [s.arg.coll] } : State).collOf s.arg.coll = none := h
  change execReservationRequest s = _
  simp only [execReservationRequest, hg, List.nil_append, List.length_singleton, State.serveGrants, hunknown]
  rw [← hg]

theorem reservationRequest_waits (h : s.collOf s.arg.coll = some c) (hfull : s.collFits c = false) :
    exec .reservationRequest s = .next { s with grants := [s.arg.coll] } := by
  have hknown : ({ s with grants := [s.arg.coll] } : State).collOf s.arg.coll = some c := h
  have hstill : ({ s with grants := [s.arg.coll] } : State).collFits c = false := hfull
  change execReservationRequest s = _
  simp only [execReservationRequest, hg, List.nil_append, List.length_singleton, State.serveGrants, hknown, hstill, Bool.not_false, if_true]

theorem reservationRequest_granted (h : s.collOf s.arg.coll = some c) (hfits : s.collFits c = true) :
    ∃ t, exec .reservationRequest s = .next t ∧ t.grants = [] := by
  have hknown : ({ s with grants := [s.arg.coll] } : State).collOf s.arg.coll = some c := h
  have hstill : ({ s with grants := [s.arg.coll] } : State).collFits c = true := hfits
  change ∃ t, execReservationRequest s = .next t ∧ _
  simp only [execReservationRequest, hg, List.nil_append, List.length_singleton, State.serveGrants, hknown, hstill, Bool.not_true,
    Bool.false_eq_true, if_false]
  refine ⟨_, rfl, ?_⟩
  rw [grants_collSend]
  exact foldl_keeps (·.grants) (fun u p => u.modPort p fun x => { x with ctx := x.ctx ++ [s.arg.coll] }) (fun _ _ => rfl) _ _

end

theorem reservationGrant_next (h : s.arg.n + 1 < s.arg.coll.n) : exec .reservationGrant s =
    .next (s.collSend (s.arg.coll.lo + (s.arg.n + 1) * s.arg.coll.stride) (.request s.arg.coll)) := by
  change execReservationGrant s = _
  simp only [execReservationGrant, h, if_true]

/-- The messages that go to the members of a group name the event's own collective all along. -/
theorem foldl_go_eq (l : List Nat) {a : CollId} {u : State} (h : u.arg.coll = a) :
    l.foldl (fun s k => s.collSend (a.lo + k * a.stride) (.go a)) u =
      l.foldl (fun s k => s.collSend (s.arg.coll.lo + k * s.arg.coll.stride) (.go s.arg.coll)) u := by
  induction l generalizing u with
  | nil => rfl
  | cons k l ih =>
    rw [List.foldl_cons, List.foldl_cons, h]
    exact ih (by rw [arg_collSend, h])

theorem reservationGrant_last (h : s.arg.coll.n ≤ s.arg.n + 1) : exec .reservationGrant s =
    .next ((List.range s.arg.coll.n).foldl (fun s k => s.collSend (s.arg.coll.lo + k * s.arg.coll.stride) (.go s.arg.coll)) s) := by
  change execReservationGrant s = _
  simp only [execReservationGrant, Nat.not_lt.mpr h, if_false]
  rw [foldl_go_eq _ rfl]

/-! ## Go and staging (R364, R365) -/

theorem collEvents_unknown (h : s.collOf s.arg.coll = none) :
    exec .go s = .next s ∧ exec .chunkStaging s = .next s ∧ exec .streamStaging s = .next s := by
  refine ⟨?_, ?_, ?_⟩
  · change execGo s = _
    simp only [execGo, h]
  · change execChunkStaging s = _
    simp only [execChunkStaging, h]
  · change execStreamStaging s = _
    simp only [execStreamStaging, h]

section
variable (hc : s.collOf s.arg.coll = some c)
include hc

theorem go_fails (hcode : s.arg.code ≠ 0) : exec .go s = .next (s.failColl c.opn s.arg.code.toNat) := by
  change execGo s = _
  simp only [execGo, hc, ne_eq, hcode, not_false_eq_true, if_true]

theorem go_stages (hcode : s.arg.code = 0) (hsrc : crHasSrc c.record c.member = true) : exec .go s =
    .next ((List.range (crChunks c.record)).foldl (fun s _ => s.stageNext c.opn)
      ((s.modColl c.opn fun c => { c with gone := true }).opLevel c.opn 1)) := by
  change execGo s = _
  simp only [execGo, hc, hcode, hsrc, ne_eq, not_true_eq_false, if_false, if_true]

theorem go_without_source (hcode : s.arg.code = 0) (hsrc : crHasSrc c.record c.member = false) : exec .go s =
    .next ((((s.modColl c.opn fun c => { c with gone := true }).opLevel c.opn 1).opLevel c.opn 0).finishColl c.opn) := by
  change execGo s = _
  simp only [execGo, hc, hcode, hsrc, ne_eq, not_true_eq_false, Bool.false_eq_true, if_false]

theorem chunkStaging_stages : exec .chunkStaging s = .next (s.stageNext c.opn) := by
  change execChunkStaging s = _
  simp only [execChunkStaging, hc]

theorem streamStaging_stages : exec .streamStaging s = .next (s.streamStage c.opn) := by
  change execStreamStaging s = _
  simp only [execStreamStaging, hc]

end

/-- The next chunk of a standing collective may be staged. -/
def State.chunkMay (s : State) (c : CollRec) : Bool :=
  c.gone && !crStrm c.record && crHasSrc c.record c.member && decide (c.chunks.length < crChunks c.record) && s.chunkReady c c.chunks.length

theorem stageNext_eq {k : Nat} (hc : s.collAt k = some c) :
    s.stageNext k = if s.chunkMay c then s.stageChunk c.opn (s.readChunk c c.chunks.length) else s := by
  simp only [State.stageNext, hc]
  rfl

/-! ## Partials (R371) -/

theorem towpathPartial_without_part (h : s.arg.flit.part = none) : exec .towpathPartial s = .next (s.event srcEngine 1 evOther 0) := by
  change execTowpathPartial s = _
  simp only [execTowpathPartial, h]

section
variable {d : PartId} (hd : s.arg.flit.part = some d)
include hd

theorem towpathPartial_unknown (h : s.collOf d.coll = none) : exec .towpathPartial s = .next (s.event srcEngine 1 evOther 0) := by
  change execTowpathPartial s = _
  simp only [execTowpathPartial, hd, h]

theorem towpathPartial_taken (h : s.collOf d.coll = some c) : exec .towpathPartial s = .next (s.takePart c s.arg.flit 0) := by
  change execTowpathPartial s = _
  simp only [execTowpathPartial, hd, h]

end

end Sys2Proof.Machine
end

section
/-! O50: messages at a window, replies, and collectives. -/

namespace Sys2Proof.Machine

open Sys2Proof.Check Sys2Proof.Claims

/-- Settles O50: each event by its rule, case by case, at windows, at origins and at the collective engine. -/
theorem windowEvents : Obligations.WindowEvents := by
  unfold Obligations.WindowEvents
  intro s f win len unit goes applied
  refine ⟨fun i right n h => ⟨request_letIn h, fun c => request_rejected h⟩,
    fun hnew => ⟨fun c hc => congrArg _ (tagged_rejected hnew hc), fun e he =>
      ⟨fun hbit => congrArg _ (tagged_of_untagged_window hnew he hbit), fun hbit =>
        ⟨fun hseen => ?repeated, fun hfresh => ⟨fun hfull => ?full, fun hroom => ⟨_, rfl, tagged_new hnew hfresh he hbit hroom⟩⟩⟩⟩⟩,
    remoteApply_gone,
    fun e he => ⟨⟨_, get_modWindow he, rfl⟩, remoteApply_put he, remoteApply_get he, remoteApply_acc he, remoteApply_amo he⟩,
    visibleNotice_none, visibleNotice_departs, fun c => reject_notifies s f c, reply_unknown,
    fun o ho => ⟨fun row => getData_lands ho, atomicOldValue_lands ho, fenceDone_visible ho, fun ex => grant_held ho, grant_other ho⟩,
    fun o row ws ho hf hg hr => ⟨landRow_writes ho hf hg hr ws, landRow_waits ho hf hg hr ws⟩,
    notices_none,
    fun hlen => ⟨fun hrank => (notices_one hlen).trans (congrArg _ (notice_other_rank hrank)),
      fun hrank ho => (notices_one hlen).trans (congrArg _ (notice_unknown hrank ho)), fun o hrank ho hone =>
      ⟨fun hlvl => (notices_one hlen).trans (congrArg _ (notice_fails hrank ho hone hlvl)),
        fun hlvl hcode => (notices_one hlen).trans (congrArg _ (notice_accepts hrank ho hone hlvl hcode)),
        fun hlvl hcode hkind => (notices_one hlen).trans (congrArg _ (notice_visible hrank ho hone hlvl hcode hkind))⟩⟩,
    post_kept, fun r => post_opens,
    fun c => fenceArrival_fails, fun e => fenceArrival_counts,
    fun c => completion_fails, fun e he => ⟨completion_not_posted he, completion_counts he⟩,
    fun hlow => ⟨_, lockRequest_yields hlow, schedules_schedule .., rfl⟩, fun c => lockRequest_fails, fun c => release_fails,
    fun e he => ⟨fun hlow => ⟨lockRequest_full hlow he, fun hfifo hheld => ?granted, fun q hfifo hheld hex => ?queued⟩, release_not_held he,
      fun q => release_frees he⟩,
    fun i hi => ⟨fun ho => (exec_send hi).trans (congrArg _ (letGo_unknown ho)),
      fun o ho hheld => (exec_send hi).trans (congrArg _ (letGo_held ho hheld)),
      fun o ho hgo hkind => (exec_send hi).trans (congrArg _ (letGo_departs ho hgo hkind)),
      fun o r ho hgo hkind hr => (exec_send hi).trans (congrArg _ (letGo_closes ho hgo hkind hr))⟩,
    chamberQueueTimeout_none, fun r => chamberQueueTimeout_fails,
    fun e => windowEntryFreed_waits, fun e w he => windowEntryFreed_frees he,
    launchNotice_waits, fun hnew hn hstrm => ⟨_, launchNotice_requests hnew hn hstrm, by rw [launches_collSend], launches_collSend ..⟩,
    fun hg => ⟨reservationRequest_unknown hg, fun c hc => ⟨reservationRequest_waits hg hc, reservationRequest_granted hg hc⟩⟩,
    reservationGrant_next, reservationGrant_last,
    collEvents_unknown,
    fun c hc => ⟨go_fails hc, go_stages hc, go_without_source hc, chunkStaging_stages hc, streamStaging_stages hc⟩,
    fun k c hc => ⟨fun hdue => (stageNext_eq hc).trans (if_pos hdue), fun hdue => (stageNext_eq hc).trans (if_neg (ne_true_of_eq_false hdue))⟩,
    towpathPartial_without_part, fun d hd => ⟨towpathPartial_unknown hd, fun c => towpathPartial_taken hd⟩⟩
  case repeated =>
    obtain ⟨l, hl⟩ := tagged_repeated hnew he hbit hseen
    exact ⟨_, congrArg Host.Outcome.next hl, schedules_notify { s with tagOps := l } .., rfl, rfl⟩
  case full =>
    obtain ⟨l, hl⟩ := tagged_full hnew hfresh he hbit hfull
    exact ⟨_, congrArg Host.Outcome.next hl, schedules_notify { s with tagOps := l } .., rfl, rfl⟩
  case granted =>
    obtain ⟨t, hexec, hwin⟩ := lockRequest_queues hlow he (by rw [hfifo]; decide)
    rw [hfifo, hheld, List.nil_append, grantLocks_free] at hwin
    exact ⟨t, _, hexec, hwin, rfl, rfl⟩
  case queued =>
    obtain ⟨t, hexec, hwin⟩ := lockRequest_queues hlow he (by rw [hfifo]; decide)
    rw [hfifo, hheld, List.nil_append, grantLocks_held hex] at hwin
    exact ⟨t, _, hexec, hwin, rfl, rfl⟩

end Sys2Proof.Machine
end
